-- ==== Sys2Proof/Word.lean ====
section
/-! DEFINITION. The bit-vector words of the SLF-1604-B: bytes, treads, flight numbers, tags. -/

namespace Sys2Proof

/-- One byte on a port or in a stored structure. -/
abbrev Byte := BitVec 8

/-- A tread number, 48 bits (R17, R342). -/
abbrev Tread := BitVec 48

/-- A flight number, 32 serial bits (R375). -/
abbrev Flight := BitVec 32

/-- A command tag, 6 bits (R232). -/
abbrev Tag := BitVec 6

/-- A status code of the table of R250. -/
abbrev Status := BitVec 8

end Sys2Proof
end

