-- ==== Sys2Proof/Syntax/Types.lean ====
section
/-! DEFINITION. What the rows of spec/opcode_table.json carry: frames, lane-frames, strap conversions, SYNC
messages, outcomes of die operations. The table gives its rows no operands; these are what the spec says the
event brings to the card. -/

namespace Sys2Proof

/-- The two command ports (R225). -/
inductive Port where
  | ci
  | dci
  deriving DecidableEq, Repr

/-- A command frame that has passed R229: bytes 0-13 less the opcode, which the row names, and, for an extended
dock frame, its payload (R232, R254). The fields that must be zero are zero in a frame that passes R229. -/
structure Frame where
  port : Port
  tag : Tag
  issue : Bool
  sector : BitVec 32
  count : BitVec 10
  arg : BitVec 32
  flags : Byte
  ext : Option (List Byte)
  deriving DecidableEq, Repr

/-- A frame as its port received it (R229): whether its characters held an invalid code group, a disparity error, lost
alignment or a stray control character, and the bytes that arrived. -/
structure BadFrame where
  code : Bool
  bytes : List Byte
  deriving DecidableEq, Repr

/-- One strap read pass: for each contact the pass covers its eight conversions in tenths of a millivolt; what stands
for the others means nothing (R601, R108). -/
structure StrapPass where
  prf : List Nat
  wpw : List Nat
  adh : List Nat
  adm : List Nat
  adl : List Nat
  twn : List Nat
  lns : List Nat
  deriving DecidableEq, Repr

/-- A codeword as an H2C lane delivers it: the lane, and its 544 symbols in the order received (R172, R175). Symbols
beyond the 544th mean nothing, and one that is not there reads as 0. -/
structure LaneWord where
  lane : BitVec 2
  syms : List (BitVec 10)
  deriving DecidableEq, Repr

/-- An alignment marker as an H2C lane delivers it: its count, and the codeword slot of the card's own count that it came
in (R183, R185). -/
structure SeenMarker where
  count : BitVec 16
  slot : BitVec 32
  deriving DecidableEq, Repr

/-- The fields of a trailer's payload that are not fixed at zero (R193). -/
structure Trailer where
  crc : BitVec 32
  count : BitVec 16
  lane : BitVec 2
  laneCode : BitVec 3
  issue : Bool
  length : BitVec 32
  deriving DecidableEq, Repr

/-- Why the card asks for a retrain (R218). -/
inductive RetrainCause where
  | markers
  | codewords
  | skew
  deriving DecidableEq, Repr

/-- The fields of a SYNC message that passed R352, less its type, which the row names (R350). -/
structure SyncMsg where
  seq : Byte
  kind : BitVec 2
  addr : BitVec 12
  tread : Tread
  arg : BitVec 32
  deriving DecidableEq, Repr

/-- What the SY line reads in each HCLK cycle, one after another; high is true (R346). -/
abbrev SyLine := List Bool

/-- A die's junction temperature, in 0.125 °C, signed (R465, R593). -/
structure DieTemp where
  hall : BitVec 4
  die : BitVec 4
  temp : BitVec 16
  deriving DecidableEq, Repr

/-- What the mount finds on DRAM and media (R40, R152, R417, R492, R506): whether the canary checks, the positions whose
metadata cannot be recovered, the readable positions whose contents are beyond recovery, and the positions whose read met
a condition of R492. Positions are numbered by `posKey`. -/
structure ScanReport where
  canary : Bool
  noMeta : List Nat
  lost : List Nat
  marks : List Nat
  deriving DecidableEq, Repr

/-- What a die reports when a PROGRAM ends (R435, R456): success, its pulse count, and whether thermal pacing
delayed it (R594). -/
structure ProgReport where
  ok : Bool
  pulses : Byte
  paced : Bool
  deriving DecidableEq, Repr

/-- What a READ or MARGIN-READ of a page returns (R435): the codewords, of those asked for, that no decode at the
thresholds given recovered, those that needed soft decode, whether the page read as erased, and whether the metadata
that decoded names a position other than the one read (R417). -/
structure ReadReport where
  fails : BitVec 16
  soft : BitVec 16
  erased : Bool
  elsewhere : Bool
  deriving DecidableEq, Repr

/-- A block of a die. -/
structure BlockRef where
  hall : BitVec 4
  die : BitVec 4
  block : BitVec 12
  deriving DecidableEq, Repr

/-- Which erases complete: one on a die, or, while FORMAT or SANITIZE runs, all that the command still has to
make, with the blocks that refused. -/
inductive EraseReport where
  | die (hall die : BitVec 4) (ok : Bool)
  | bulk (refused : List BlockRef)
  deriving DecidableEq, Repr

end Sys2Proof
end

