-- ==== Sys2Proof/Syntax.lean ====
section
/-! DEFINITION. The commands and events of the card: one constructor for each row of spec/opcode_table.json. -/

namespace Sys2Proof

/-- The rows of spec/opcode_table.json, in the table's order. -/
inductive Instr where
  | pdcMate
  | softStartBegin
  | softStartEnd
  | powerUpStrapRead
  | strapReadPassEnd (p : StrapPass)
  | alcoveCopyComplete
  | pdcBreak
  | vmUndervoltageTrip
  | vmRestored
  | hclkStop
  | hclkAbsenceDetectorTrip
  | hclkReturn
  | dpresQualified
  | dpresOpen
  | treadTick
  | trainingHold (seq : BitVec 4)
  | setPreset (seq : BitVec 4) (lane : BitVec 2) (preset : BitVec 3)
  | ready (seq : BitVec 4) (laneCode : BitVec 3)
  | reservedTrainingRequest (seq code : BitVec 4)
  | laneTrained (lane : BitVec 2) (margin : Byte)
  | firstH2cMarker
  | h2cMarkerTimeout
  | hostRetrain
  | cardRetrainRequest (cause : RetrainCause) (lanes : BitVec 4)
  | markerSend
  | markerReceived (lane : BitVec 2) (mark : SeenMarker) (margin : Byte)
  | dataFrame (w : LaneWord)
  | trailerFrame (w : LaneWord)
  | idleFrame (lane : BitVec 2) (syms : List (BitVec 10))
  | trailerTimeout (tag : Tag)
  | holdBegin
  | unlistedOpcode (opcode : Byte) (f : Frame)
  | read (f : Frame)
  | readStream (f : Frame)
  | streamSegmentStart (tag : Tag)
  | stop (f : Frame)
  | verify (f : Frame)
  | write (f : Frame)
  | writeGo (tag : Tag)
  | delayedMergeStart (tag : Tag)
  | discardZ (f : Frame)
  | discardH (f : Frame)
  | land (f : Frame)
  | rollback (f : Frame)
  | service (f : Frame)
  | quiet (f : Frame)
  | mount (f : Frame)
  | mountComplete (r : ScanReport)
  | close (f : Frame)
  | inquire (f : Frame)
  | inquireDeferredTransfer (tag : Tag)
  | forceClose (f : Frame)
  | format (f : Frame)
  | sanitize (f : Frame)
  | alcoveLoad (f : Frame)
  | alcoveSwap (f : Frame)
  | syncSetTread (m : SyncMsg)
  | syncCheckTread (m : SyncMsg)
  | syncLand (m : SyncMsg)
  | syncRollback (m : SyncMsg)
  | syncService (m : SyncMsg)
  | syncQuiet (m : SyncMsg)
  | syncMark (m : SyncMsg)
  | landingExecute
  | landingBayIssue (since : BitVec 24)
  | landingCutoff
  | rollbackExecute
  | rollbackBayIssue (since : BitVec 24)
  | rollbackCutoff
  | markExecute
  | windowStart
  | windowEnd
  | keepaliveInterim (tag : Tag)
  | descriptorQueued (hall : BitVec 4)
  | programComplete (hall die : BitVec 4) (r : ProgReport)
  | readComplete (hall die : BitVec 4) (r : ReadReport)
  | eraseComplete (r : EraseReport)
  | descriptorHung (hall die : BitVec 4)
  | hallResetEnd (hall : BitVec 4) (micros : BitVec 16)
  | windowEraseStart
  | reclaimRelocation
  | refreshRelocation
  | staticLevelMove
  | patrolVisit
  | annealStart (pulses : Byte)
  | heatComplete (hall die : BitVec 4)
  | annealProbe (hall die : BitVec 4) (pulses : Byte)
  | heaterTimeout (hall die : BitVec 4)
  | thermalStageChange (die : DieTemp) (others : List DieTemp) (controller : BitVec 16)
  | twinHello (bytes : List Byte)
  | twinDigest (bytes : List Byte)
  | twinWaitExpiry
  | balconyPeriod
  | balconySlot
  | refusedFrame (port : Port) (b : BadFrame)
  | alignmentLost (port : Port)
  | alignmentRegained (port : Port)
  | characterOutsideFrame (port : Port)
  | badSyncMessage (line : SyLine)
  | syncIdleTimeout (line : SyLine)
  | exclusiveReadWaitExpiry (hall die : BitVec 4)
  | eraseSuspendComplete (hall die : BitVec 4)
  | alcoveOperationComplete (ok : Bool)
  deriving DecidableEq, Repr

end Sys2Proof
end

