-- ==== Sys2Proof/Decode.lean ====
section
/-! DEFINITION. The opcode table of this block gives its rows no bits, so no word spells a command. -/

namespace Sys2Proof

/-- The command that a word of the table spells: none, because no row of spec/opcode_table.json gives bits. -/
def decodeTableWord (_nbits _w : Nat) : Option Instr := none

end Sys2Proof
end

