-- ==== Sys2Proof/Config.lean ====
section
/-! DEFINITION. The card's constants, each with its rule, and the values the spec leaves open: the latter are
constants without a body, so that nothing can be proved of their value. -/

namespace Sys2Proof.Config

/-- Halls, dies per hall, die rows (R403). -/
def halls : Nat := 16
/-- Blocks per die (R403). -/
def blocksPerDie : Nat := 2784
/-- Wing slots per die (R403). -/
def wingSlots : Nat := 2730
/-- Wings: 16 die rows of 2,730 (R403). -/
def wings : Nat := 43680
/-- Galleries per wing, that is bay pages per block (R403). -/
def galleries : Nat := 384
/-- Data bays of a full wing (R403). -/
def dataBaysFull : Nat := 5759
/-- Data bays of a narrow wing (R403). -/
def dataBaysNarrow : Nat := 5375
/-- Erased bays ready of a full erased wing (R400). -/
def readyFull : Nat := 6143
/-- Erased bays ready of a narrow erased wing (R400). -/
def readyNarrow : Nat := 5759
/-- Bay images the vestibule holds (R427). -/
def vestibuleBays : Nat := 8192
/-- Of them, those the card keeps for the FILLER, SUMMARY and PARITY bays of four open galleries (log entry 77). -/
def vestibuleOwn : Nat := 64
/-- Descriptors a hall queue holds (R432). -/
def hallQueue : Nat := 64
/-- Retries at shifted thresholds (R486). -/
def maxRetries : Nat := 7
/-- Read count at which a wing is marked for refresh (R469). -/
def refreshReads : Nat := 400000
/-- Saturation of the read count (R468). -/
def readCountMax : Nat := 1048575
/-- Landing cut-off in HCLK cycles (R380). -/
def cutoffCycles : Nat := 281250
/-- LAND_MAX in HCLK cycles (R380). -/
def landMaxCycles : Nat := 312500
/-- RESP_MAX in HCLK cycles (R16). -/
def respMaxCycles : Nat := 156250
/-- HCLK cycles in a tread (R17). -/
def treadCycles : Nat := 40
/-- Cycles of continuous idle a SYNC message must follow (R352). -/
def syIdle : Nat := 240
/-- Cycles within which the next start edge of a SYNC message must come, from a stop bit's sample 8 (R352). -/
def syGap : Nat := 48
/-- Lateness a LAND tolerates, in treads (R317, R364). -/
def lateTreads : Nat := 1024
/-- The furthest a scheduled tread may lie ahead (R311, R364). -/
def leadTreads : Nat := 16777216
/-- Shortest window in treads (R311, R355). -/
def windowMin : Nat := 64
/-- Longest window in treads (R311). -/
def windowMax : Nat := 16777216
/-- S is set below this many free erased wings (R441). -/
def markS : Nat := 96
/-- Inline reclaim below this many free erased wings (R441). -/
def markInline : Nat := 32
/-- WRITE is refused below this many free erased wings (R441); also the reserve (R442). -/
def markRefuse : Nat := 8
/-- Reclaim runs while free erased wings and wings awaiting erase number fewer (R450). -/
def reclaimBelow : Nat := 192
/-- Wing erases at once in a window (R450). -/
def windowErases : Nat := 4
/-- Treads an ERASE needs before a window's end: 8 ms (R449). -/
def eraseTreads : Nat := 31250
/-- Treads a relocation needs: 0.5 ms, rounded up to whole treads (R449). -/
def relocTreads : Nat := 1954
/-- Treads a patrol MARGIN-READ needs: 0.2 ms, rounded up (R449). -/
def marginTreads : Nat := 782
/-- Treads an anneal needs: 450 ms, rounded up (R449). -/
def annealTreads : Nat := 1757813
/-- Entries the loss store holds (R498). -/
def lossStore : Nat := 16384
/-- Entries of the loss list (R499). -/
def lossList : Nat := 256
/-- Loss entries a landing bay records (R501). -/
def lossSection : Nat := 128
/-- Merged discard ranges a landing bay records (R387). -/
def landingRanges : Nat := 4096
/-- Ledger entries (R554). -/
def ledgerEntries : Nat := 16384
/-- Landings the digest history keeps (R525). -/
def historyDepth : Nat := 64
/-- HCLK cycles from stop-bit sample 8 of a message's last character to its take point (R359). -/
def takeCycles : Nat := 256
/-- Records the trace queue holds, and the places events may take (R579). -/
def traceQueue : Nat := 512
/-- Places of the trace queue an event may take (R579). -/
def traceEvents : Nat := 480
/-- Slots of a Balcony period (R576). -/
def periodSlots : Nat := 1562
/-- MARKs held at most (R357). -/
def heldMarks : Nat := 8
/-- Bytes of an alcove (R544). -/
def alcoveBytes : Nat := 25165824
/-- Offset of the first record slot, above which ALCOVE LOAD may touch nothing (R545, R558). -/
def recordOffset : Nat := 0x510000

/-- The ROM loader version of INQUIRE page 0 bytes 30-31, which the spec names and does not state (R325). -/
opaque romVersion : BitVec 16
/-- The device key in the controller's one-time fuses, which no port can read (R553). -/
opaque deviceKey : BitVec 256
/-- A media key from the hardware random source (R553), at the value of the state's free counter. -/
opaque freeKey : Nat → BitVec 512
/-- The tread of a landing whose bay is no longer on media, when a rollback makes it the last landed flight again, at the
value of the state's free counter (R394). -/
opaque lostTread : Nat → Tread
/-- The digest of such a landing. -/
opaque lostDigest : Nat → BitVec 64
/-- A byte of the alcove device whose programming failed, at the value of the state's free counter plus its
place (R543 gives no content). -/
opaque freeByte : Nat → Byte
/-- A byte of a bay's payload that the spec does not state: at a bay's sequence, the byte's place. It gives a record's fields
and not where they lie, and nothing of what a sector that is not written holds (R387, R393, R408, R418). -/
opaque openPayload : Nat → Nat → Byte
/-- Where the loss section begins in a landing bay's payload: the spec gives its entries' bytes and not their place in the bay
(R387, R501). -/
opaque lossPlace : Nat
/-- The 58 bits that a C2H lane's scrambler has sent before a transfer, at the value of the state's free counter plus
the lane: the idle frames before it have run it on (R177, R180). -/
opaque freeScrambler : Nat → BitVec 58
/-- Whether pacing delayed a program that hung or that a hall reset aborted, at the value of the state's free counter: no completion
tells it (R594). -/
opaque freePaced : Nat → Bool
/-- Block and page of a read of the mount scan, or of a page of a die's monitor block, that hung, at the value of the state's free
counter (R435, R462, R588). -/
opaque hungPlace : Nat → BitVec 16 × BitVec 16
/-- Whether an anneal's probe hung in its PROGRAM, not in its ERASE, at the value of the state's free counter (R462). -/
opaque hungProbe : Nat → Bool
/-- What the mount scan's own reads add to a counter of READs, soft-decoded codewords, retries or rebuilds: the spec does not say
how many reads the scan makes. At the value of the state's free counter and the counter's number (R152, R587). -/
opaque scanCount : Nat → Nat → Nat
/-- The voltage page 5 reports for a contact whose conversions of the last pass differ, in millivolts (R116). -/
opaque strapMillivolts : List Nat → Nat
/-- BC-94 where the difference does not fit the gauge's 32 signed bits (R585 gives no value). -/
opaque slipGauge : Int → BitVec 32

end Sys2Proof.Config
end

