-- ==== Sys2Proof/Machine/Store.lean ====
section
/-! DEFINITION. Sparse data by key: lists of (key, value) pairs with strictly rising keys, and byte memories in
one canonical form (no entry equal to what an unlisted address reads as). -/

namespace Sys2Proof.Machine

/-- A sparse table: strictly rising keys. -/
abbrev KV (α : Type) := List (Nat × α)

/-- What a table holds at a key. -/
def KV.find {α : Type} (m : KV α) (k : Nat) : Option α :=
  match m with
  | [] => none
  | (j, v) :: r => if j = k then some v else KV.find r k

/-- The table with `v` at `k`. -/
def KV.put {α : Type} (m : KV α) (k : Nat) (v : α) : KV α :=
  match m with
  | [] => [(k, v)]
  | (j, w) :: r =>
    if k < j then (k, v) :: (j, w) :: r
    else if k = j then (k, v) :: r
    else (j, w) :: KV.put r k v

/-- The table without an entry at `k`. -/
def KV.drop {α : Type} (m : KV α) (k : Nat) : KV α :=
  match m with
  | [] => []
  | (j, w) :: r => if j = k then r else (j, w) :: KV.drop r k

/-- What a table holds at a key, or a default. -/
def KV.getD {α : Type} (m : KV α) (k : Nat) (d : α) : α := (KV.find m k).getD d

/-- The keys rise strictly above `lo`. -/
def KV.risingFrom {α : Type} (lo : Nat) (m : KV α) : Bool :=
  match m with
  | [] => true
  | (k, _) :: r => decide (lo ≤ k) && KV.risingFrom (k + 1) r

/-- The table's keys rise strictly. -/
def KV.wf {α : Type} (m : KV α) : Bool := KV.risingFrom 0 m

/-- `x` put into a sorted list, before the first element it does not come after. -/
def insertBy {α : Type} (le : α → α → Bool) (x : α) (l : List α) : List α :=
  match l with
  | [] => [x]
  | y :: r => if le x y then x :: y :: r else y :: insertBy le x r

/-- The list in rising order, equals in the order they stood. -/
def sortBy {α : Type} (le : α → α → Bool) (l : List α) : List α :=
  match l with
  | [] => []
  | x :: r => insertBy le x (sortBy le r)

/-- A byte memory: cells at rising addresses. -/
abbrev Mem := List Host.Cell

/-- What an unlisted byte of the alcove device reads as: the erased state (R549: 'all 0xFF'). -/
def Mem.blank : BitVec 8 := 0xFF

/-- Reading one byte. -/
def Mem.read (m : Mem) (a : Nat) : BitVec 8 := (KV.find m a).getD Mem.blank

/-- Writing one byte; writing the blank value removes the entry. -/
def Mem.write (m : Mem) (a : Nat) (b : BitVec 8) : Mem :=
  if b = Mem.blank then KV.drop m a else KV.put m a b

/-- The canonical form: rising addresses, no blank entry. -/
def Mem.wf (m : Mem) : Bool := KV.wf m && m.all (fun c => decide (c.2 ≠ Mem.blank))

/-- The `n` bytes from address `a`. -/
def Mem.bytes (m : Mem) (a n : Nat) : List (BitVec 8) := (List.range n).map (fun i => Mem.read m (a + i))

/-- Programming: each byte becomes the AND of what it held and what is programmed (NOR flash; log entry 12). -/
def Mem.program (m : Mem) (a : Nat) (bs : List (BitVec 8)) : Mem :=
  match bs with
  | [] => m
  | b :: r => Mem.program (Mem.write m a (Mem.read m a &&& b)) (a + 1) r

/-- Writing bytes whatever was there (bytes the device failed to program). -/
def Mem.force (m : Mem) (a : Nat) (bs : List (BitVec 8)) : Mem :=
  match bs with
  | [] => m
  | b :: r => Mem.force (Mem.write m a b) (a + 1) r

/-- Erasing `n` bytes from `a`: they read blank again. -/
def Mem.erase (m : Mem) (a n : Nat) : Mem := m.filter (fun c => decide (c.1 < a ∨ a + n ≤ c.1))

end Sys2Proof.Machine
end

