-- ==== Sys2Proof/Machine/Bytes.lean ====
section
/-! DEFINITION. Byte order and the check codes of the ports and records (R1, R194, R233, R236, R523, R547). -/

namespace Sys2Proof.Machine

/-- The `n` low bytes of a number, little-endian (R1). -/
def leBytes (n v : Nat) : List Byte :=
  match n with
  | 0 => []
  | k + 1 => BitVec.ofNat 8 v :: leBytes k (v / 256)

/-- The number a little-endian byte list spells (R1). -/
def leNat (bs : List Byte) : Nat :=
  match bs with
  | [] => 0
  | b :: r => b.toNat + 256 * leNat r

/-- ASCII text as bytes, padded with spaces to `n`. -/
def ascii (n : Nat) (t : List Nat) : List Byte :=
  (t.map (BitVec.ofNat 8) ++ List.replicate n 0x20).take n

/-- One bit of a left-shifting CRC of width `w`. -/
def crcBit {w : Nat} (poly : BitVec w) (c : BitVec w) : BitVec w :=
  if c.msb then (c <<< 1) ^^^ poly else c <<< 1

/-- `k` bits of a left-shifting CRC. -/
def crcBits {w : Nat} (poly : BitVec w) (k : Nat) (c : BitVec w) : BitVec w :=
  match k with
  | 0 => c
  | j + 1 => crcBits poly j (crcBit poly c)

/-- One byte into a left-shifting CRC: the byte meets the register's top eight bits. -/
def crcByte {w : Nat} (poly : BitVec w) (c : BitVec w) (b : Byte) : BitVec w :=
  crcBits poly 8 (c ^^^ (b.setWidth w <<< (w - 8)))

/-- A left-shifting CRC over bytes. -/
def crcLeft {w : Nat} (poly init : BitVec w) (bs : List Byte) : BitVec w := bs.foldl (crcByte poly) init

/-- One bit of a reflected CRC of width 32, its polynomial reflected. -/
def crcBitR (poly : BitVec 32) (c : BitVec 32) : BitVec 32 :=
  if c.getLsbD 0 then (c >>> 1) ^^^ poly else c >>> 1

/-- `k` bits of a reflected CRC. -/
def crcBitsR (poly : BitVec 32) (k : Nat) (c : BitVec 32) : BitVec 32 :=
  match k with
  | 0 => c
  | j + 1 => crcBitsR poly j (crcBitR poly c)

/-- One byte into a reflected CRC. -/
def crcByteR (poly : BitVec 32) (c : BitVec 32) (b : Byte) : BitVec 32 :=
  crcBitsR poly 8 (c ^^^ b.setWidth 32)

/-- A reflected CRC-32 over bytes, initial value and final XOR all ones. -/
def crcRight (poly : BitVec 32) (bs : List Byte) : BitVec 32 :=
  bs.foldl (crcByteR poly) 0xFFFFFFFF ^^^ 0xFFFFFFFF

/-- CRC-8 of responses and Balcony records (R236). -/
def crc8 (bs : List Byte) : BitVec 8 := crcLeft 0x07 0x00 bs

/-- CRC-16/CCITT-FALSE of command frames, markers and SYNC messages (R233). -/
def crc16 (bs : List Byte) : BitVec 16 := crcLeft 0x1021 0xFFFF bs

/-- CRC-32C of trailers, extended frames, twin messages and write records (R194): 0x1EDC6F41 reflected. -/
def crc32c (bs : List Byte) : BitVec 32 := crcRight 0x82F63B78 bs

/-- CRC-32 of the alcove device (R547): 0x04C11DB7 reflected. -/
def crc32 (bs : List Byte) : BitVec 32 := crcRight 0xEDB88320 bs

/-- CRC-64/ECMA-182 of the flight digest, from a starting register (R523). -/
def crc64 (init : BitVec 64) (bs : List Byte) : BitVec 64 := crcLeft 0x42F0E1EBA9EA3693 init bs

/-- A list with the bytes `bs` written over it from place `at`. -/
def pokeAt (page : List Byte) (k : Nat) (bs : List Byte) : List Byte :=
  page.take k ++ bs ++ page.drop (k + bs.length)

/-- A page of 4,096 bytes that is zero but for the fields listed as (offset, bytes) (R323). -/
def pageOf (fields : List (Nat × List Byte)) : List Byte :=
  (fields.foldl (fun p f => pokeAt p f.1 f.2) (List.replicate 4096 0)).take 4096

end Sys2Proof.Machine
end

