-- ==== Sys2Proof/Machine/Aes.lean ====
section
/-! DEFINITION. The AES-256-XTS engine (R120, R285, R414, R553). The spec names the algorithm; its tables and steps are those of
FIPS 197 and IEEE 1619 (log entry 8). -/

namespace Sys2Proof.Machine

open Sys2Proof

/-- A byte times x modulo x^8 + x^4 + x^3 + x + 1. -/
def aesTwice (a : Byte) : Byte := (a <<< 1) ^^^ (if a.getLsbD 7 then 0x1B else 0)

/-- The product of two bytes in that field. -/
def aesMul (a b : Byte) : Byte :=
  ((List.range 8).foldl (fun (x : Byte × Byte) i => (if b.getLsbD i then x.1 ^^^ x.2 else x.1, aesTwice x.2)) (0, a)).1

/-- The inverse of a byte, 0 for 0: its 254th power. -/
def aesInv (a : Byte) : Byte :=
  let sq (x : Byte) : Byte := aesMul x x
  ((List.range 6).foldl (fun (x : Byte × Byte) _ => (aesMul x.1 (sq x.2), sq x.2)) (sq a, sq a)).1

/-- The S-box. -/
def aesSub (a : Byte) : Byte :=
  let i := aesInv a
  i ^^^ i.rotateLeft 1 ^^^ i.rotateLeft 2 ^^^ i.rotateLeft 3 ^^^ i.rotateLeft 4 ^^^ 0x63

/-- The inverse S-box. -/
def aesUnsub (a : Byte) : Byte := aesInv (a.rotateLeft 1 ^^^ a.rotateLeft 3 ^^^ a.rotateLeft 6 ^^^ 0x05)

/-- The exclusive or of two blocks, byte by byte. -/
def aesXor (a b : List Byte) : List Byte := (a.zip b).map (fun x => x.1 ^^^ x.2)

/-- One more word of the key schedule, the words so far newest first; `i` is its index. -/
def aesKeyWord (ws : List (List Byte)) (i : Nat) : List Byte :=
  let t := ws.getD 0 []
  let t := if i % 8 = 0 then
      aesXor ((t.drop 1 ++ t.take 1).map aesSub) [(1#8 <<< (i / 8 - 1)), 0, 0, 0]
    else if i % 8 = 4 then t.map aesSub
    else t
  aesXor t (ws.getD 7 [])

/-- The 15 round keys of a 256-bit key. -/
def aesRoundKeys (key : List Byte) : List (List Byte) :=
  let start := ((List.range 8).map (fun i => (key.drop (4 * i)).take 4)).reverse
  let ws := ((List.range 52).foldl (fun (ws : List (List Byte)) i => aesKeyWord ws (i + 8) :: ws) start).reverse
  (List.range 15).map (fun r => ((ws.drop (4 * r)).take 4).flatten)

/-- Row r of the block rotates by r columns; `n` is 1 for encryption and 3 for decryption. -/
def aesRows (n : Nat) (b : List Byte) : List Byte :=
  (List.range 16).map (fun i => b.getD ((i + 4 * n * (i % 4)) % 16) 0)

/-- One column times the polynomial whose coefficients are `m`. -/
def aesColumn (m b : List Byte) : List Byte :=
  (List.range 4).map (fun r => (List.range 4).foldl (fun x k => x ^^^ aesMul (m.getD ((k + 4 - r) % 4) 0) (b.getD k 0)) 0)

/-- Every column times that polynomial. -/
def aesColumns (m b : List Byte) : List Byte :=
  (List.range 4).flatMap (fun c => aesColumn m ((b.drop (4 * c)).take 4))

/-- AES-256 of one block under its round keys. -/
def aesEncrypt (ks : List (List Byte)) (b : List Byte) : List Byte :=
  let b := (List.range 13).foldl (fun b r =>
    aesXor (aesColumns [2, 3, 1, 1] (aesRows 1 (b.map aesSub))) (ks.getD (r + 1) [])) (aesXor b (ks.getD 0 []))
  aesXor (aesRows 1 (b.map aesSub)) (ks.getD 14 [])

/-- The inverse of `aesEncrypt`. -/
def aesDecrypt (ks : List (List Byte)) (b : List Byte) : List Byte :=
  let b := (List.range 13).foldl (fun b r =>
    aesColumns [14, 11, 13, 9] (aesXor ((aesRows 3 b).map aesUnsub) (ks.getD (13 - r) []))) (aesXor b (ks.getD 14 []))
  aesXor ((aesRows 3 b).map aesUnsub) (ks.getD 0 [])

/-- The next block's tweak: times x modulo x^128 + x^7 + x^2 + x + 1. -/
def xtsNext (t : Nat) : Nat := (2 * t) % 2 ^ 128 ^^^ (if 2 ^ 127 ≤ t then 0x87 else 0)

/-- Whole blocks of a data unit in order, each through `f` between two exclusive ors with its tweak. -/
def xtsBlocks (f : List Byte → List Byte) : Nat → Nat → List Byte → List Byte
  | 0, _, _ => []
  | n + 1, t, b =>
    let w := leBytes 16 t
    aesXor (f (aesXor (b.take 16) w)) w ++ xtsBlocks f n (xtsNext t) (b.drop 16)

/-- The tweak of a data unit's first block: its number under the key's second half. -/
def xtsTweak (key : List Byte) (unit : Nat) : Nat :=
  leNat (aesEncrypt (aesRoundKeys (key.drop 32)) (leBytes 16 unit))

/-- A sector encrypted, its logical number the tweak (R120). -/
def xtsEncrypt (key : BitVec 512) (sector : Nat) (b : List Byte) : List Byte :=
  let k := leBytes 64 key.toNat
  xtsBlocks (aesEncrypt (aesRoundKeys (k.take 32))) (b.length / 16) (xtsTweak k sector) b

/-- A sector decrypted (R120). -/
def xtsDecrypt (key : BitVec 512) (sector : Nat) (b : List Byte) : List Byte :=
  let k := leBytes 64 key.toNat
  xtsBlocks (aesDecrypt (aesRoundKeys (k.take 32))) (b.length / 16) (xtsTweak k sector) b

end Sys2Proof.Machine
end

