-- ==== Sys2Proof/Machine/State.lean ====
section
/-! DEFINITION. The state of the card as plain data, and the card right after reset. Sparse tables (KV) and byte
memories (Mem) hold only what differs from their default. -/

namespace Sys2Proof.Machine

/-- The card's states (R136). -/
inductive Phase where
  | absent | poweredUnclocked | loading | linkTraining | readyUnmounted | mounting | mounted | closed | fault
  deriving DecidableEq, Repr

/-- Supply, presence, clock and the pins the card drives (R54 to R64, R76 to R82, R97, R99, R137). -/
structure Power where
  /-- PDC reads low; the 2 ms count runs or has run (R59) -/
  pdcLow : Bool
  /-- soft start is running (R76) -/
  softStarting : Bool
  /-- a PDC break while powered, final for the insertion (R64) -/
  broken : Bool
  /-- VM has fallen below the trip and has not been back for 10 ms (R77, R79) -/
  vmLow : Bool
  /-- HCLK is present (R82) -/
  hclk : Bool
  /-- the absence detector has tripped in this absence (R35, R97) -/
  hclkTripped : Bool
  /-- the strap current sources are on (R99) -/
  strapSources : Bool
  /-- DPRES is treated as grounded (R54, R55) -/
  dock : Bool
  /-- the card pulls LND low (R137, R389) -/
  lnd : Bool
  deriving DecidableEq, Repr

/-- The strap contacts. -/
inductive StrapId where
  | prf | wpw | adh | adm | adl | twn | lns
  deriving DecidableEq, Repr

/-- What a strap read latched of one contact (R113, R116). -/
structure StrapVal where
  level : BitVec 4
  mv : Nat
  unstable : Bool
  deriving DecidableEq, Repr

/-- What was latched of all seven contacts. -/
structure StrapSet where
  prf : StrapVal
  wpw : StrapVal
  adh : StrapVal
  adm : StrapVal
  adl : StrapVal
  twn : StrapVal
  lns : StrapVal
  deriving DecidableEq, Repr

/-- Which read it is (R116). -/
inductive ReadKind where
  | powerUp | mount | format
  deriving DecidableEq, Repr

/-- A strap read in progress (R601): the passes ended, the contacts not yet stable, and what has been got. -/
structure StrapReading where
  kind : ReadKind
  pass : Nat
  todo : List StrapId
  got : StrapSet
  deriving DecidableEq, Repr

/-- A twin role (R131). -/
inductive Role where
  | solo | twinA | twinB
  deriving DecidableEq, Repr

/-- Latched strap values and what the card has taken from them (R115 to R117, R126 to R133, R169). -/
structure Straps where
  vals : StrapSet
  lastRead : Option ReadKind
  /-- slot address latched at the most recent read that covers the address straps -/
  slot : BitVec 12
  /-- the card's group, with the exception of R127 -/
  group : BitVec 4
  /-- slot address latched at the last MOUNT (R129) -/
  mountSlot : BitVec 12
  /-- slot address latched at the MOUNT before CLOSE (R169) -/
  closedSlot : BitVec 12
  role : Role
  roleRefused : Bool
  /-- the levels of TWN and LNS in force: those of the most recent power-up or MOUNT read (R117) -/
  twn : BitVec 4
  lns : BitVec 4
  reading : Option StrapReading
  deriving DecidableEq, Repr

/-- A character being received on SY: cycles since its detection cycle, whether its edge followed 240 cycles of idle,
and the data bits read so far (R346, R352). -/
structure SyChar where
  cycle : Nat
  fromIdle : Bool
  bits : Byte
  deriving DecidableEq, Repr

/-- The receiver on SY (R346 to R348, R352): the samples that read high one after another while it was armed, to 240; the
character being received, none while armed; the bytes of the message being collected, none while it hunts; and the
cycles since the last character's stop-bit sample 8. -/
structure SyRx where
  idle : Nat
  char : Option SyChar
  msg : Option (List Byte)
  since : Nat
  deriving DecidableEq, Repr

/-- The tread counter and the SYNC receiver (R17, R341, R346, R353, R361). -/
structure Treads where
  c : Tread
  /-- a message whose 18 characters are there: the cycles left to its take point, and its bytes (R359) -/
  taking : Option (Nat × List Byte)
  /-- ticks since power-up, which no SET TREAD changes: 40 HCLK cycles each (R15, R17) -/
  ticks : Nat
  rx : SyRx
  /-- type and fields of the message accepted just before (R353) -/
  lastMsg : Option (Byte × SyncMsg)
  /-- counter minus message at the last CHECK TREAD (BC-94) -/
  checkDiff : Int
  deriving DecidableEq, Repr

/-- How far the link is (R206 to R210, R217). -/
inductive LinkMode where
  /-- no link: before LINK-TRAINING or with the card unpowered -/
  | down
  /-- training frames are exchanged -/
  | training
  /-- a READY with this lane count was accepted; the first H2C marker is awaited -/
  | accepted (n : Nat)
  /-- lane-frames are exchanged -/
  | up
  deriving DecidableEq, Repr

/-- The result of the last training request acted on (R607). -/
inductive ReqResult where
  | none | accepted | refused
  deriving DecidableEq, Repr

/-- A transfer that an HCLK absence ended and whose LANE-CHECK waits for the host's retraining (R38, R220). -/
structure OwedCheck where
  tag : Tag
  mask : BitVec 4
  cause : Byte
  /-- the Z flag its LANE-CHECK carries: that of a stream whose segments held sectors without data (R251, R268) -/
  z : Bool
  deriving DecidableEq, Repr

/-- The data lanes. -/
structure Link where
  mode : LinkMode
  /-- lane count in use (R223); 0 before the first accepted READY -/
  lanes : Nat
  /-- mask of trained H2C lanes (R204) -/
  trained : BitVec 4
  /-- presets of C2H lanes 0 to 3 (R202, R205) -/
  preset0 : BitVec 3
  preset1 : BitVec 3
  preset2 : BitVec 3
  preset3 : BitVec 3
  /-- sequence of the last request acted on (R203) -/
  reqSeq : Option (BitVec 4)
  reqResult : ReqResult
  /-- the card asks for a retrain (R209, R218) -/
  retrainReq : Bool
  /-- receiver margins of H2C lanes 0 to 3 (R606) -/
  margins : KV Byte
  /-- the next transmit marker count (R183, R184) -/
  txMarker : BitVec 16
  /-- the last marker of each H2C lane: its count and the codeword slot of the card's own count it arrived in (R185) -/
  rxMarkers : KV (BitVec 16 × BitVec 32)
  /-- uncorrectable codewords of each H2C lane since its last marker (R218) -/
  badWords : KV Nat
  /-- the descrambler of each H2C lane: the last 58 payload bits received, the newest at bit 57 (R177) -/
  rxScramble : KV Nat
  /-- H2C lanes whose last codeword was uncorrectable (R178) -/
  lastBad : BitVec 4
  /-- C2H lane 0 is to be held low and is not yet (R212) -/
  holdDue : Bool
  /-- C2H lane 0 is held low once the link is trained (R211) -/
  hold : Bool
  /-- the host sends training frames while the hold lasts (R216) -/
  hostTrains : Bool
  /-- a retrain that waits for the hold's end: its cause and its lanes, as EV-10 shows them (R216) -/
  holdCause : Option (Byte × BitVec 4)
  owed : List OwedCheck
  deriving DecidableEq, Repr

/-- Kinds of bay (R413). -/
inductive BayKind where
  | data | summary | landing | rollback | discard | mark | parity | filler
  deriving DecidableEq, Repr

/-- A stored sector: the bytes, and the media key and logical sector (the tweak) they were encrypted under, or
no key (R120; log entry 8). -/
structure Sector where
  key : Option (BitVec 512)
  tweak : Nat
  plain : List Byte
  deriving DecidableEq, Repr

/-- A DISCARD.Z range: first sector, sectors, and the ordinal and sequence that order it (R299, R387, R423). -/
structure DRange where
  first : Nat
  count : Nat
  ord : Nat
  seq : Nat
  deriving DecidableEq, Repr

/-- Where a loss came from (R497). -/
inductive LossSource where
  | read | service | merge | scan | completion
  deriving DecidableEq, Repr

/-- A loss entry (R497, R500, R503). -/
structure Loss where
  /-- first sector of the lost bay, or 0xFFFF_FFFF -/
  first : BitVec 32
  /-- bay sequence; for an entry that names no logical bay its bound, or the bay's own sequence -/
  seq : Nat
  wing : Nat
  hall : Nat
  kind : BitVec 4
  source : LossSource
  /-- F of the newest landing bay that carries it, and that bay's sequence, once carried -/
  carried : Option (Flight × Nat)
  reported : Bool
  /-- page 3 byte 9 bit 0 -/
  before : Bool
  /-- the entry's sequence is a bound of R506 -/
  bound : Bool
  deriving DecidableEq, Repr

/-- What a landing bay records (R387). -/
structure LandingRec where
  flight : Flight
  tread : Tread
  late : Nat
  prev : Flight
  first : Nat
  last : Nat
  slot : BitVec 12
  digest : BitVec 64
  cmds : Nat
  bays : Nat
  voided : Nat
  losses : List Loss
  ranges : List DRange
  /-- sequences of bays of its range whose commands ended other than OK and so land nothing (R222, R287; log entry 32) -/
  absent : List Nat
  deriving DecidableEq, Repr

/-- What a ROLLBACK bay records (R393). -/
structure RollbackRec where
  flight : Flight
  tread : Tread
  restored : Flight
  landFirst : Nat
  landLast : Nat
  base : Nat
  closed : Nat
  slot : BitVec 12
  voided : Nat
  deriving DecidableEq, Repr

/-- A bay as a summary lists it (R418). -/
structure SummaryEntry where
  gallery : Nat
  hall : Nat
  kind : BayKind
  addr : Nat
  mask : BitVec 16
  seq : Nat
  ord : Nat
  reloc : Bool
  deriving DecidableEq, Repr

/-- What a bay's payload is. -/
inductive Body where
  | data (sectors : List (Option Sector))
  | summary (missing : Option Nat) (entries : List SummaryEntry) (failed : List (Nat × Nat))
  | landing (r : LandingRec)
  | rollback (r : RollbackRec)
  | discard (ranges : List DRange)
  | mark (value : BitVec 32) (tread : Tread)
  | parity (members : List Nat)
  | filler
  deriving DecidableEq, Repr

/-- A bay with its metadata (R413). `key` is its position, (wing × 384 + gallery) × 16 + hall. -/
structure Bay where
  kind : BayKind
  addr : Nat
  mask : BitVec 16
  seq : Nat
  ord : Nat
  slot : BitVec 12
  pclass : Nat
  key : Nat
  reloc : Bool
  body : Body
  deriving DecidableEq, Repr

/-- What a position holds: a bay, or a page that is neither erased nor decodable. A position with no entry is
erased. -/
inductive Cell where
  | bay (b : Bay)
  | torn
  deriving DecidableEq, Repr

/-- Where a logical bay lies in a view (R419): nowhere, zeroed by DISCARD.Z, or at a position. -/
inductive Loc where
  | none | zeroed | at (key : Nat)
  deriving DecidableEq, Repr

/-- A map entry (R419). -/
structure MapEntry where
  working : Loc
  landed : Loc
  /-- the DISCARD.H mark -/
  hmark : Bool
  deriving DecidableEq, Repr

/-- A change a command made to the working view and no landing has landed yet, with the sectors its bay marks written
(R264, R292, R373). -/
structure Change where
  ord : Nat
  bay : Nat
  loc : Loc
  mask : BitVec 16
  deriving DecidableEq, Repr

/-- The map, the undo table and the protection map (R122, R123, R419, R420). -/
structure Views where
  /-- the map in DRAM is valid -/
  valid : Bool
  /-- DRAM is in self-refresh behind its canary (R39, R163) -/
  selfRefresh : Bool
  map : KV MapEntry
  /-- the landed location before the last landed flight, of each bay that flight changed -/
  undo : KV Loc
  changes : List Change
  /-- regions 0 to prot - 1 are protected -/
  prot : Nat
  deriving DecidableEq, Repr

/-- One bay a read needs: nothing (zeros), or a position; and what has come of it. -/
inductive Source where
  | zero
  | at (key : Nat)
  deriving DecidableEq, Repr

/-- What has come of a bay a command reads. -/
inductive Fetched where
  | waiting
  | got (b : Bay)
  | lost
  deriving DecidableEq, Repr

/-- A bay a command reads: its number, where its view has it, what came of it, and for VERIFY whether its stricter
read failed. -/
structure Piece where
  bay : Nat
  src : Source
  val : Fetched
  weak : Bool
  deriving DecidableEq, Repr

/-- A READ, VERIFY or stream segment at work. -/
structure ReadWork where
  sector : Nat
  count : Nat
  view : Bool
  pieces : List Piece
  deriving DecidableEq, Repr

/-- A READ STREAM at work (R274). -/
structure StreamWork where
  view : Bool
  /-- first sector of the segment being read, and the sector after the stream's last -/
  next : Nat
  stop : Nat
  /-- segments sent -/
  sent : Nat
  zeros : Bool
  cur : ReadWork
  deriving DecidableEq, Repr

/-- A data lane-frame received for a transfer. -/
structure RxData where
  lane : Nat
  index : Nat
  payload : List Byte
  deriving DecidableEq, Repr

/-- An H2C transfer: its length, the data frames received in their order, trailers by lane, lanes counted failed with the
cause first detected (R195). -/
structure Xfer where
  bytes : Nat
  frames : List RxData
  trailers : KV Trailer
  failed : BitVec 4
  cause : Option Byte
  deriving DecidableEq, Repr

/-- A bay a WRITE or DISCARD.Z programs: its number (none for the DISCARD bay), the position of its newest copy,
whether that is programmed. -/
structure BayWork where
  bay : Option Nat
  key : Nat
  done : Bool
  deriving DecidableEq, Repr

/-- How far a WRITE or DISCARD.Z is (R430). -/
inductive WriteStage where
  /-- waits for credit, erased bays and GO -/
  | waitGo
  /-- GO sent, H2C transfer in progress -/
  | data
  /-- data checked (or none needed); waits for merge reads or for an earlier command -/
  | merging
  /-- its bays are assigned and programming -/
  | programming
  /-- a LAND-AFTER WRITE whose landing is in progress -/
  | landing
  /-- a LAND-AFTER WRITE whose landing has ended, with its info byte 3: its inline reclaim goes on (R295, R453) -/
  | landed (info : Nat)
  deriving DecidableEq, Repr

/-- A WRITE or DISCARD.Z at work (R283 to R301). -/
structure WriteWork where
  discard : Bool
  sector : Nat
  count : Nat
  ord : Nat
  /-- order of its frame's end (R291, R522) -/
  order : Nat
  landAfter : Option Flight
  stage : WriteStage
  /-- credit held, in bays (R283, R429) -/
  credit : Nat
  /-- an earlier outstanding command shares a bay (R289) -/
  delayed : Bool
  mergesIssued : Bool
  merges : List Piece
  xfer : Option Xfer
  data : List Byte
  bays : List BayWork
  /-- its inline reclaim (R452): wings being erased, relocations outstanding, bays still to be relocated, and wings its
  relocations emptied that are still to be erased -/
  inlineErases : List Nat
  inlineMoves : Nat
  inlineDue : Nat
  inlineEmpty : List Nat
  /-- its inline reclaim has begun -/
  inlined : Bool
  /-- the bays of its own are programmed and applied (R265) -/
  applied : Bool
  deriving DecidableEq, Repr

/-- An outstanding command's work. -/
inductive Cmd where
  | read (w : ReadWork)
  | stream (w : StreamWork)
  | verify (w : ReadWork)
  | write (w : WriteWork)
  /-- a WRITE that an HCLK absence has ended, its LANE-CHECK owed (R38, R220) -/
  | cut (w : WriteWork)
  /-- a LAND or ROLLBACK held or in progress -/
  | timed
  /-- a MOUNT: whether it came from CLOSED -/
  | mount (fromClosed : Bool)
  | close
  /-- a field INQUIRE that waits for the hold on C2H lane 0 to end (R327) -/
  | inquire (page : Nat)
  /-- FORMAT, SANITIZE, ALCOVE LOAD or ALCOVE SWAP -/
  | dockOp
  deriving DecidableEq, Repr

/-- Outstanding, or completed with its stored status and info (R245, R246). -/
inductive TagState where
  | outstanding (c : Cmd)
  | completed (status : Status) (info : BitVec 24)
  deriving DecidableEq, Repr

/-- An entry of the tag table (R245). -/
structure TagEntry where
  port : Port
  issue : Bool
  opcode : Byte
  sector : BitVec 32
  count : BitVec 10
  arg : BitVec 32
  flags : Byte
  crcx : Option (BitVec 32)
  state : TagState
  deriving DecidableEq, Repr

/-- The command ports (R228, R240, R245). -/
structure Ports where
  alignedCi : Bool
  alignedDci : Bool
  seqCo : Byte
  seqDco : Byte
  tags : KV TagEntry
  /-- frames of accepted commands so far: the order of frame ends -/
  order : Nat
  deriving DecidableEq, Repr

/-- Who scheduled a LAND or ROLLBACK, or what executed it: a SYNC message with this sequence byte, or a command. -/
inductive ActSrc where
  | sync (seq : Byte)
  | cmd (tag : Tag)
  | landAfter (tag : Tag)
  | close (tag : Tag)
  deriving DecidableEq, Repr

/-- A held LAND or ROLLBACK (R315). -/
structure Held where
  rollback : Bool
  tread : Tread
  flight : Flight
  src : ActSrc
  deriving DecidableEq, Repr

/-- A held MARK (R357), with its message's sequence byte. -/
structure HeldMark where
  seq : Byte
  tread : Tread
  value : BitVec 32
  deriving DecidableEq, Repr

/-- How far a landing or rollback in progress is (R379, R386). -/
inductive ActStage where
  /-- step 2: commands of the range still at work -/
  | waiting
  /-- step 3: FILLER, PARITY and DISCARD bays still programming -/
  | completing
  /-- step 4: its LANDING or ROLLBACK bay has this position, its program not issued yet -/
  | assigned (key : Nat)
  /-- its bay's program is issued at this position -/
  | issued (key : Nat)
  deriving DecidableEq, Repr

/-- A landing or rollback in progress (R385). -/
structure Action where
  rollback : Bool
  flight : Flight
  exec : Tread
  late : Nat
  src : ActSrc
  /-- the ordinal it closed and the one it opened -/
  closed : Nat
  opened : Nat
  stage : ActStage
  /-- the ticks at its execution, from which its cycles are counted (R380) -/
  begun : Nat
  /-- the sequence of its bay, once that has a position; and whether a program of it has failed (R382, R395) -/
  bay : Option Nat
  failed : Bool
  deriving DecidableEq, Repr

/-- A completed landing (R376, R387). -/
structure Landed where
  flight : Flight
  tread : Tread
  prev : Flight
  first : Nat
  last : Nat
  seq : Nat
  digest : BitVec 64
  slot : BitVec 12
  deriving DecidableEq, Repr

/-- A write record not yet landed, with the ordinal and order of its command (R521, R522). -/
structure WriteRec where
  ord : Nat
  order : Nat
  bytes : List Byte
  deriving DecidableEq, Repr

/-- An entry of the digest history (R525). -/
structure Digest where
  flight : Flight
  digest : BitVec 64
  prev : Flight
  deriving DecidableEq, Repr

/-- Flights, landings and what is scheduled (chapter 11, R315, R357). -/
structure Flights where
  /-- the open flight's ordinal, and the lowest never used (R371) -/
  openOrd : Nat
  nextOrd : Nat
  base : Nat
  last : Option Landed
  /-- the landing that established P (R394) -/
  before : Option Landed
  /-- the last landing may be rolled back (R396) -/
  canRoll : Bool
  held : Option Held
  marks : List HeldMark
  /-- MARKs whose tread has come and whose bay has no position yet, with their ordinals (R357, R370) -/
  due : List (HeldMark × Nat)
  acts : List Action
  records : List WriteRec
  /-- bays assigned in unlanded flights whose commands ended other than OK, with their ordinals (R222, R287) -/
  absent : List (Nat × Nat)
  /-- sequence the next LANDING or ROLLBACK bay names as voided, or 0 (R382, R395) -/
  voided : Nat
  digest : BitVec 64
  history : List Digest
  /-- M (R170) -/
  moved : Bool
  deriving DecidableEq, Repr

/-- A wing's state (R421). -/
inductive WingState where
  | free | waiting | erasing | opened | closed
  deriving DecidableEq, Repr

/-- Per-wing state (R421, R446, R470). The missing hall of a narrow wing is in the effective wing table. -/
structure Wing where
  state : WingState
  closeSeq : Nat
  cls : Nat
  reads : Nat
  /-- refresh due, with the order of the mark -/
  mark : Option Nat
  visited : Bool
  short : Bool
  /-- when it came to await erase (R444) -/
  waitOrder : Nat
  deriving DecidableEq, Repr

/-- A gallery being assigned or programmed (R405 to R411). -/
structure Gallery where
  g : Nat
  /-- missing halls (R405), and of them the abandoned positions (R477, R508) -/
  missing : List Nat
  lost : List Nat
  /-- halls of data positions assigned, and of those programmed -/
  taken : List Nat
  done : List Nat
  parityIssued : Bool
  deriving DecidableEq, Repr

/-- An open wing (R412): its galleries from the one being programmed to the one being assigned. A wing opened
for a static-levelling move stands outside the round robin (R604). -/
structure OpenWing where
  wing : Nat
  gals : List Gallery
  move : Bool
  short : Bool
  /-- positions whose program failed, with the sequence of the bay (R418) -/
  failed : List (Nat × Nat)
  /-- halls it takes no further bay in: a die fenced while the wing was open (R512) -/
  barred : List Nat
  /-- it was open before the mount and its last gallery is not yet completed (R155) -/
  stale : Bool
  /-- its summary's program failed or was aborted: it has none (R608) -/
  noSummary : Bool
  deriving DecidableEq, Repr

/-- An image that awaits a position: its old position, the cause of the re-drive as EV-21 codes it, and whether it is a copy
of a bay that was programmed in a gallery without parity (R428, R609). -/
structure Homeless where
  key : Nat
  cause : Nat
  copy : Bool
  deriving DecidableEq, Repr

/-- The flash and what the card knows of it. -/
structure Media where
  cells : KV Cell
  /-- the next bay sequence number (R415) -/
  seq : Nat
  wings : KV Wing
  opens : List OpenWing
  /-- the wing that took the previous position (R604) -/
  lastWing : Option Nat
  /-- images held in the vestibule (R427) -/
  vest : KV Bay
  /-- images that await a position to be re-driven to (R428) -/
  homeless : List Homeless
  /-- positions whose bay has since been copied to another, which the card uses instead (R428, R447) -/
  superseded : KV Unit
  /-- write pointers where not 0, keyed as block classes (R436) -/
  pointers : KV Nat
  /-- block classes, keyed (16 × hall + die) × 2784 + block (R457) -/
  blockClass : KV Nat
  /-- blocks a program has been measured on since their last erase (R457) -/
  measured : KV Unit
  /-- positions whose DATA bay draws on the reserve: merged bays of DISCARD.Z and relocated copies (R442) -/
  drawn : KV Unit
  /-- the classes of a die's last programs, newest first (R457) -/
  dieClasses : KV (List Nat)
  /-- the class of a die row's unlisted (free erased) wings, where not 0 (R458) -/
  rowClass : KV Nat
  /-- the next order number of refresh marks and of wings awaiting erase -/
  clock : Nat
  deriving DecidableEq, Repr

/-- A descriptor (R434). The image of a PROGRAM is in the vestibule under the same key. -/
inductive Desc where
  | read (job key : Nat) (margin : Bool) (mask : BitVec 16) (shift : Nat)
  | program (key : Nat)
  | erase (wing hall : Nat)
  | suspend (die : Nat)
  | resume (die : Nat)
  | resetDie (die : Nat)
  | heat (die : Nat)
  deriving DecidableEq, Repr

/-- What a die has finished while HCLK is absent, before the card sees it (R15, R24). -/
inductive DieReport where
  | prog (r : ProgReport)
  | read (r : ReadReport)
  | erase (ok : Bool)
  | suspended
  deriving DecidableEq, Repr

/-- Whose erase it is (R29, R605). -/
inductive EraseOwner where
  | window
  | inline (tag : Tag)
  deriving DecidableEq, Repr

/-- An erase on a die (R439). -/
inductive EraseStage where
  | running | suspending | suspended
  deriving DecidableEq, Repr

/-- The erase a die holds (R605). -/
structure DieErase where
  wing : Nat
  owner : EraseOwner
  stage : EraseStage
  deriving DecidableEq, Repr

/-- How far a die's anneal is (R462). `hot`: the anneal has been cut short and the junction has not been read below 80 °C
since (R463 to R465). -/
inductive HeatStage where
  | cold | heating | cooling | hot
  deriving DecidableEq, Repr

/-- A die: the READ or PROGRAM it executes, its erase, hangs since the last MOUNT, FORMAT, SANITIZE or power-up,
whether it is fenced (R511), its anneal, and what it finished during an HCLK absence. -/
structure Die where
  op : Option Desc
  erase : Option DieErase
  hangs : Nat
  fenced : Bool
  heat : HeatStage
  late : Option DieReport
  deriving DecidableEq, Repr

/-- A hall in reset (R508): the die that hung, the descriptors to issue again, and the programs to re-drive. -/
structure HallReset where
  hung : Nat
  again : List Desc
  redrive : List Nat
  deriving DecidableEq, Repr

/-- What a read job serves. -/
inductive Purpose where
  | cmd (tag : Tag) (place : Nat)
  | segment (tag : Tag) (place : Nat)
  | verify (tag : Tag) (place : Nat)
  | merge (tag : Tag) (place : Nat)
  | move (id : Nat)
  | patrol
  | completion
  | rebuild (parent : Nat)
  deriving DecidableEq, Repr

/-- The step a read job is at (R280, R486). -/
inductive ReadStage where
  /-- stricter thresholds (MARGIN-READ) -/
  | strict
  /-- steps 1 and 2 -/
  | normal
  /-- step 3, the k-th shifted read -/
  | shifted (k : Nat)
  /-- step 4 -/
  | rebuild
  deriving DecidableEq, Repr

/-- A read of a bay going through the recovery ladder. -/
structure ReadJob where
  key : Nat
  purpose : Purpose
  stage : ReadStage
  /-- codewords no step has recovered yet -/
  left : BitVec 16
  soft : BitVec 16
  weak : Bool
  /-- the highest step any codeword needed, and the codewords beyond step 1 -/
  step : Nat
  beyond : BitVec 16
  /-- rebuild reads outstanding, whether one failed, and the codewords found beyond recovery -/
  kids : Nat
  kidFailed : Bool
  beyondHelp : BitVec 16
  deriving DecidableEq, Repr

/-- Why a bay is relocated. -/
inductive MoveWhy where
  | inline (tag : Tag)
  | reclaim | refresh | staticLevel | patrol
  /-- a bay of a gallery that stays without parity (R609) -/
  | redrive
  deriving DecidableEq, Repr

/-- A relocation (R447): source position and, once programming, the copy's. `ended`: its transaction has ended, and only
its program may still start (R22). -/
structure Move where
  src : Nat
  dst : Option Nat
  why : MoveWhy
  ended : Bool
  deriving DecidableEq, Repr

/-- A wing erase (R438): halls whose block is not yet erased, and whether a block refused. -/
structure WingErase where
  left : List Nat
  failed : Bool
  owner : EraseOwner
  deriving DecidableEq, Repr

/-- Hall queues, dies and the work in them. -/
structure Halls where
  queues : KV (List Desc)
  /-- descriptors held back for a full queue (R433) -/
  back : KV (List Desc)
  dies : KV Die
  resets : KV HallReset
  jobs : KV ReadJob
  moves : KV Move
  erases : KV WingErase
  nextId : Nat
  deriving DecidableEq, Repr

/-- A window (R309, R316, R355): the sequence byte of the SYNC message that scheduled it, 0 where a command did; its start
tread and duration; and, once it runs, the ticks at its start (R368). -/
structure Window where
  seq : Byte
  quiet : Bool
  kinds : BitVec 8
  start : Tread
  duration : Nat
  began : Nat
  deriving DecidableEq, Repr

/-- An anneal in progress (R462). -/
structure Anneal where
  die : Nat
  p0 : Nat
  deriving DecidableEq, Repr

/-- Windows, reclaim, patrol, anneal and heat. -/
structure Maint where
  held : List Window
  /-- the windows running: two only after a load of the counter (R367, R368) -/
  running : List Window
  /-- the inline victim with its valid bays when chosen (R452) -/
  victim : Option (Nat × Nat)
  /-- the wing the reclaim kind is emptying (R450) -/
  emptying : Option Nat
  /-- the static-levelling move: young wing and target (R467) -/
  young : Option (Nat × Nat)
  /-- wings of the patrol pass (R471) -/
  pass : List Nat
  /-- the wing a patrol visit is at, positions not yet read, and whether anything was found (R472, R473) -/
  visit : Option (Nat × Nat × Bool)
  anneals : List Anneal
  annealCount : Nat
  /-- hottest junctions in 0.125 °C: those that count (R465), all, and the controller's -/
  hottest : Int
  hottestAll : Int
  controller : Int
  stage : Nat
  h : Bool
  w : Bool
  worn : Bool
  /-- free erased wings at the last evaluation of the watermarks (R441) -/
  lastFree : Nat
  deriving DecidableEq, Repr

/-- The loss store, the bounds of R506, and the positions found beyond recovery since the map was built (R495, R496). -/
structure Losses where
  store : List Loss
  bounds : List Nat
  gone : KV Unit
  deriving DecidableEq, Repr

/-- A landing that awaits its verdict (R532). -/
structure Verdict where
  flight : Flight
  ended : Bool
  deriving DecidableEq, Repr

/-- A partner's burst: its HELLO's replay bit, where its landing failed how many replayed DIGESTs are still to come,
and the DIGESTs received (R530). -/
structure Burst where
  replay : Bool
  left : Option Nat
  digests : List Digest
  deriving DecidableEq, Repr

/-- The twin link (R532 to R538). -/
structure Twin where
  /-- page 4 byte 1: 0 none, 1 verified, 2 not verified, 3 diverged, 4 unverified -/
  pair : BitVec 8
  linkUp : Bool
  /-- no verdict has been reached since the MOUNT: pair state and link stand as the MOUNT set them (R535) -/
  fresh : Bool
  /-- the serial field of the HELLO last heard, which a MOUNT does not change (R537) -/
  partner : Option (BitVec 32)
  /-- the partner's bursts stored for verdicts, oldest first (R532) -/
  heard : List Burst
  /-- the partner's burst being received -/
  burst : Option Burst
  replayDue : Bool
  waits : List Verdict
  lastCompared : Flight
  firstDiverged : Flight
  deriving DecidableEq, Repr

/-- The two alcoves. -/
inductive AlcoveId where
  | a | b
  deriving DecidableEq, Repr

/-- A configuration record copy (R550). The key is held as what its wrapping unwraps to (log entry 8). Wing-table
entries (16w + h) that are not listed are the design's own: block w mod 2,730. -/
structure Record where
  generation : Nat
  /-- the void word has been programmed -/
  void : Bool
  epoch : Nat
  profile : Option (BitVec 4)
  p : Nat
  key : Option (BitVec 512)
  capacity : Nat
  serial : List Byte
  /-- shipped spare pool by die 16h + d; unlisted: 54 -/
  spares : KV Nat
  /-- retired blocks, keyed (16h + d) × 2784 + block -/
  retired : KV Unit
  table : KV (Option Nat)
  deriving DecidableEq, Repr

/-- A record slot: erased, neither erased nor valid, or a valid copy, whose bytes are those of `Record.image` (R550, R551;
log entry 95). -/
inductive RecSlot where
  | erased
  | broken
  | copy (r : Record)
  deriving DecidableEq, Repr

/-- Causes of a ledger entry (R476, R554). -/
inductive LedgerCause where
  | program | erase | anneal | protection
  deriving DecidableEq, Repr

/-- A ledger entry (R554). -/
structure LedgerEntry where
  hall : Nat
  die : Nat
  block : Nat
  replacement : Option Nat
  cause : LedgerCause
  seq : Nat
  epoch : Nat
  protect : Nat
  deriving DecidableEq, Repr

/-- A ledger cell that is not erased: valid, its bytes those of `LedgerEntry.image`, or not (R554). -/
inductive LedgerCell where
  | broken
  | entry (e : LedgerEntry)
  deriving DecidableEq, Repr

/-- An operation on the alcove device (R543). -/
inductive AlcoveOp where
  | voidWord (id : AlcoveId) (slot : Bool)
  | eraseSlot (id : AlcoveId) (slot : Bool)
  | programRecord (id : AlcoveId) (slot : Bool) (r : Record)
  | eraseHead (id : AlcoveId) (slot : Bool)
  | eraseLedger (id : AlcoveId)
  | append (id : AlcoveId) (index : Nat) (e : LedgerEntry)
  | eraseSector (id : AlcoveId) (offset : Nat)
  | programBytes (id : AlcoveId) (offset : Nat) (bytes : List Byte)
  | programSeq (id : AlcoveId) (seq : BitVec 32)
  deriving DecidableEq, Repr

/-- The dock command at work (R328): which, and its step. -/
inductive Service where
  /-- FORMAT waits for its PRF read (R112) -/
  | formatRead
  /-- FORMAT has voided or is voiding the selected copy (R562) and erases the wing table's blocks and two record
  slots: blocks already erased of each die, whether all are -/
  | formatErase (progress : KV Nat) (mediaDone : Bool)
  /-- a die has been fenced under FORMAT's erases: that die, the blocks already erased of each, and the dies whose erase still
  runs (R610) -/
  | formatFenced (die : Nat) (progress : KV Nat) (running : List Nat)
  /-- FORMAT writes the record `r`: the first copy that has read back valid -/
  | formatRecord (good : Option (AlcoveId × Bool)) (r : Record)
  /-- FORMAT erases both ledgers, the record read back valid at this place -/
  | formatLedger (place : AlcoveId × Bool) (r : Record)
  /-- SANITIZE voids and writes the record `r` without a profile: the first copy that has read back valid -/
  | sanitizeRecord (good : Option (AlcoveId × Bool)) (r : Record)
  /-- SANITIZE erases every block: blocks already erased of each die, and the blocks that refused so far -/
  | sanitizeErase (progress : KV Nat) (refused : List BlockRef)
  /-- ALCOVE LOAD erases and programs, then compares -/
  | load (id : AlcoveId) (offset : Nat) (payload : List Byte)
  /-- ALCOVE SWAP waits for the device to be idle before it reads the target (R543) -/
  | swapCheck
  /-- ALCOVE SWAP appends its protection entry and programs the sequence field -/
  | swap (id : AlcoveId) (seq : BitVec 32)
  deriving DecidableEq, Repr

/-- The DRAM copy of the configuration and ledger, from which the card runs (R542, R551, R556, R557). -/
structure Conf where
  /-- the selected copy: alcove and slot (false: 0, true: 1); none: the shipped record (R602) -/
  selected : Option (AlcoveId × Bool)
  record : Record
  /-- p of R557 -/
  p : Nat
  /-- the key in the XTS engine (R553) -/
  key : Option (BitVec 512)
  /-- the effective wing table where it differs from the design's (R404) -/
  table : KV (Option Nat)
  /-- retired blocks, the record's and the ledger's -/
  retired : KV Unit
  /-- the slot of alcove A and of B that does not hold the selected generation (R563, R565) -/
  freeA : Bool
  freeB : Bool
  /-- the ledger by index, none where an index holds no valid entry (R542, R555, R556) -/
  ledger : KV (Option LedgerEntry)
  /-- retirements in no ledger, because no index was left (R555) -/
  unlogged : Nat
  deriving DecidableEq, Repr

/-- The alcove device and the loader. -/
structure Alcove where
  memA : Mem
  memB : Mem
  a0 : RecSlot
  a1 : RecSlot
  b0 : RecSlot
  b1 : RecSlot
  ledgerA : KV LedgerCell
  ledgerB : KV LedgerCell
  /-- the factory area's shipped record, which nothing changes (R544, R602) -/
  shipped : RecSlot
  inUse : Option AlcoveId
  seqInUse : BitVec 32
  version : BitVec 32
  /-- the on-chip copy of the microcode and the media tables, at their offsets (R542) -/
  chip : Mem
  /-- the alcove being copied, and whether it is the second one tried (R549) -/
  trying : Option (AlcoveId × Bool)
  ops : List AlcoveOp
  conf : Option Conf
  /-- the dock command at work with its tag (R328) -/
  service : Option (Tag × Service)
  deriving DecidableEq, Repr

/-- A Balcony record before it is sent: type, stamp, payload (R571). -/
structure BalRec where
  type : Byte
  stamp : BitVec 32
  payload : List Byte
  deriving DecidableEq, Repr

/-- The Balcony (R572 to R585). -/
structure Balcony where
  seq : BitVec 16
  queue : List BalRec
  counts : KV Nat
  dropped : Nat
  dropStamp : BitVec 32
  /-- the next slot of the period, or none before a period has begun -/
  slot : Option Nat
  /-- the stream is to start with a record of cause 0x02 (R582) -/
  startDue : Bool
  deriving DecidableEq, Repr

/-- A response or notice as the card builds it (R235): kind, tag or notice code, status, flags, info bytes 3-5
little-endian, response sequence. -/
structure Resp where
  kind : BitVec 2
  code : BitVec 6
  status : Status
  flags : Byte
  info : BitVec 24
  seq : Byte
  deriving DecidableEq, Repr

/-- A C2H transfer (R188 to R193). `seed`: lane k's scrambler starts it at the free value of `seed + k` (R177; log
entry 71). -/
structure C2h where
  tag : Tag
  issue : Bool
  lanes : Nat
  bytes : List Byte
  seed : Nat
  deriving DecidableEq, Repr

/-- What the card sends. -/
inductive Out where
  | resp (port : Port) (r : Resp)
  /-- an extended response on DCO with its payload (R256) -/
  | ext (r : Resp) (payload : List Byte)
  | c2h (x : C2h)
  /-- an alignment marker with this count on C2H lanes 0 to n - 1 (R183), less lane 0 while it is held low (R211) -/
  | marker (n : Nat) (count : BitVec 16)
  /-- training frames on C2H lanes 0 to c - 1, retrain requested or not (R201, R217, R218) -/
  | training (c : Nat) (retrain : Bool)
  /-- C2H lane 0 begins to be held low (R211) -/
  | holdLow
  /-- the resync pattern on C2H lane 0 (R214, R215) -/
  | resync
  | balcony (seq : BitVec 16) (r : BalRec)
  /-- a burst on TWO: its messages (R526, R530) -/
  | twin (messages : List (List Byte))
  deriving DecidableEq, Repr

/-- The card. -/
structure Card where
  phase : Phase
  power : Power
  straps : Straps
  treads : Treads
  link : Link
  ports : Ports
  flights : Flights
  views : Views
  media : Media
  halls : Halls
  maint : Maint
  losses : Losses
  twin : Twin
  alcove : Alcove
  bal : Balcony
  /-- everything sent, newest first (log entry 23) -/
  out : List Out
  /-- the counter free values are taken at (log entry 16) -/
  freeCount : Nat
  deriving DecidableEq, Repr

/-- The card and the commands that wait for it, first in first out. -/
structure State where
  card : Card
  pending : List Instr
  deriving DecidableEq, Repr

/-- Why the machine stops: it never does. No constructor: every command has a next state in every state, and nobody raises
a fault. -/
inductive Fault where
  deriving DecidableEq, Repr

/-- Why a command has no meaning. -/
inductive Refusal where
  /-- The arm of this mnemonic is not modelled. Raised by `exec` alone. Safe: the machine stops. -/
  | notModelled (mnemonic : String)
  deriving DecidableEq, Repr

/-- A strap contact before its first read (log entry 4). -/
def StrapVal.unread : StrapVal := { level := 0, mv := 0, unstable := false }

/-- The straps before their first read. -/
def StrapSet.unread : StrapSet :=
  { prf := .unread, wpw := .unread, adh := .unread, adm := .unread, adl := .unread, twn := .unread, lns := .unread }

/-- The shipped record (R602): generation 0, epoch 0, no profile; log entry 6 for what the factory chooses. -/
def Record.factory : Record :=
  { generation := 0, void := false, epoch := 0, profile := none, p := 0, key := none, capacity := 0,
    serial := [0x5A, 0x4B, 0x30, 0x30, 0x30, 0x30, 0x30, 0x30, 0x30, 0x30, 0x30, 0x30, 0x30, 0x30, 0x30, 0x31],
    spares := [], retired := [], table := [] }

/-- Header and microcode of a loadable alcove with sequence number 1 (log entry 5): magic, sequence and
complement, layout 1, microcode of one byte 0x00, media tables of one byte 0x00, version 1. -/
def Mem.shippedAlcove : Mem :=
  [(0, 0x5A), (1, 0x4B), (2, 0x41), (3, 0x4C), (4, 0x43), (5, 0x4F), (6, 0x56), (7, 0x45),
   (8, 0x01), (9, 0x00), (10, 0x00), (11, 0x00), (12, 0xFE),
   (16, 0x01), (17, 0x00), (18, 0x00), (19, 0x00), (20, 0x01), (21, 0x00), (22, 0x00), (23, 0x00),
   (24, 0x8D), (25, 0xEF), (26, 0x02), (27, 0xD2), (28, 0x01), (29, 0x00), (30, 0x00), (31, 0x00),
   (32, 0x8D), (33, 0xEF), (34, 0x02), (35, 0xD2), (36, 0x00), (37, 0x00), (38, 0x00), (39, 0x00),
   (40, 0x01), (41, 0x00), (42, 0x00), (43, 0x00), (44, 0x00), (45, 0x00), (46, 0x00), (47, 0x00),
   (48, 0x00), (49, 0x00), (50, 0x00), (51, 0x00), (52, 0x00), (53, 0x00), (54, 0x00), (55, 0x00),
   (56, 0x00), (57, 0x00), (58, 0x00), (59, 0x00), (60, 0xF2), (61, 0x3F), (62, 0x8E), (63, 0x14),
   (0x10000, 0x00), (0x410000, 0x00)]

/-- The card right after reset: out of its socket or unpowered, ABSENT, nothing in DRAM, flash erased. -/
def Card.reset : Card :=
  { phase := .absent
    power := { pdcLow := false, softStarting := false, broken := false, vmLow := false, hclk := true,
               hclkTripped := false, strapSources := false, dock := false, lnd := false }
    straps := { vals := .unread, lastRead := none, slot := 0, group := 0, mountSlot := 0, closedSlot := 0,
                role := .solo, roleRefused := false, twn := 0, lns := 0, reading := none }
    treads := { c := 0, taking := none, ticks := 0, rx := { idle := 0, char := none, msg := none, since := 0 },
                lastMsg := none, checkDiff := 0 }
    link := { mode := .down, lanes := 0, trained := 0, preset0 := 0, preset1 := 0, preset2 := 0, preset3 := 0,
              reqSeq := none, reqResult := .none, retrainReq := false, margins := [], txMarker := 0,
              rxMarkers := [], badWords := [], rxScramble := [], lastBad := 0, holdDue := false, hold := false,
              hostTrains := false, holdCause := none, owed := [] }
    ports := { alignedCi := true, alignedDci := true, seqCo := 0, seqDco := 0, tags := [], order := 0 }
    flights := { openOrd := 0, nextOrd := 1, base := 0, last := none, before := none, canRoll := false,
                 held := none, marks := [], due := [], acts := [], records := [], absent := [], voided := 0, digest := 0,
                 history := [], moved := false }
    views := { valid := false, selfRefresh := false, map := [], undo := [], changes := [], prot := 0 }
    media := { cells := [], seq := 1, wings := [], opens := [], lastWing := none, vest := [], homeless := [],
               superseded := [], pointers := [], blockClass := [], measured := [], drawn := [], dieClasses := [], rowClass := [], clock := 0 }
    halls := { queues := [], back := [], dies := [], resets := [], jobs := [], moves := [], erases := [],
               nextId := 0 }
    maint := { held := [], running := [], victim := none, emptying := none, young := none, pass := [], visit := none,
               anneals := [], annealCount := 0, hottest := 200, hottestAll := 200, controller := 200,
               stage := 0, h := false, w := false, worn := false, lastFree := 96 }
    losses := { store := [], bounds := [], gone := [] }
    twin := { pair := 0, linkUp := false, fresh := false, partner := none, heard := [], burst := none, replayDue := false,
              waits := [], lastCompared := 0, firstDiverged := 0 }
    alcove := { memA := .shippedAlcove, memB := [], a0 := .erased, a1 := .erased, b0 := .erased, b1 := .erased,
                ledgerA := [], ledgerB := [], shipped := .copy .factory, inUse := none,
                seqInUse := 0, version := 0, chip := [], trying := none, ops := [], conf := none, service := none }
    bal := { seq := 0, queue := [], counts := [], dropped := 0, dropStamp := 0, slot := none, startDue := false }
    out := []
    freeCount := 0 }

/-- The machine right after reset: the card as above, no command waiting. -/
def State.reset : State := { card := Card.reset, pending := [] }

end Sys2Proof.Machine
end

