-- ==== Sys2Proof/Machine/Layout.lean ====
section
/-! DEFINITION. Geometry, parity and summary placement, capacity classes, codes of enumerations, and the counts
the card derives from its state (R118, R136, R400, R403 to R407, R413, R441). -/

namespace Sys2Proof.Machine

open Sys2Proof

/-- The number of position (wing, gallery, hall) (R403). -/
def posKey (w g h : Nat) : Nat := (w * 384 + g) * 16 + h
/-- A position's wing. -/
def keyWing (k : Nat) : Nat := k / 6144
/-- A position's gallery. -/
def keyGallery (k : Nat) : Nat := k / 16 % 384
/-- A position's hall. -/
def keyHall (k : Nat) : Nat := k % 16
/-- The die row a wing lies in: the die's index in each hall (R403). -/
def dieRow (w : Nat) : Nat := w / Config.wingSlots
/-- Die number 16 × hall + die. -/
def dieNo (h d : Nat) : Nat := 16 * h + d
/-- The die number a position lies on. -/
def keyDie (k : Nat) : Nat := dieNo (keyHall k) (dieRow (keyWing k))
/-- Key of a block: die number × 2,784 + block. -/
def blockKey (h d b : Nat) : Nat := dieNo h d * Config.blocksPerDie + b

/-- The halls, in order. -/
def allHalls : List Nat := List.range 16

/-- The first of `n` halls from `h` upward, wrapping, that is not missing (R405). -/
def firstHall (missing : List Nat) (n h : Nat) : Nat :=
  match n with
  | 0 => h % 16
  | k + 1 => if missing.contains (h % 16) then firstHall missing k (h + 1) else h % 16

/-- The hall of a gallery's parity bay (R405). -/
def parityHall (g : Nat) (missing : List Nat) : Nat := firstHall missing 16 (g % 16)

/-- The halls of a gallery's data positions, ascending (R406). -/
def dataHalls (g : Nat) (missing : List Nat) : List Nat :=
  allHalls.filter (fun h => !missing.contains h && h != parityHall g missing)

/-- The hall of the summary bay in gallery 383 (R407). -/
def summaryHall (missing : List Nat) : Nat := (dataHalls 383 missing).getLastD 0

/-- The data positions bays are assigned to: all, less the summary's in the last gallery (R411). -/
def userHalls (g : Nat) (missing : List Nat) : List Nat :=
  if g = 383 then (dataHalls g missing).dropLast else dataHalls g missing

/-- State codes (R136). -/
def Phase.code : Phase → Nat
  | .absent => 0 | .poweredUnclocked => 1 | .loading => 2 | .linkTraining => 3 | .readyUnmounted => 4
  | .mounting => 5 | .mounted => 6 | .closed => 7 | .fault => 8

/-- Kind codes of bays (R413). -/
def BayKind.code : BayKind → BitVec 4
  | .data => 1 | .summary => 2 | .landing => 3 | .rollback => 4 | .discard => 5 | .mark => 6 | .parity => 7
  | .filler => 8

/-- Source codes of losses (R497). -/
def LossSource.code : LossSource → Nat
  | .read => 1 | .service => 2 | .merge => 3 | .scan => 4 | .completion => 5

/-- Cause codes of ledger entries (R554). -/
def LedgerCause.code : LedgerCause → Nat
  | .program => 1 | .erase => 2 | .anneal => 3 | .protection => 4

/-- Page 5 byte 56 coding (R325). -/
def ReadKind.code : ReadKind → Nat
  | .powerUp => 1 | .mount => 2 | .format => 3

/-- Alcove codes of page 0 and EV-40. -/
def AlcoveId.code : AlcoveId → Nat
  | .a => 0x0A | .b => 0x0B

/-- The other alcove. -/
def AlcoveId.other : AlcoveId → AlcoveId
  | .a => .b | .b => .a

/-- Window codes of page 2 byte 48 and EV-17. -/
def Window.code (w : Window) : Nat :=
  if w.quiet then 3 else if w.kinds.getLsbD 7 then 2 else 1

/-- A window's end tread (R368). -/
def Window.stop (w : Window) : Tread := w.start + BitVec.ofNat 48 w.duration

/-- User bays of a profile's capacity class (R118). -/
def classBays (profile : BitVec 4) : Nat :=
  match (profile >>> 2).toNat with
  | 0 => 220200960
  | 1 => 203423744
  | _ => 171966464

/-- A level that is a profile (R118). -/
def isProfile (l : BitVec 4) : Bool := decide (l.toNat < 12)
/-- Once mode: level bit 1 (R118). -/
def onceMode (l : BitVec 4) : Bool := l.getLsbD 1
/-- Encryption on: level bit 0 clear (R118). -/
def encrypts (l : BitVec 4) : Bool := !l.getLsbD 0

/-- A wing with no entry: free and erased, never read, of the class its die row gives (R458). -/
def Wing.fresh (cls : Nat) : Wing :=
  { state := .free, closeSeq := 0, cls := cls, reads := 0, mark := none, visited := false, short := false,
    waitOrder := 0 }

/-- A die with no entry: idle. -/
def Die.idle : Die := { op := none, erase := none, hangs := 0, fenced := false, heat := .cold, late := none }

/-- Per-wing state. -/
def Card.wing (c : Card) (w : Nat) : Wing :=
  KV.getD c.media.wings w (.fresh (KV.getD c.media.rowClass (dieRow w) 0))
/-- A die. -/
def Card.die (c : Card) (n : Nat) : Die := KV.getD c.halls.dies n .idle

/-- Replace a wing's state. -/
def Card.setWing (c : Card) (w : Nat) (v : Wing) : Card :=
  { c with media := { c.media with wings := KV.put c.media.wings w v } }
/-- Replace a die. -/
def Card.setDie (c : Card) (n : Nat) (v : Die) : Card :=
  { c with halls := { c.halls with dies := KV.put c.halls.dies n v } }

/-- Listed wings of which `p` holds. -/
def Card.countWings (c : Card) (p : Wing → Bool) : Nat := (c.media.wings.filter (fun x => p x.2)).length

/-- The wings that the effective wing table shows without a block in some hall, once for each such hall (R404). -/
def Card.lostHalls (c : Card) : List (Nat × Nat) :=
  match c.alcove.conf with
  | some f => f.table.filterMap (fun x => if x.2.isNone then some (x.1 / 16, x.1 % 16) else none)
  | none => []

/-- The halls a wing lacks (R404). -/
def Card.missingOf (c : Card) (w : Nat) : List Nat :=
  (c.lostHalls.filter (fun x => x.1 == w)).map Prod.snd

/-- A wing that has lost exactly one hall (R479). -/
def Card.isNarrow (c : Card) (w : Nat) : Bool := (c.missingOf w).length == 1
/-- A wing that has lost two halls or more: never opened again (R479). -/
def Card.isWithdrawn (c : Card) (w : Nat) : Bool := decide (2 ≤ (c.missingOf w).length)

/-- The narrow wings. -/
def Card.narrowWings (c : Card) : List Nat := (c.lostHalls.map Prod.fst).dedup.filter c.isNarrow
/-- The withdrawn wings. -/
def Card.withdrawnWings (c : Card) : List Nat := (c.lostHalls.map Prod.fst).dedup.filter c.isWithdrawn

/-- Free erased wings: all but those with another state and the withdrawn ones (R441, R479). -/
def Card.freeErased (c : Card) : Nat :=
  Config.wings - c.countWings (fun w => w.state != .free) -
    (c.withdrawnWings.filter (fun w => (c.wing w).state == .free)).length
/-- Wings free awaiting erase; one that is being erased is not among them (R30, R421). -/
def Card.waitingErase (c : Card) : Nat :=
  (c.media.wings.filter (fun x => x.2.state == .waiting && !c.isWithdrawn x.1)).length

/-- The halls whose die in a row is fenced (R511). -/
def Card.fencedHalls (c : Card) (row : Nat) : List Nat := allHalls.filter (fun h => (c.die (dieNo h row)).fenced)

/-- A fenced die serves a block of the wing (R470, R512). -/
def Card.onFenced (c : Card) (w : Nat) : Bool := (c.fencedHalls (dieRow w)).any (fun h => !(c.missingOf w).contains h)

/-- The halls missing for the galleries of a wing from now on: its missing halls and its fenced dies (R405, R512). -/
def Card.missingNow (c : Card) (w : Nat) : List Nat := (c.missingOf w ++ c.fencedHalls (dieRow w)).dedup

/-- The halls missing for the galleries of an open wing still to be programmed (R405, R512). -/
def Card.missingFor (c : Card) (o : OpenWing) : List Nat := (c.missingNow o.wing ++ o.barred).dedup

/-- Free erased wings that are narrow and that the card can program. -/
def Card.freeNarrow (c : Card) : Nat :=
  (c.narrowWings.filter (fun w => (c.wing w).state == .free && !c.onFenced w)).length

/-- Free erased wings of a die row that lack no hall. -/
def Card.rowFull (c : Card) (row : Nat) : Nat :=
  Config.wingSlots - (c.media.wings.filter (fun x => dieRow x.1 == row && x.2.state != .free)).length -
    (((c.lostHalls.map Prod.fst).dedup).filter (fun w => dieRow w == row && (c.wing w).state == .free)).length

/-- Free erased wings that lack no hall and that the card can program: those of rows without a fenced die (R512). -/
def Card.freeFull (c : Card) : Nat :=
  (allHalls.map (fun row => if (c.fencedHalls row).isEmpty then c.rowFull row else 0)).sum

/-- Positions left of an open wing, parity included and the summary excluded (R400). -/
def OpenWing.positionsLeft (o : OpenWing) (missing : List Nat) : Nat :=
  if o.short then 0 else
    match o.gals.getLast? with
    | none => 0
    | some g =>
      ((userHalls g.g g.missing).length - g.taken.length) + (if g.parityIssued then 0 else 1) +
        (383 - g.g) * (16 - missing.length) - (if g.g < 383 then 1 else 0)

/-- Data positions left of an open wing for bays. -/
def OpenWing.dataLeft (o : OpenWing) (missing : List Nat) : Nat :=
  if o.short then 0 else
    match o.gals.getLast? with
    | none => 0
    | some g =>
      ((userHalls g.g g.missing).length - g.taken.length) + (383 - g.g) * (15 - missing.length) -
        (if g.g < 383 then 1 else 0)

/-- Erased bays ready (R400): positions of open wings and of free erased wings, less the eight free ones with
the most positions. Positions on fenced dies, and free wings with a block on one, cannot be programmed (R512). -/
def Card.erasedReady (c : Card) : Nat :=
  let narrow := c.freeNarrow
  let full := c.freeFull
  let cutFull := min Config.markRefuse full
  let cutNarrow := min (Config.markRefuse - cutFull) narrow
  (full - cutFull) * Config.readyFull + (narrow - cutNarrow) * Config.readyNarrow +
    (c.media.opens.map (fun o => o.positionsLeft (c.missingFor o))).sum

/-- Data positions user writes can take: those of `erasedReady` less parity, summary and those of a wing opened for a
static-levelling move, which takes that move's bays alone (R283, R442, R604). -/
def Card.userReady (c : Card) : Nat :=
  let narrow := c.freeNarrow
  let full := c.freeFull
  let cutFull := min Config.markRefuse full
  let cutNarrow := min (Config.markRefuse - cutFull) narrow
  (full - cutFull) * Config.dataBaysFull + (narrow - cutNarrow) * Config.dataBaysNarrow +
    ((c.media.opens.filter (fun o => !o.move)).map (fun o => o.dataLeft (c.missingFor o))).sum

/-- The record in force, where LOADING has copied one. -/
def Card.record (c : Card) : Option Record := c.alcove.conf.map Conf.record
/-- The profile in force: that of a selected copy that is not void (R552). -/
def Card.profile (c : Card) : Option (BitVec 4) :=
  match c.alcove.conf with
  | some f => if f.record.void then none else f.record.profile
  | none => none
/-- Formatted capacity in user bays, 0 with no profile. -/
def Card.capacity (c : Card) : Nat := if c.profile.isSome then (c.record.map Record.capacity).getD 0 else 0
/-- Once mode in force. -/
def Card.once (c : Card) : Bool := (c.profile.map onceMode).getD false
/-- The key user data is encrypted under, when the profile encrypts (R120). -/
def Card.dataKey (c : Card) : Option (BitVec 512) :=
  match c.profile, c.alcove.conf with
  | some l, some f => if encrypts l then f.key else none
  | _, _ => none

/-- A level that the strap reserves (R118, R131, R134). -/
def reservedLevel (s : StrapId) (l : BitVec 4) : Bool :=
  match s with
  | .prf => decide (12 ≤ l.toNat ∧ l.toNat ≤ 14)
  | .twn | .lns => decide (3 ≤ l.toNat ∧ l.toNat ≤ 14)
  | _ => false

/-- One contact of a set. -/
def StrapSet.get (s : StrapSet) : StrapId → StrapVal
  | .prf => s.prf | .wpw => s.wpw | .adh => s.adh | .adm => s.adm | .adl => s.adl | .twn => s.twn | .lns => s.lns

/-- Replace one contact of a set. -/
def StrapSet.put (s : StrapSet) (i : StrapId) (v : StrapVal) : StrapSet :=
  match i with
  | .prf => { s with prf := v } | .wpw => { s with wpw := v } | .adh => { s with adh := v }
  | .adm => { s with adm := v } | .adl => { s with adl := v } | .twn => { s with twn := v }
  | .lns => { s with lns := v }

/-- The contacts in the order PRF, WPW, ADH, ADM, ADL, TWN, LNS. -/
def allStraps : List StrapId := [.prf, .wpw, .adh, .adm, .adl, .twn, .lns]

/-- Array SYNC is the timing source: TWN level 0, 1 or 2 (R131). -/
def Card.onSync (c : Card) : Bool := decide (c.straps.twn.toNat ≤ 2)

/-- The lane cap of the latched LNS level (R134). -/
def Card.laneCap (c : Card) : Nat :=
  match c.straps.lns.toNat with
  | 0 => 1
  | 1 => 2
  | 2 => 4
  | 15 => 4
  | _ => 1

/-- A lane count from its code in markers, trailers and READY (R183, R206). -/
def laneCount (code : BitVec 3) : Option Nat :=
  if code = 1 then some 1 else if code = 2 then some 2 else if code = 4 then some 4 else none

/-- The mask of lanes 0 to n - 1. -/
def laneMask (n : Nat) : BitVec 4 := BitVec.ofNat 4 (2 ^ n - 1)

/-- How far tread `t` lies ahead of `c`, modulo 2^48 (R342). -/
def treadAhead (t c : Tread) : Nat := (t - c).toNat
/-- Tread `t` is ahead of `c` or equal to it (R342). -/
def treadNotPast (t c : Tread) : Bool := decide ((t - c).toNat < 2 ^ 47)

/-- Flight `a` is ahead of `b` in 32-bit serial arithmetic (R375). -/
def flightAhead (a b : Flight) : Bool :=
  decide (1 ≤ (a - b).toNat ∧ (a - b).toNat ≤ 2 ^ 31 - 1)

end Sys2Proof.Machine
end

