-- ==== Sys2Proof/Machine/Records.lean ====
section
/-! DEFINITION. The bytes of a configuration record and of a ledger entry on the alcove device, what makes them valid, and the
wrapping of the media key (R547, R550, R551, R553, R554). -/

namespace Sys2Proof.Machine

open Sys2Proof

/-- Eight bytes, the highest first. -/
def beBytes8 (v : Nat) : List Byte := (leBytes 8 v).reverse

/-- One step of the key wrap: the register and block `i` of the key through AES-256; `t` is the step's number (RFC 3394). -/
def wrapStep (ks : List (List Byte)) (x : List Byte × List (List Byte)) (t : Nat) : List Byte × List (List Byte) :=
  let i := (t - 1) % 8
  let b := aesEncrypt ks (x.1 ++ x.2.getD i [])
  (aesXor (b.take 8) (beBytes8 t), x.2.set i (b.drop 8))

/-- A 64-byte key wrapped under a 256-bit key: 72 bytes (R553; RFC 3394). -/
def wrapKey (kek : BitVec 256) (key : BitVec 512) : List Byte :=
  let k := leBytes 64 key.toNat
  let r := ((List.range 48).map (· + 1)).foldl (wrapStep (aesRoundKeys (leBytes 32 kek.toNat)))
    (List.replicate 8 0xA6, (List.range 8).map (fun i => (k.drop (8 * i)).take 8))
  r.1 ++ r.2.flatten

/-- "ZKCR" (R550). -/
def recordMagic : List Byte := [0x5A, 0x4B, 0x43, 0x52]

/-- Bytes 0 to 127 of a record copy: its head (R550). -/
def Record.head (r : Record) : List Byte :=
  recordMagic ++ leBytes 4 r.generation ++ List.replicate 8 (if r.void then 0 else 0xFF) ++ leBytes 4 r.epoch ++
    [match r.profile with | some l => l.setWidth 8 | none => 0xFF, BitVec.ofNat 8 r.p, if r.key.isSome then 1 else 0, 0] ++
    leBytes 4 (if r.profile.isSome then r.capacity else 0) ++
    (match r.key with | some k => wrapKey Config.deviceKey k | none => List.replicate 72 0) ++
    (r.serial ++ List.replicate 16 0x20).take 16 ++ List.replicate 12 0

/-- Byte `i` of the retired-block map (R550). -/
def Record.retiredByte (r : Record) (i : Nat) : Byte :=
  (List.range 8).foldl (fun b k =>
    if (KV.find r.retired (8 * i + k)).isSome then b ||| (1#8 <<< k) else b) 0

/-- The wing table's entry 16w + h: wing w's block in hall h (R550). -/
def Record.tableEntry (r : Record) (e : Nat) : Nat :=
  match KV.find r.table e with
  | some (some b) => b
  | some none => 0xFFFF
  | none => (e / 16) % Config.wingSlots

/-- The bytes of a record copy below its CRC (R550). The retired-block map has 348 bytes for each die, 2,784 bits. -/
def Record.body (r : Record) : List Byte :=
  r.head ++ (List.range 256).flatMap (fun n => leBytes 2 (KV.getD r.spares n 54)) ++
    (List.range (256 * 348)).map r.retiredByte ++
    (List.range (16 * Config.wings)).flatMap (fun e => leBytes 2 (r.tableEntry e))

/-- The CRC of a record copy passes over its void word (R550). -/
def recordCrc (body : List Byte) : BitVec 32 := crc32 (body.take 8 ++ body.drop 16)

/-- A record copy's bytes in its slot (R550; log entry 95). -/
def Record.image (r : Record) : List Byte := r.body ++ leBytes 4 (recordCrc r.body).toNat

/-- Bytes in a slot are a valid record copy: the magic matches and the CRC checks (R551). -/
def recordValid (bs : List Byte) : Bool :=
  decide (bs.take 4 = recordMagic) &&
    decide (leNat (bs.drop (bs.length - 4)) = (recordCrc (bs.take (bs.length - 4))).toNat)

/-- Bytes 0 to 27 of ledger entry `i` (R554). -/
def LedgerEntry.body (e : LedgerEntry) (i : Nat) : List Byte :=
  [BitVec.ofNat 8 (e.hall % 16 + 16 * e.die)] ++ leBytes 2 e.block ++ leBytes 2 (e.replacement.getD 0xFFFF) ++
    [BitVec.ofNat 8 e.cause.code] ++ leBytes 2 i ++ leBytes 8 e.seq ++ leBytes 4 e.epoch ++
    [BitVec.ofNat 8 e.protect] ++ List.replicate 7 0

/-- The 32 bytes of ledger entry `i`, at offset 32i (R554). -/
def LedgerEntry.image (e : LedgerEntry) (i : Nat) : List Byte := e.body i ++ leBytes 4 (crc32 (e.body i)).toNat

/-- Bytes of the ledger are a valid entry: the CRC checks (R554). -/
def ledgerValid (bs : List Byte) : Bool :=
  decide (leNat (bs.drop (bs.length - 4)) = (crc32 (bs.take (bs.length - 4))).toNat)

end Sys2Proof.Machine
end

