-- ==== Sys2Proof/Machine/Flags.lean ====
section
/-! DEFINITION. Status codes, notice codes and the flags byte (R250 to R252). -/

namespace Sys2Proof.Machine

open Sys2Proof

/-- Status codes (R250). -/
def stOk : Status := 0x00
/-- OK-DUPLICATE (R246). -/
def stDuplicate : Status := 0x01
/-- NOT-READY. -/
def stNotReady : Status := 0x10
/-- NOT-MOUNTED. -/
def stNotMounted : Status := 0x11
/-- CLOSED. -/
def stClosed : Status := 0x12
/-- PORT-REFUSED. -/
def stPortRefused : Status := 0x20
/-- PROTECTED. -/
def stProtected : Status := 0x21
/-- RANGE. -/
def stRange : Status := 0x22
/-- ALREADY-WRITTEN. -/
def stAlreadyWritten : Status := 0x23
/-- FULL. -/
def stFull : Status := 0x24
/-- WORN. -/
def stWorn : Status := 0x25
/-- TAG-BUSY. -/
def stTagBusy : Status := 0x26
/-- BAD-FRAME. -/
def stBadFrame : Status := 0x27
/-- PROTOCOL. -/
def stProtocol : Status := 0x28
/-- HOT. -/
def stHot : Status := 0x29
/-- LANE-CHECK. -/
def stLaneCheck : Status := 0x30
/-- LOST. -/
def stLost : Status := 0x31
/-- ABORTED. -/
def stAborted : Status := 0x40
/-- ROLLED-BACK. -/
def stRolledBack : Status := 0x41
/-- FLIGHT-STALE. -/
def stFlightStale : Status := 0x42
/-- TREAD-PAST. -/
def stTreadPast : Status := 0x43
/-- FORMAT-REFUSED. -/
def stFormatRefused : Status := 0x60
/-- ALCOVE-BAD. -/
def stAlcoveBad : Status := 0x61
/-- MEDIA-INCOMPLETE. -/
def stMediaIncomplete : Status := 0x62

/-- Notice codes (R252). -/
def ntLandingFailed : BitVec 6 := 0x01
/-- QUIET-BROKEN. -/
def ntQuietBroken : BitVec 6 := 0x02
/-- TREAD-SLIP. -/
def ntTreadSlip : BitVec 6 := 0x03
/-- SYNC-LATE. -/
def ntSyncLate : BitVec 6 := 0x04
/-- TWIN-DIVERGED. -/
def ntTwinDiverged : BitVec 6 := 0x05
/-- HALL-FENCED. -/
def ntHallFenced : BitVec 6 := 0x06
/-- TREAD-PAST. -/
def ntTreadPast : BitVec 6 := 0x07
/-- ROLLBACK-FAILED. -/
def ntRollbackFailed : BitVec 6 := 0x08

/-- The loss list: the first 256 entries of the store (R499). -/
def Card.lossList (c : Card) : List Loss := c.losses.store.take Config.lossList

/-- P: the loss list holds an entry not yet reported (R251). -/
def Card.flagP (c : Card) : Bool := c.lossList.any (fun e => !e.reported)
/-- S: fewer than 96 free erased wings (R251, R441). -/
def Card.flagS (c : Card) : Bool := decide (c.freeErased < Config.markS)
/-- T: a twin role is taken and the pair is not verified (R251). -/
def Card.flagT (c : Card) : Bool := c.straps.role != .solo && c.twin.pair != 1
/-- Q: a quiet window is running (R251). -/
def Card.flagQ (c : Card) : Bool := c.maint.running.any Window.quiet

/-- One flag at its bit of the flags byte. -/
def flagBit (b : Bool) (k : Nat) : Byte := if b then (1 : Byte) <<< k else 0

/-- The flags byte as the conditions stand (R251): zero in every state but MOUNTED and CLOSED. `z` is Z, which
only a READ's or READ STREAM's final response sets. -/
def Card.flags (c : Card) (z : Bool) : Byte :=
  if c.phase = .mounted ∨ c.phase = .closed then
    flagBit z 0 ||| flagBit c.flagP 1 ||| flagBit c.flagS 2 ||| flagBit c.maint.w 3 ||| flagBit c.flagT 4 |||
      flagBit c.flights.moved 5 ||| flagBit c.flagQ 6 ||| flagBit c.maint.h 7
  else 0

end Sys2Proof.Machine
end

