-- ==== Sys2Proof/Machine/Ops.lean ====
section
/-! DEFINITION. The named operations over the card that every meaning shares: counting and tracing, sending
responses and notices, the tag table, the card's state, LND and the hold on C2H lane 0. -/

namespace Sys2Proof.Machine

open Sys2Proof

/-- Advance a Balcony counter (R585): BC-00 and BC-01 are 64 bits wide, the others count modulo 2^32. -/
def Card.bump (c : Card) (n k : Nat) : Card :=
  let old := KV.getD c.bal.counts n 0
  let new := (old + k) % (if n ≤ 1 then 2 ^ 64 else 2 ^ 32)
  { c with bal := { c.bal with counts := KV.put c.bal.counts n new } }

/-- The tread counter's low 32 bits, as records stamp it (R571). -/
def Card.stamp (c : Card) : BitVec 32 := c.treads.c.setWidth 32

/-- Eight payload bytes. -/
def payload8 (bs : List Byte) : List Byte := (bs ++ List.replicate 8 0).take 8

/-- An event is made: it joins those of its step (R578). While the Balcony is absent none enters and none is counted
(R583). -/
def Card.ev (c : Card) (n : Nat) (bs : List Byte) : Card :=
  if c.power.dock then
    let e : BalRec := { type := BitVec.ofNat 8 (0x10 + n), stamp := c.stamp, payload := payload8 bs }
    { c with bal := { c.bal with queue := c.bal.queue ++ [e] } }
  else c

/-- A record enters the trace queue: an event where it has a place, after a drop record where events before it were dropped,
else it is dropped and counted (R578 to R580); a load record takes a kept place (R579, R584). -/
def Card.enterEvent (c : Card) (e : BalRec) : Card :=
  if e.type = 0x01 then { c with bal := { c.bal with queue := c.bal.queue ++ [e] } }
  else if c.bal.queue.length < Config.traceEvents then
    let drop : List BalRec :=
      if c.bal.dropped = 0 then []
      else [{ type := 0x02, stamp := e.stamp, payload := leBytes 4 c.bal.dropped ++ leBytes 4 c.bal.dropStamp.toNat }]
    { c with bal := { c.bal with queue := c.bal.queue ++ drop ++ [e], dropped := 0 } }
  else
    let first := if c.bal.dropped = 0 then e.stamp else c.bal.dropStamp
    ({ c with bal := { c.bal with dropped := c.bal.dropped + 1, dropStamp := first } }).bump 15 1

/-- Events of one moment in ascending order of their numbers (R578); `seg` are those met so far. What a load record separates
lies before the load and after it. -/
def byNumber (seg l : List BalRec) : List BalRec :=
  let sort := sortBy (fun (a b : BalRec) => decide (a.type.toNat ≤ b.type.toNat))
  match l with
  | [] => sort seg
  | e :: r => if e.type = 0x01 then sort seg ++ e :: byNumber [] r else byNumber (seg ++ [e]) r

/-- What a step has added to a trace queue of `n` records enters it in its order (R578 to R580). -/
def Card.enterEvents (c : Card) (n : Nat) : Card :=
  if c.bal.queue.length ≤ n then c
  else (byNumber [] (c.bal.queue.drop n)).foldl Card.enterEvent { c with bal := { c.bal with queue := c.bal.queue.take n } }

/-- The running window's code (page 2 byte 48, R574). -/
def Card.windowCode (c : Card) : Nat := (c.maint.running.head?.map Window.code).getD 0

/-- A full-tread record (R574). -/
def Card.fullTread (c : Card) (cause : Byte) : BalRec :=
  { type := 0x01, stamp := c.stamp
    payload := leBytes 6 c.treads.c.toNat ++ [BitVec.ofNat 8 (c.phase.code + 16 * c.windowCode), cause] }

/-- A load record takes a kept place of the queue (R579, R584). -/
def Card.queueLoad (c : Card) : Card :=
  if c.power.dock then { c with bal := { c.bal with queue := c.bal.queue ++ [c.fullTread 0x01] } } else c

/-- Put something on the log of what the card sends. -/
def Card.send (c : Card) (o : Out) : Card := { c with out := o :: c.out }

/-- Info bytes 3, 4 and 5. -/
def info3 (b3 b4 b5 : Nat) : BitVec 24 := BitVec.ofNat 24 (b3 % 256 + 256 * (b4 % 256) + 65536 * (b5 % 256))

/-- Byte k of info, from byte 3 on. -/
def infoByte (i : BitVec 24) (k : Nat) : Byte := (i >>> (8 * k)).setWidth 8

/-- Whether a port is there to send on: DCO only while the dock is present (R54). -/
def Card.portUp (c : Card) (p : Port) : Bool :=
  match p with
  | .ci => true
  | .dci => c.power.dock

/-- Send one 8-byte response on a port and count it in that port's sequence (R235, R240). -/
def Card.respond (c : Card) (p : Port) (kind : BitVec 2) (code : BitVec 6) (st : Status) (info : BitVec 24)
    (z : Bool) : Card :=
  if c.portUp p then
    let s := match p with | .ci => c.ports.seqCo | .dci => c.ports.seqDco
    let r : Resp := { kind := kind, code := code, status := st, flags := c.flags z, info := info, seq := s }
    let ports := match p with
      | .ci => { c.ports with seqCo := s + 1 }
      | .dci => { c.ports with seqDco := s + 1 }
    ({ c with ports := ports }).send (.resp p r)
  else c

/-- The trace of a final response (EV-01) and the count of LANE-CHECKs (BC-80). -/
def Card.traceFinal (c : Card) (p : Port) (t : Tag) (st : Status) (info : BitVec 24) (z : Bool) : Card :=
  let c := if st = stLaneCheck then c.bump 80 1 else c
  c.ev 1 [t.setWidth 8, st, c.flags z, infoByte info 0, infoByte info 1, infoByte info 2,
    match p with | .ci => 0 | .dci => 1]

/-- Send a final response on a port (R239). -/
def Card.sendFinal (c : Card) (p : Port) (t : Tag) (st : Status) (info : BitVec 24) (z : Bool) : Card :=
  (c.respond p 0 t st info z).traceFinal p t st info z

/-- Send an INTERIM (R238). -/
def Card.sendInterim (c : Card) (p : Port) (t : Tag) (st : Status) (info : BitVec 24) : Card :=
  c.respond p 1 t st info false

/-- A tag's entry. -/
def Card.tagEntry (c : Card) (t : Tag) : Option TagEntry := KV.find c.ports.tags t.toNat

/-- Write a tag's entry. -/
def Card.putTag (c : Card) (t : Tag) (e : TagEntry) : Card :=
  { c with ports := { c.ports with tags := KV.put c.ports.tags t.toNat e } }

/-- The outstanding command on a tag. -/
def Card.cmdOf (c : Card) (t : Tag) : Option Cmd :=
  match c.tagEntry t with
  | some e => match e.state with
    | .outstanding k => some k
    | .completed _ _ => none
  | none => none

/-- Replace the work of an outstanding command. -/
def Card.setCmd (c : Card) (t : Tag) (k : Cmd) : Card :=
  match c.tagEntry t with
  | some e => match e.state with
    | .outstanding _ => c.putTag t { e with state := .outstanding k }
    | .completed _ _ => c
  | none => c

/-- The tag of the command a read serves. -/
def Purpose.tag : Purpose → Option Tag
  | .cmd t _ | .segment t _ | .verify t _ | .merge t _ => some t
  | _ => none

/-- The die number a descriptor acts on. -/
def Desc.die : Desc → Nat
  | .read _ k _ _ _ => keyDie k
  | .program k => keyDie k
  | .erase w h => dieNo h (dieRow w)
  | .suspend n | .resume n | .resetDie n | .heat n => n

/-- The hall a descriptor goes to. -/
def Desc.hall (d : Desc) : Nat := d.die / 16

/-- A descriptor's kind code (R434). -/
def Desc.code : Desc → Nat
  | .read _ _ true _ _ => 2
  | .read _ _ false _ _ => 1
  | .program _ => 3
  | .erase _ _ => 4
  | .suspend _ => 5
  | .resume _ => 6
  | .resetDie _ => 7
  | .heat _ => 8

/-- The completion codes (R435). -/
inductive DescCode where
  | ok | soft | undecoded | erased | programFail | eraseFail | reprogram | order | suspended | hung | aborted
  deriving DecidableEq, Repr

/-- A completion code's value (R435). -/
def DescCode.val : DescCode → Nat
  | .ok => 0x00 | .soft => 0x01 | .undecoded => 0x02 | .erased => 0x03 | .programFail => 0x10 | .eraseFail => 0x11
  | .reprogram => 0x12 | .order => 0x13 | .suspended => 0x20 | .hung => 0x30 | .aborted => 0x31

/-- A completion that EV-19 shows: all but OK, ERASED and SUSPENDED (R588). -/
def DescCode.traced : DescCode → Bool
  | .ok | .erased | .suspended => false
  | _ => true

/-- The block a wing has in a hall by the effective wing table, none where the wing is narrow there (R404). -/
def Card.blockOf (c : Card) (w h : Nat) : Option Nat :=
  match c.alcove.conf with
  | some f => (KV.find f.table (16 * w + h)).getD (some (w % Config.wingSlots))
  | none => some (w % Config.wingSlots)

/-- EV-19 of a completion on die `n`: the descriptor's kind, the code, block and page (R588). -/
def Card.traceCode (c : Card) (n kind : Nat) (code : DescCode) (blk page : Nat) : Card :=
  if code.traced then
    c.ev 19 ([BitVec.ofNat 8 (n / 16 + 16 * (n % 16)), BitVec.ofNat 8 kind, BitVec.ofNat 8 code.val] ++
      leBytes 2 blk ++ leBytes 2 page)
  else c

/-- Block and page a descriptor names; 0xFFFF and 0 where it names a die alone. -/
def Card.descPlace (c : Card) (d : Desc) : Nat × Nat :=
  match d with
  | .read _ k _ _ _ | .program k => ((c.blockOf (keyWing k) (keyHall k)).getD 0xFFFF, keyGallery k)
  | .erase w h => ((c.blockOf w h).getD 0xFFFF, 0)
  | _ => (0xFFFF, 0)

/-- Count a completion of a descriptor in its hall's counter (BC-16 to BC-47). -/
def Card.countDesc (c : Card) (d : Desc) : Card :=
  match d with
  | .program k => c.bump (16 + keyHall k) 1
  | .read _ k _ _ _ => c.bump (32 + keyHall k) 1
  | _ => c

/-- A descriptor completes with its one code: counted and traced (R435). -/
def Card.complete (c : Card) (d : Desc) (code : DescCode) : Card :=
  (c.countDesc d).traceCode d.die d.code code (c.descPlace d).1 (c.descPlace d).2

/-- A queue table with every queue filtered. -/
def filterQueues (p : Desc → Bool) (q : KV (List Desc)) : KV (List Desc) :=
  q.filterMap (fun x => let l := x.2.filter p; if l.isEmpty then none else some (x.1, l))

/-- The descriptors `p` rejects are dropped before their execution, wherever they wait: in a hall's queue, held back for it
or to be issued again after its reset. Each completes ABORTED (R22, R435; log entry 94). -/
def Card.keepDescs (c : Card) (p : Desc → Bool) : Card :=
  let q := c.halls
  let gone := ((q.queues ++ q.back).flatMap Prod.snd ++ q.resets.flatMap (fun x => x.2.again)).filter (fun d => !p d)
  gone.foldl (fun c d => c.complete d .aborted) { c with halls := { q with
    queues := filterQueues p q.queues, back := filterQueues p q.back
    resets := q.resets.map (fun x => (x.1, { x.2 with again := x.2.again.filter p })) } }

/-- The read jobs `p` keeps go on, less the rebuild reads of a job that does not. Reads that no die executes yet and that
nothing waits for any more are dropped (R22, R432). -/
def Card.keepJobs (c : Card) (p : Nat × ReadJob → Bool) : Card :=
  let mine := c.halls.jobs.filter p
  let jobs := mine.filter (fun x => match x.2.purpose with
    | .rebuild i => (KV.find mine i).isSome
    | _ => true)
  let wanted (d : Desc) : Bool := match d with
    | .read i _ _ _ _ => (KV.find jobs i).isSome
    | _ => true
  ({ c with halls := { c.halls with jobs := jobs } }).keepDescs wanted

/-- A die executes a read of this job. -/
def Card.jobOnDie (c : Card) (id : Nat) : Bool :=
  c.halls.dies.any (fun x => match x.2.op with
    | some (.read i _ _ _ _) => i == id
    | _ => false)

/-- A die executes the read of a relocation's source. -/
def Card.moveOnDie (c : Card) (id : Nat) : Bool :=
  c.halls.jobs.any (fun x => x.2.purpose == .move id && x.2.stage != .rebuild && c.jobOnDie x.1)

/-- The program of the image at `k` has begun: its page holds something, a die executes it, or a hall reset has cut it off
(R24). -/
def Card.begun (c : Card) (k : Nat) : Bool :=
  (KV.find c.media.cells k).isSome || c.halls.dies.any (fun x => x.2.op == some (.program k)) ||
    c.halls.resets.any (fun x => x.2.redrive.contains k)

/-- Relocations that inline reclaim makes, for a WRITE. -/
def MoveWhy.isInline : MoveWhy → Bool
  | .inline _ => true
  | _ => false

/-- A relocation whose transaction has ended goes on: one of a service window whose copy has its position or whose source is
being read may still program its copy; one of inline reclaim only finishes the program that has begun (R22, R24). -/
def Card.moveStays (c : Card) (id : Nat) (m : Move) : Bool :=
  if m.why.isInline then m.dst.any c.begun else m.dst.isSome || c.moveOnDie id

/-- The transaction of the relocations whose reason `p` accepts has ended; those that do not go on are dropped with their
reads (R22). -/
def Card.endMoves (c : Card) (p : MoveWhy → Bool) : Card :=
  let moves := c.halls.moves.filterMap (fun x =>
    if p x.2.why then if c.moveStays x.1 x.2 then some (x.1, { x.2 with ended := true }) else none
    else some x)
  ({ c with halls := { c.halls with moves := moves } }).keepJobs (fun x => match x.2.purpose with
    | .move id => (KV.find moves id).isSome
    | _ => true)

/-- A LANDING, ROLLBACK or MARK bay, whose transaction lasts until it is programmed (R19). -/
def BayKind.scheduled : BayKind → Bool
  | .landing | .rollback | .mark => true
  | _ => false

/-- A transaction is open that programs bays, and so completes the galleries they lie in with FILLER, PARITY and SUMMARY bays
and with the reads this takes: a WRITE or DISCARD.Z, a landing or rollback, a MARK whose bay is not programmed yet, a
relocation, or a service window whose kind relocates (R19, R23). -/
def Card.carrying (c : Card) : Bool :=
  c.ports.tags.any (fun x => match x.2.state with | .outstanding (.write _) => true | _ => false) ||
    !c.flights.acts.isEmpty || !c.flights.due.isEmpty ||
    c.media.vest.any (fun x => x.2.kind.scheduled && (KV.find c.media.cells x.1).isNone) ||
    c.halls.moves.any (fun x => x.2.dst.isSome && !x.2.ended && x.2.why != .redrive) ||
    c.maint.running.any (fun w => !w.quiet && (w.kinds.getLsbD 0 || w.kinds.getLsbD 2 || w.kinds.getLsbD 4))

/-- Somebody still wants the image at `k` programmed: its relocation, a DATA or DISCARD bay's command, the landing it belongs
to or, for a LANDING or ROLLBACK bay, the action itself goes on (R22, R379, R381, R395); a FILLER bay's gallery is being
completed. -/
def Card.owned (c : Card) (k : Nat) (b : Bay) : Bool :=
  c.halls.moves.any (fun x => x.2.dst == some k && !(x.2.ended && x.2.why.isInline)) ||
  match b.kind with
  | .data | .discard =>
    c.ports.tags.any (fun x => match x.2.state with
      | .outstanding (.write w) => w.bays.any (fun y => y.key == k)
      | _ => false) ||
      (b.kind == .discard && c.flights.acts.any (fun a => !a.rollback && a.closed == b.ord))
  | .landing | .rollback => c.flights.acts.any (fun a => a.bay == some b.seq)
  | .filler => c.carrying || (c.wing (keyWing k)).short
  | _ => true

/-- The image at `k` awaits a position to be re-driven to. -/
def Card.awaitsHome (c : Card) (k : Nat) : Bool := c.media.homeless.any (fun x => x.key == k && !x.copy)

/-- An open wing with a position assigned to nothing any more. -/
def OpenWing.untake (o : OpenWing) (k : Nat) : OpenWing :=
  if o.wing = keyWing k then
    { o with gals := o.gals.map (fun g =>
      if g.g = keyGallery k then { g with taken := g.taken.filter (fun h => h != keyHall k) } else g) }
  else o

/-- The image at `k`, whose program has not begun, is given up: nothing of it is programmed, and its position is free for
another bay (R22, R287, R381). -/
def Card.untake (c : Card) (k : Nat) : Card :=
  let c := c.keepDescs (fun d => d != .program k)
  { c with media := { c.media with
      vest := KV.drop c.media.vest k, drawn := KV.drop c.media.drawn k
      homeless := c.media.homeless.filter (fun x => x.key != k || x.copy)
      opens := c.media.opens.map (fun o => o.untake k) } }

/-- A transaction has ended: what it has assigned and not begun to program is given up (R22, R28). -/
def Card.sweep (c : Card) : Card :=
  (c.media.vest.filter (fun x => !c.owned x.1 x.2 && (c.awaitsHome x.1 || !c.begun x.1))).foldl
    (fun c x => c.untake x.1) c

/-- Wings of the patrol pass still to be visited, the lowest close sequence first (R471). -/
def Card.passLeft (c : Card) : List Nat :=
  (sortBy (fun a b => decide (a.2 ≤ b.2))
    ((c.maint.pass.filter (fun w => (c.wing w).state == .closed && !(c.wing w).visited)).map (fun w =>
      (w, (c.wing w).closeSeq)))).map Prod.fst

/-- A new patrol pass over the wings closed now (R471; EV-35). -/
def Card.newPass (c : Card) : Card :=
  let ws := (c.media.wings.filter (fun x => x.2.state == .closed)).map Prod.fst
  let fresh : KV Wing := c.media.wings.map (fun x => (x.1, { x.2 with visited := false }))
  let c : Card := { c with
    media := { c.media with wings := fresh }
    maint := { c.maint with pass := ws, visit := none } }
  c.ev 35 ([0x01] ++ leBytes 4 ws.length)

/-- The pass is over: it is reported complete and a new one begins (R471; EV-35). -/
def Card.passOver (c : Card) : Card := (c.ev 35 ([0x02] ++ leBytes 4 c.maint.pass.length)).newPass

/-- A wing comes to await erase; its marks are cleared and it leaves the patrol pass, which is over where it was the last one
still to be visited (R448, R470, R471). -/
def Card.awaitErase (c : Card) (w : Nat) : Card :=
  let v := c.wing w
  let was := c.maint.pass.contains w
  let c := c.setWing w { v with state := .waiting, mark := none, waitOrder := c.media.clock }
  let c : Card := { c with
    media := { c.media with clock := c.media.clock + 1 }
    maint := { c.maint with pass := c.maint.pass.filter (fun x => x != w) } }
  if was && c.passLeft.isEmpty then c.passOver else c

/-- The WRITE whose inline reclaim erased a wing has one erase fewer to wait for (R453). -/
def Card.inlineErased (c : Card) (w : Nat) (o : EraseOwner) : Card :=
  match o with
  | .inline t => match c.cmdOf t with
    | some (.write k) => c.setCmd t (.write { k with inlineErases := k.inlineErases.filter (· != w) })
    | _ => c
  | .window => c

/-- A die holds an erase of wing `w`. -/
def Card.holdsErase (c : Card) (n w : Nat) : Bool := (c.die n).erase.any (fun e => e.wing == w)

/-- The erase of a wing ends in the halls `hs` without having erased the block there: queued, running or suspended, its ERASE
completes ABORTED. The wing awaits erase again once nothing of the erase is left (R32, R435, R508, R512). -/
def Card.cutErase (c : Card) (w : Nat) (hs : List Nat) : Card :=
  match KV.find c.halls.erases w with
  | none => c
  | some e =>
    let c := c.keepDescs (fun d => match d with
      | .erase v h => v != w || !hs.contains h
      | _ => true)
    let c := (hs.filter (fun h => c.holdsErase (dieNo h (dieRow w)) w)).foldl (fun c h =>
      (c.setDie (dieNo h (dieRow w)) { c.die (dieNo h (dieRow w)) with erase := none }).complete (.erase w h) .aborted) c
    let left := e.left.filter (fun h => !hs.contains h)
    let c := { c with halls := { c.halls with
      erases := if left.isEmpty then KV.drop c.halls.erases w
        else KV.put c.halls.erases w { e with left := left, failed := e.failed || left.length != e.left.length } } }
    if left.isEmpty then (c.awaitErase w).inlineErased w e.owner else c

/-- The halls of a wing's erase whose ERASE no die has begun. -/
def Card.unbegun (c : Card) (w : Nat) (e : WingErase) : List Nat :=
  e.left.filter (fun h => !c.holdsErase (dieNo h (dieRow w)) w)

/-- The transaction of some wing erases has ended: an ERASE not begun is not started; one that runs or is suspended stays
for a later window (R22, R29). -/
def Card.endErases (c : Card) (o : EraseOwner) : Card :=
  let mine := c.halls.erases.filter (fun x => x.2.owner == o)
  let c := mine.foldl (fun c x => c.cutErase x.1 (c.unbegun x.1 x.2)) c
  { c with halls := { c.halls with
    erases := c.halls.erases.map (fun x => if x.2.owner == o then (x.1, { x.2 with owner := .window }) else x)
    dies := c.halls.dies.map (fun x => match x.2.erase with
      | some de => if de.owner == o then (x.1, { x.2 with erase := some { de with owner := .window } }) else x
      | none => x) } }

/-- A command has ended: nothing further starts on its behalf (R22). -/
def Card.dropWork (c : Card) (t : Tag) : Card :=
  (((c.keepJobs (fun x => x.2.purpose.tag != some t)).endMoves (fun y => y == .inline t)).endErases (.inline t)).sweep

/-- End an outstanding command: its final response on the port it came by, and its entry completed (R239, R244,
R245 step 8). -/
def Card.finish (c : Card) (t : Tag) (st : Status) (info : BitVec 24) (z : Bool) : Card :=
  match c.tagEntry t with
  | some e => match e.state with
    | .outstanding _ =>
      ((c.sendFinal e.port t st info z).putTag t { e with state := .completed st info }).dropWork t
    | .completed _ _ => c
  | none => c

/-- The tags that are outstanding, ascending. -/
def Card.outstanding (c : Card) : List Tag :=
  c.ports.tags.filterMap (fun x => match x.2.state with
    | .outstanding _ => some (BitVec.ofNat 6 x.1)
    | .completed _ _ => none)

/-- An INTERIM with status OK for an outstanding command (R243). -/
def Card.interim (c : Card) (t : Tag) (info : BitVec 24) : Card :=
  match c.tagEntry t with
  | some e => match e.state with
    | .outstanding _ => c.sendInterim e.port t stOk info
    | .completed _ _ => c
  | none => c

/-- Send a notice on CO and, while the dock is present, on DCO (R252). -/
def Card.notice (c : Card) (code : BitVec 6) (info : BitVec 24) : Card :=
  (((c.respond .ci 3 code 0 info false).respond .dci 3 code 0 info false)).ev 3
    [code.setWidth 8, infoByte info 0, infoByte info 1, infoByte info 2]

/-- The card's state changes, traced by EV-07 (R139). -/
def Card.enter (c : Card) (p : Phase) : Card :=
  if c.phase = p then c
  else ({ c with phase := p }).ev 7 [BitVec.ofNat 8 c.phase.code, BitVec.ofNat 8 p.code]

/-- LND follows R137 and R389: pulled in MOUNTED while a LAND is held or a landing is in progress. While HCLK is absent it
stays as it was (R97). -/
def Card.driveLnd (c : Card) : Card :=
  if !c.power.hclk then c else
  let held := match c.flights.held with | some h => !h.rollback | none => false
  let pull := c.phase == .mounted && (held || c.flights.acts.any (fun a => !a.rollback))
  { c with power := { c.power with lnd := pull } }

/-- The card is to hold C2H lane 0 low from the next slot boundary at which no transfer is in progress (R212). -/
def Card.askHold (c : Card) : Card := { c with link := { c.link with holdDue := true } }

/-- The card's activities hold C2H lane 0 low (R136, R329). -/
def Card.holds (c : Card) : Bool :=
  c.phase == .mounting || (match c.alcove.service with
    | some (_, .formatRead) | some (_, .load _ _ _) | some (_, .swapCheck) | some (_, .swap _ _) => false
    | some _ => true
    | none => false)

/-- C2H lane 0 is held low from here on (R211; EV-11). -/
def Card.startHold (c : Card) (hostTrains : Bool) : Card :=
  (({ c with link := { c.link with hold := true, holdDue := false, hostTrains := hostTrains } }).send .holdLow).ev 11
    [0x01]

/-- Training begins anew: no lane counts as trained, no request has been acted on since, and what the receiver held of
its last codewords and markers goes (R201, R204, R207, R607; log entry 72). -/
def Card.enterTraining (c : Card) (request : Bool) : Card :=
  ({ c with link := { c.link with mode := .training, trained := 0, reqResult := .none, retrainReq := request,
                                  hostTrains := false, holdCause := none, rxMarkers := [], badWords := [], lastBad := 0 } }).send
    (.training c.laneCap request)

/-- The hold ends: the resync pattern, then a marker on every lane in use, marker counts restarting (R184, R214);
or, where the host is sending training frames, training frames instead (R216), which begin a retrain asked for meanwhile (EV-10,
BC-81). -/
def Card.endHold (c : Card) : Card :=
  if c.link.hold then
    let c := (c.send .resync).ev 11 [0x00]
    if c.link.hostTrains then
      let c := match c.link.holdCause with
        | some (x, l) => (c.bump 81 1).ev 10 [x, l.setWidth 8]
        | none => c
      ({ c with link := { c.link with hold := false, holdDue := false } }).enterTraining c.link.retrainReq
    else
      ({ c with link := { c.link with hold := false, holdDue := false, txMarker := 1 } }).send
        (.marker c.link.lanes 0)
  else { c with link := { c.link with holdDue := false } }

/-- The lane-frames of a trained link are exchanged. -/
def Card.linkUp (c : Card) : Bool := c.link.mode == .up

/-- Send a C2H transfer with its trailers on the lanes in use, the lanes' scramblers at free values (R177, R188 to
R193; log entry 71). -/
def Card.sendC2h (c : Card) (t : Tag) (bytes : List Byte) : Card :=
  let issue := match c.tagEntry t with | some e => e.issue | none => false
  ({ c with freeCount := c.freeCount + 4 }).send
    (.c2h { tag := t, issue := issue, lanes := c.link.lanes, bytes := bytes, seed := c.freeCount })

/-- The counter free values are taken at advances. -/
def Card.nextFree (c : Card) : Card := { c with freeCount := c.freeCount + 1 }

/-- A meaning that always applies: the queue is not its concern. The events it makes enter the trace queue in their order
(R578). -/
def run (f : Card → Card) (s : State) : Host.Outcome State Fault Refusal :=
  .next { s with card := (f s.card).enterEvents s.card.bal.queue.length }

end Sys2Proof.Machine
end

