-- ==== Sys2Proof/Machine/Rs.lean ====
section
/-! DEFINITION. The line code of the lanes: RS(544,514) over GF(2^10), the place of header, payload and parity in a
codeword, PAM4 levels and the self-synchronising scrambler (R172 to R177). -/

namespace Sys2Proof.Machine

/-- A symbol of GF(2^10) times the primitive element, by x^10 + x^3 + 1, the primitive polynomial of Clause 91 (R172;
log entry 70). -/
def gfTwice (a : Nat) : Nat := if 512 ≤ a then (2 * a) ^^^ 0x409 else 2 * a

/-- `n` steps of a product of two symbols. -/
def gfMulSteps (n a b acc : Nat) : Nat :=
  match n with
  | 0 => acc
  | k + 1 => gfMulSteps k (gfTwice a) (b / 2) (if b % 2 = 1 then acc ^^^ a else acc)

/-- The product of two symbols of GF(2^10). -/
def gfMul (a b : Nat) : Nat := gfMulSteps 10 a b 0

/-- The primitive element to the power `n`. -/
def gfExp (n : Nat) : Nat :=
  match n with
  | 0 => 1
  | k + 1 => gfTwice (gfExp k)

/-- `n` steps of a power by repeated squaring, exponent of `n` bits all ones but the lowest. -/
def gfInvSteps (n a acc : Nat) : Nat :=
  match n with
  | 0 => acc
  | k + 1 => let s := gfMul a a
    gfInvSteps k s (gfMul acc s)

/-- The inverse of a symbol that is not 0: its power 1,022. -/
def gfInv (a : Nat) : Nat := gfInvSteps 9 a 1

/-- A polynomial with the lowest coefficient first, at a point. -/
def polyAt (p : List Nat) (x : Nat) : Nat := p.foldr (fun c acc => c ^^^ gfMul acc x) 0

/-- Sum of two polynomials. -/
def polyAdd (p q : List Nat) : List Nat :=
  match p, q with
  | [], q => q
  | p, [] => p
  | a :: r, b :: t => (a ^^^ b) :: polyAdd r t

/-- A polynomial times a symbol. -/
def polyScale (k : Nat) (p : List Nat) : List Nat := p.map (gfMul k)

/-- Product of two polynomials. -/
def polyMul (p q : List Nat) : List Nat :=
  match p with
  | [] => []
  | a :: r => polyAdd (polyScale a q) (0 :: polyMul r q)

/-- The generator polynomial of Clause 91's RS(544,514): the product of x + α^j for j from 0 to 29, the lowest
coefficient first (R172; log entry 70). -/
def rsGenerator : List Nat :=
  (List.range 30).foldl (fun g j => polyMul g [gfExp j, 1]) [1]

/-- Its coefficients below x^30 in slots of 20 bits, the lowest at bit 0. -/
def rsGenPacked : Nat :=
  0x23f00228000bb000e600228000010006c002350011a000f900251000840005e002d0001ef00181003ae001f700373001690031400262000c1001880007f000b90009e00080003420020b

/-- The low ten bits of every slot of a packed register. -/
def rsMask : Nat := 0x3FF * ((2 ^ 600 - 1) / (2 ^ 20 - 1))

/-- Every slot of a packed register reduced by the primitive polynomial, its ten highest bits folded down once. -/
def rsFold (p : Nat) : Nat :=
  let h := (p >>> 10) &&& rsMask
  (p &&& rsMask) ^^^ h ^^^ (h <<< 3)

/-- The generator's low coefficients times a symbol, packed. -/
def rsTimes (f : Nat) : Nat :=
  rsFold (rsFold ((List.range 10).foldl (fun acc k => if f.testBit k then acc ^^^ (rsGenPacked <<< k) else acc) 0))

/-- One symbol into the division by the generator. -/
def rsStep (r s : Nat) : Nat := (((r <<< 20) % 2 ^ 600) ||| s) ^^^ rsTimes (r >>> 580)

/-- The remainder of a word, its first symbol the highest coefficient, by the generator, packed. -/
def rsRemainder (w : List Nat) : Nat := w.foldl rsStep 0

/-- The 30 symbols of a packed register, the highest coefficient first. -/
def rsUnpack (r : Nat) : List Nat := (List.range 30).map (fun i => (r >>> (20 * (29 - i))) % 1024)

/-- A codeword: 514 message symbols, then 30 parity symbols (R172, R175). -/
def rsEncode (m : List Nat) : List Nat := m ++ rsUnpack (rsRemainder (m ++ List.replicate 30 0))

/-- The syndromes of a word: its value at α^0 to α^29, from its remainder. -/
def rsSyndromes (r : Nat) : List Nat := (List.range 30).map (fun j => polyAt (rsUnpack r).reverse (gfExp j))

/-- A Berlekamp-Massey iteration's values: locator, the locator before the last change of length, its discrepancy, the
length, and the steps since. -/
structure Massey where
  loc : List Nat
  old : List Nat
  disc : Nat
  len : Nat
  gap : Nat
  deriving DecidableEq, Repr

/-- One iteration for syndrome `n`; `seen` holds the syndromes up to `n`, the newest first. -/
def Massey.next (s : Massey) (n : Nat) (seen : List Nat) : Massey :=
  let d := ((s.loc.zip seen).map (fun x => gfMul x.1 x.2)).foldl (· ^^^ ·) 0
  if d = 0 then { s with gap := s.gap + 1 }
  else
    let step := polyScale (gfMul d (gfInv s.disc)) (List.replicate s.gap 0 ++ s.old)
    if 2 * s.len ≤ n then
      { loc := polyAdd s.loc step, old := s.loc, disc := d, len := n + 1 - s.len, gap := 1 }
    else { s with loc := polyAdd s.loc step, gap := s.gap + 1 }

/-- All iterations over the syndromes that remain. -/
def Massey.run (s : Massey) (n : Nat) (seen rest : List Nat) : Massey :=
  match rest with
  | [] => s
  | x :: r => (s.next n (x :: seen)).run (n + 1) (x :: seen) r

/-- The formal derivative of a polynomial. -/
def polyDeriv (p : List Nat) : List Nat := (p.zipIdx.drop 1).map (fun x => if x.2 % 2 = 1 then x.1 else 0)

/-- The errors of a word by its syndromes: place and value of each symbol, none where no pattern of at most 15 errors
gives them. Place `i` of a word has the locator α^(543 - i), whose inverse is α^(480 + i). -/
def rsErrors (syn : List Nat) : Option (List (Nat × Nat)) :=
  let s := ({ loc := [1], old := [1], disc := 1, len := 0, gap := 1 } : Massey).run 0 [] syn
  let om := (polyMul syn s.loc).take 30
  let dv := polyDeriv s.loc
  let roots := (List.range 544).filterMap (fun i =>
    let x := gfExp (480 + i)
    if polyAt s.loc x = 0 then some (i, gfMul (polyAt om x) (gfMul (gfInv x) (gfInv (polyAt dv x)))) else none)
  if s.len ≤ 15 ∧ roots.length = s.len then some roots else none

/-- The word with errors taken out. -/
def rsApply (w : List Nat) (es : List (Nat × Nat)) : List Nat :=
  w.zipIdx.map (fun x => es.foldl (fun v e => if e.1 = x.2 then v ^^^ e.2 else v) x.1)

/-- The decoder: the codeword that differs from the word in at most 15 symbols with the number of them, or none where
there is none: the word is uncorrectable (R174). -/
def rsDecode (w : List Nat) : Option (List Nat × Nat) :=
  let r := rsRemainder w
  if r = 0 then some (w, 0)
  else match rsErrors (rsSyndromes r) with
    | none => none
    | some es =>
      let v := rsApply w es
      if rsRemainder v = 0 then some (v, es.length) else none

/-- The kinds of lane-frame. -/
inductive LaneKind where
  | data | trailer | idle
  deriving DecidableEq, Repr

/-- Kind codes; 0b00 is never sent (R179). -/
def LaneKind.code : LaneKind → Nat
  | .data => 1
  | .trailer => 2
  | .idle => 3

/-- A lane-frame's 20-bit header. -/
def laneHeader (k : LaneKind) (t : Tag) (index : BitVec 12) : BitVec 20 :=
  match k with
  | .idle => 3
  | _ => BitVec.ofNat 20 (k.code + 4 * t.toNat + 256 * index.toNat)

/-- Scrambling of `n` bits from `b`, bit 0 first, with the 58 bits sent before them in `p`, the newest at bit 57
(R177): each bit sent is the bit, the bit sent 39 before it and the bit sent 58 before it. Up to 39 bits go at once. -/
def scrambleSteps (fuel n b p acc at_ : Nat) : Nat × Nat :=
  match fuel with
  | 0 => (acc, p)
  | k + 1 =>
    let m := min n 39
    if m = 0 then (acc, p)
    else
      let o := (b ^^^ p ^^^ (p >>> 19)) % 2 ^ m
      scrambleSteps k (n - m) (b >>> m) ((p ||| (o <<< 58)) >>> m) (acc ||| (o <<< at_)) (at_ + m)

/-- A payload's 5,120 bits through the scrambler of a lane, and the lane's state after it (R177). -/
def scramble (p b : Nat) : Nat × Nat := scrambleSteps 132 5120 b p 0 0

/-- Received payload bits through the descrambler of a lane, and its state after them: the last 58 bits received
(R177). -/
def descramble (p b : Nat) : Nat × Nat :=
  let w := p ||| (b <<< 58)
  (((w >>> 58) ^^^ (w >>> 19) ^^^ w) % 2 ^ 5120, w >>> 5120)

/-- The message symbols of a lane-frame: header bits [9:0] and [19:10], then the scrambled payload's 5,120 bits, ten a
symbol (R175). -/
def messageOf (header : BitVec 20) (payload : Nat) : List Nat :=
  [header.toNat % 1024, header.toNat / 1024] ++ (List.range 512).map (fun i => (payload >>> (10 * i)) % 1024)

/-- The header of a word's symbols as they stand (R175). -/
def wordHeader (w : List Nat) : BitVec 20 := BitVec.ofNat 20 (w.getD 0 0 + 1024 * w.getD 1 0)

/-- The payload bits of a word's symbols 2 to 513 as a number, bit 0 first (R175). -/
def wordPayload (w : List Nat) : Nat := ((w.drop 2).take 512).foldr (fun s acc => s + 1024 * acc) 0

/-- One lane-frame as sent: its codeword, and the lane's scrambler state after it (R172, R175, R177). -/
def laneWord (p : Nat) (header : BitVec 20) (payload : List Byte) : List Nat × Nat :=
  let x := scramble p (leNat payload)
  (rsEncode (messageOf header x.1), x.2)

/-- The PAM4 level of two bits, by Gray code; bit 0 is sent first (R176). -/
def pam4 (b : BitVec 2) : Nat :=
  match b.toNat with
  | 0 => 0
  | 1 => 1
  | 3 => 2
  | _ => 3

/-- A symbol as five PAM4 levels, its bit 0 first (R175, R176). -/
def symbolLevels (s : Nat) : List Nat := (List.range 5).map (fun i => pam4 (BitVec.ofNat 2 (s >>> (2 * i))))

/-- A codeword as its 2,720 levels. -/
def wordLevels (w : List Nat) : List Nat := w.flatMap symbolLevels

/-- One step of PRBS13, 1 + x + x^2 + x^12 + x^13: the bit given and the state after it (R213; log entry 70). -/
def prbs13Step (s : BitVec 13) : Bool × BitVec 13 :=
  let o := s.getLsbD 12
  (o, (s <<< 1) ||| (if s.getLsbD 12 ^^ s.getLsbD 11 ^^ s.getLsbD 1 ^^ s.getLsbD 0 then 1 else 0))

/-- `n` levels of PRBS13Q: two bits of PRBS13 a level, by R176's Gray code, and the state after them. -/
def prbs13q (n : Nat) (s : BitVec 13) : List Nat × BitVec 13 :=
  match n with
  | 0 => ([], s)
  | k + 1 =>
    let a := prbs13Step s
    let b := prbs13Step a.2
    let r := prbs13q k b.2
    (pam4 ((if a.1 then 1 else 0) ||| (if b.1 then 2 else 0)) :: r.1, r.2)

/-- The training marker's 64 levels. -/
def trainingMarker : List Nat :=
  (List.replicate 8 [3, 0]).flatten ++ (List.replicate 4 [3, 3, 0, 0]).flatten ++
    (List.replicate 4 [3, 2, 1, 0, 0, 1, 2, 3]).flatten

/-- The resync pattern's 4,096 levels: 3, 3, 0, 0 repeated, PRBS13Q from the all-ones seed, the training marker
(R213 to R215). -/
def resyncPattern : List Nat :=
  (List.replicate 256 [3, 3, 0, 0]).flatten ++ (prbs13q 3008 0x1FFF).1 ++ trainingMarker

/-- A control field's 48 bits as levels: (3, 0) for 1 and (0, 3) for 0, bit 0 first. -/
def controlLevels (bytes : List Byte) : List Nat :=
  (List.range 48).flatMap (fun i => if (leNat bytes).testBit i then [3, 0] else [0, 3])

/-- A training frame's 2,720 levels, and the PRBS13Q state that runs on to the next frame. -/
def trainingFrame (control : List Byte) (s : BitVec 13) : List Nat × BitVec 13 :=
  let r := prbs13q 2560 s
  (trainingMarker ++ controlLevels control ++ r.1, r.2)

end Sys2Proof.Machine
end

