-- ==== Sys2Proof/Machine/Operands.lean ====
section
/-! DEFINITION. How a command frame is taken: reception, the eight steps of R245, the port table of R308, the state
table of R142, and the unused fields of R234. -/

namespace Sys2Proof.Machine

open Sys2Proof

/-- Opcodes (R308). -/
def opRead : Byte := 0x01
/-- READ STREAM. -/
def opStream : Byte := 0x02
/-- STOP. -/
def opStop : Byte := 0x03
/-- VERIFY. -/
def opVerify : Byte := 0x04
/-- WRITE. -/
def opWrite : Byte := 0x10
/-- DISCARD.Z. -/
def opDiscardZ : Byte := 0x11
/-- DISCARD.H. -/
def opDiscardH : Byte := 0x12
/-- LAND. -/
def opLand : Byte := 0x20
/-- ROLLBACK. -/
def opRollback : Byte := 0x21
/-- SERVICE. -/
def opService : Byte := 0x22
/-- QUIET. -/
def opQuiet : Byte := 0x23
/-- MOUNT. -/
def opMount : Byte := 0x30
/-- CLOSE. -/
def opClose : Byte := 0x31
/-- INQUIRE. -/
def opInquire : Byte := 0x32
/-- FORCE CLOSE. -/
def opForceClose : Byte := 0x40
/-- FORMAT. -/
def opFormat : Byte := 0x41
/-- SANITIZE. -/
def opSanitize : Byte := 0x42
/-- ALCOVE LOAD. -/
def opAlcoveLoad : Byte := 0x43
/-- ALCOVE SWAP. -/
def opAlcoveSwap : Byte := 0x44

/-- The opcodes entitled on CI only, on both ports, and on DCI only (R308). -/
def fieldOnly : List Byte :=
  [opRead, opStream, opStop, opVerify, opWrite, opDiscardZ, opDiscardH, opLand, opRollback, opService, opQuiet]
/-- Opcodes both ports carry. -/
def bothPorts : List Byte := [opMount, opClose, opInquire]
/-- Opcodes of the dock port alone. -/
def dockOnly : List Byte := [opForceClose, opFormat, opSanitize, opAlcoveLoad, opAlcoveSwap]

/-- The opcode is listed (R245 step 5). -/
def listed (op : Byte) : Bool := fieldOnly.contains op || bothPorts.contains op || dockOnly.contains op

/-- The port is entitled to the opcode (R308, R245 step 6). -/
def entitled (p : Port) (op : Byte) : Bool :=
  match p with
  | .ci => fieldOnly.contains op || bothPorts.contains op
  | .dci => bothPorts.contains op || dockOnly.contains op

/-- An INQUIRE page a state serves (R142). -/
def pageServed (p : Phase) (page : Nat) : Bool :=
  match p with
  | .readyUnmounted => [0, 1, 2, 4, 5].contains page
  | .mounting | .closed => [0, 2, 5].contains page
  | .mounted => decide (page ≤ 7)
  | .fault => page == 0
  | _ => false

/-- The answer of a state that does not serve a command (R142), or none where it does. -/
def stateAnswer (p : Phase) (op : Byte) (page : Nat) : Option Status :=
  let inq := op == opInquire && pageServed p page
  match p with
  | .absent | .poweredUnclocked | .loading | .linkTraining => some stNotReady
  | .readyUnmounted =>
    if inq || op == opMount || dockOnly.contains op then none else some stNotMounted
  | .mounting => if inq || op == opForceClose then none else some stNotReady
  | .mounted =>
    if op == opMount then some stProtocol
    else if op == opFormat || op == opSanitize || op == opAlcoveLoad || op == opAlcoveSwap then some stNotReady
    else none
  | .closed =>
    if inq || op == opMount || op == opClose || dockOnly.contains op then none else some stClosed
  | .fault => if inq || op == opAlcoveLoad || op == opAlcoveSwap then none else some stAlcoveBad

/-- Step 7 of R245: RANGE for an INQUIRE page above 7 (R324); NOT-READY while a dock operation runs, but for the
pages R328 leaves; then R142. -/
def Card.step7 (c : Card) (op : Byte) (f : Frame) : Option Status :=
  if op = opInquire ∧ 7 < f.arg.toNat then some stRange
  else
    match c.alcove.service with
    | some _ =>
      if op = opInquire ∧ (f.arg = 0 ∨ (f.arg = 2 ∧ c.phase ≠ .fault)) then none else some stNotReady
    | none => stateAnswer c.phase op f.arg.toNat

/-- The fields a command gives no use are zero (R234, R259, R309), and only ALCOVE LOAD is extended (R255). -/
def fieldsOk (op : Byte) (f : Frame) : Bool :=
  let high := f.flags &&& 0xFE
  (f.ext.isSome == (op == opAlcoveLoad)) &&
  (if op = opRead ∨ op = opVerify then f.arg == 0 && high == 0
   else if op = opStream then f.count == 0 && high == 0
   else if op = opStop then f.sector == 0 && f.count == 0 && decide (f.arg.toNat < 64) && f.flags == 0
   else if op = opWrite then high == 0 && (f.flags == 1 || f.arg == 0)
   else if op = opDiscardZ ∨ op = opDiscardH then f.arg == 0 && f.flags == 0
   else if op = opLand ∨ op = opRollback ∨ op = opQuiet then f.count == 0 && f.flags == 0
   else if op = opService then f.count == 0
   else if op = opClose then
     f.sector == 0 && f.count == 0 && high == 0 && (f.flags == 0 || f.arg == 0)
   else if op = opInquire then f.sector == 0 && f.count == 0 && f.flags == 0
   else if op = opAlcoveLoad then f.count == 0 && f.arg == 0 && high == 0
   else f.sector == 0 && f.count == 0 && f.arg == 0 && f.flags == 0)

/-- The payload length of an extended frame that its port allows (R232, R254). -/
def lengthOk (f : Frame) : Bool :=
  match f.ext with
  | none => true
  | some p => f.port == .dci && decide (4 ≤ p.length ∧ p.length ≤ 508 ∧ p.length % 4 = 0)

/-- Bytes 0 to 15 of a frame (R232). -/
def frameBytes (op : Byte) (f : Frame) : List Byte :=
  let head := [op, f.tag.setWidth 8 ||| (if f.issue then 0x40 else 0)] ++ leBytes 4 f.sector.toNat ++
    leBytes 2 f.count.toNat ++ leBytes 4 f.arg.toNat ++ [f.flags, 0]
  head ++ leBytes 2 (crc16 head).toNat

/-- The CRC-32C an extended frame closes with (R254). -/
def frameCrcx (op : Byte) (f : Frame) : Option (BitVec 32) := f.ext.map (fun p => crc32c (frameBytes op f ++ p))

/-- The table entry a frame takes. -/
def entryOf (op : Byte) (f : Frame) (st : TagState) : TagEntry :=
  { port := f.port, issue := f.issue, opcode := op, sector := f.sector, count := f.count, arg := f.arg,
    flags := f.flags, crcx := frameCrcx op f, state := st }

/-- The port, bytes 0-13 and CRC-32C of a frame are those of an entry (R245 step 3). -/
def sameFrame (op : Byte) (f : Frame) (e : TagEntry) : Bool :=
  e.port == f.port && e.opcode == op && e.sector == f.sector && e.count == f.count && e.arg == f.arg &&
    e.flags == f.flags && e.crcx == frameCrcx op f

/-- The card receives frames on a port: from LOADING on, with HCLK, the port present and its characters aligned
(R54, R142, R228). -/
def Card.receives (c : Card) (p : Port) : Bool :=
  c.phase != .absent && c.phase != .poweredUnclocked && c.power.hclk && c.portUp p &&
    (match p with | .ci => c.ports.alignedCi | .dci => c.ports.alignedDci)

/-- Refuse a frame with an INTERIM BAD-FRAME (R229, R247). -/
def Card.badFrame (c : Card) (p : Port) (tagBits : Tag) (cause byte0 : Byte) : Card :=
  ((c.sendInterim p tagBits stBadFrame (info3 cause.toNat byte0.toNat 0)).bump 4 1).ev 4
    [match p with | .ci => 0 | .dci => 1, cause, byte0]

/-- Answer a new command at once, its entry completed with the answer (R245 steps 5 to 7). -/
def Card.answer (c : Card) (op : Byte) (f : Frame) (st : Status) (info : BitVec 24) : Card :=
  (c.sendFinal f.port f.tag st info false).putTag f.tag (entryOf op f (.completed st info))

/-- Count a command taken: step 5 reached (BC-02, BC-03). -/
def Card.countTaken (c : Card) (p : Port) : Card := c.bump (match p with | .ci => 2 | .dci => 3) 1

/-- The tag is outstanding from now on, with the work `k` its entry starts with (R245 step 8; EV-00). -/
def Card.taken (c : Card) (op : Byte) (f : Frame) (k : Cmd) : Card :=
  let c := { c with ports := { c.ports with order := c.ports.order + 1 } }
  (c.putTag f.tag (entryOf op f (.outstanding k))).ev 0
    ([op, f.tag.setWidth 8 ||| (if f.issue then 0x40 else 0) ||| (match f.port with | .ci => 0 | .dci => 0x80)] ++
      leBytes 4 f.sector.toNat ++ leBytes 2 f.count.toNat)

/-- Step 8: the command is taken, then its own chapter applies. -/
def Card.begin (c : Card) (op : Byte) (f : Frame) (k : Cmd) (body : Card → Card) : Card :=
  let c := c.taken op f k
  if fieldsOk op f then body c else c.finish f.tag stProtocol 0 false

/-- Steps 5 to 8 of R245. -/
def Card.newCommand (c : Card) (op : Byte) (f : Frame) (k : Cmd) (body : Card → Card) : Card :=
  let c := c.countTaken f.port
  if !listed op then c.answer op f stProtocol 0
  else if !entitled f.port op then c.answer op f stPortRefused 0
  else
    match c.step7 op f with
    | some st => c.answer op f st 0
    | none => c.begin op f k body

/-- A received command frame goes through R245; `body` is the command's chapter, reached at step 8. -/
def Card.receive (c : Card) (op : Byte) (f : Frame) (k : Cmd) (body : Card → Card) : Card :=
  if !c.receives f.port then c
  else if !lengthOk f then c.badFrame f.port f.tag 0x03 op
  else
    match c.tagEntry f.tag with
    | none => c.newCommand op f k body
    | some e =>
      match e.state with
      | .outstanding _ => c.sendInterim f.port f.tag stTagBusy 0
      | .completed st info =>
        if e.issue = f.issue then
          if sameFrame op f e then
            c.sendFinal f.port f.tag stDuplicate (info3 st.toNat (infoByte info 0).toNat (infoByte info 1).toNat) false
          else c.sendFinal f.port f.tag stProtocol 0 false
        else c.newCommand op f k body

/-- Info of LANE-CHECK: failed lanes and cause (R198). -/
def laneCheckInfo (mask : BitVec 4) (cause : Nat) : BitVec 24 := info3 mask.toNat cause 0

/-- A command that needs a lane transfer while the link is training ends with LANE-CHECK, cause 0x05, mask 0
(R221); otherwise `body` goes on. -/
def Card.needLanes (c : Card) (t : Tag) (body : Card → Card) : Card :=
  if c.linkUp then body c else c.finish t stLaneCheck (laneCheckInfo 0 5) false

/-- A frame's length is allowed on its port: 16 bytes; on DCI also 24 to 528 in fours (R232, R254). -/
def bytesAllowed (p : Port) (n : Nat) : Bool :=
  decide (n = 16) || (p == .dci && decide (24 ≤ n ∧ n ≤ 528 ∧ n % 4 = 0))

/-- Some bit of bytes 0 to 15 that must be zero is set (R232). -/
def reservedSet (b : List Byte) : Bool :=
  (b.getD 1 0).getLsbD 7 || (b.getD 7 0 &&& 0xFC) != 0 || b.getD 13 0 != 0

/-- The cause a frame received on a port is refused with, the first that applies (R247); none where it passes R229. -/
def badCause (p : Port) (b : BadFrame) : Option Byte :=
  let n := b.bytes.length
  if b.code then some 0x02
  else if !bytesAllowed p n then some 0x03
  else if leNat ((b.bytes.drop 14).take 2) ≠ (crc16 (b.bytes.take 14)).toNat then some 0x01
  else if 16 < n ∧ leNat (b.bytes.drop (n - 4)) ≠ (crc32c (b.bytes.take (n - 4))).toNat then some 0x05
  else if reservedSet b.bytes then some 0x04
  else none

end Sys2Proof.Machine
end

