-- ==== Sys2Proof/Machine/Halls.lean ====
section
/-! DEFINITION. Hall queues and dies: queuing a descriptor, starting the next one on a die, and what happens when
a read, a program and an erase meet on one die (R432, R433, R436, R439, R440, R605). -/

namespace Sys2Proof.Machine

open Sys2Proof

/-- The control descriptor a die executes beside its READ or PROGRAM, where there is one: HEAT while its heater is on,
SUSPEND until it has suspended its erase (R434). A RESUME has done its work when it is issued. -/
def Die.control (n : Nat) (d : Die) : Option Desc :=
  match d.heat, d.erase with
  | .heating, _ => some (.heat n)
  | _, some e => if e.stage = .suspending then some (.suspend n) else none
  | _, none => none

/-- Replace the stage of the erase a die holds. -/
def Card.setStage (c : Card) (n : Nat) (s : EraseStage) : Card :=
  match (c.die n).erase with
  | some e => c.setDie n { c.die n with erase := some { e with stage := s } }
  | none => c

/-- A control descriptor is issued to its die at once: it acts on what the die does and waits for nothing in the hall's queue
(R434; log entry 94). RESUME completes as it is issued; RESET-DIE ends whatever the die does. -/
def Card.issue (c : Card) (d : Desc) : Card :=
  match d with
  | .suspend n => c.setStage n .suspending
  | .resume n => (c.setStage n .running).complete d .ok
  | .resetDie n => c.setDie n { c.die n with op := none, erase := none }
  | .heat n => c.setDie n { c.die n with heat := .heating }
  | _ => c

/-- The die takes no descriptor for its anneal: from HEAT to the end of step 3, or cut short, it does not (R462, R463). -/
def HeatStage.shut : HeatStage → Bool
  | .heating | .cooling => true
  | .cold | .hot => false

/-- The write pointer of a wing's block in a hall: its next page to program (R436). -/
def Card.writePointer (c : Card) (w h : Nat) : Nat :=
  match c.blockOf w h with
  | some b => KV.getD c.media.pointers (blockKey h (dieRow w) b) 0
  | none => 0

/-- Set the write pointer of a wing's block in a hall. -/
def Card.setPointer (c : Card) (w h n : Nat) : Card :=
  match c.blockOf w h with
  | some b => { c with media := { c.media with
      pointers := if n = 0 then KV.drop c.media.pointers (blockKey h (dieRow w) b)
        else KV.put c.media.pointers (blockKey h (dieRow w) b) n } }
  | none => c

/-- Treads until a running window's end (R449). -/
def Window.left (w : Window) (c : Tread) : Nat := if treadNotPast w.stop c then treadAhead w.stop c else 0

/-- A quiet window is running (R23). -/
def Card.quietNow (c : Card) : Bool := c.maint.running.any Window.quiet

/-- A service window that grants kind bit `k` is running with at least `need` treads left (R309, R449). -/
def Card.grants (c : Card) (k need : Nat) : Bool :=
  c.maint.running.any (fun w => !w.quiet && w.kinds.getLsbD k && decide (need ≤ w.left c.treads.c))

/-- An exclusive service window is running. -/
def Card.exclusive (c : Card) : Bool := c.grants 7 0

/-- The WRITE of a tag is outstanding and goes on. -/
def Card.writing (c : Card) (t : Tag) : Bool :=
  match c.cmdOf t with
  | some (.write _) => true
  | _ => false

/-- A die executes an erase of the wing. -/
def Card.eraseRuns (c : Card) (w : Nat) : Bool :=
  c.halls.dies.any (fun x => match x.2.erase with
    | some e => e.wing == w && e.stage != .suspended
    | none => false)

/-- The card may resume an erase: one that inline reclaim started, inside its WRITE (R25, R29); a window's, while a
window with the erase kind has 8 ms left (R449, R450). -/
def Card.mayResume (c : Card) (o : EraseOwner) : Bool :=
  match o with
  | .inline t => c.writing t
  | .window => c.grants 1 Config.eraseTreads && !c.quietNow

/-- Wing erases that run, or that a WRITE carries and that so run on: at most four run at once (R450). -/
def Card.activeErases (c : Card) (w : Nat) : Nat :=
  (c.halls.erases.filter (fun x => x.1 != w && (c.eraseRuns x.1 || x.2.owner != .window))).length

/-- Wing `w`'s erase may run on beside the others (R450). -/
def Card.eraseRoom (c : Card) (w : Nat) : Bool := c.eraseRuns w || decide (c.activeErases w < Config.windowErases)

/-- The card may start an erase: as it may resume one, and never in a quiet window (R22, R23, R449). -/
def Card.mayBegin (c : Card) (o : EraseOwner) : Bool := c.mayResume o && !c.quietNow

/-- A hall's queue. -/
def Card.queue (c : Card) (h : Nat) : List Desc := KV.getD c.halls.queues h []
/-- Replace a hall's queue. -/
def Card.setQueue (c : Card) (h : Nat) (q : List Desc) : Card :=
  { c with halls := { c.halls with queues := if q.isEmpty then KV.drop c.halls.queues h else KV.put c.halls.queues h q } }
/-- A hall's held-back descriptors (R433). -/
def Card.backList (c : Card) (h : Nat) : List Desc := KV.getD c.halls.back h []
/-- Replace a hall's held-back descriptors. -/
def Card.setBack (c : Card) (h : Nat) (q : List Desc) : Card :=
  { c with halls := { c.halls with back := if q.isEmpty then KV.drop c.halls.back h else KV.put c.halls.back h q } }

/-- A hall is in reset (R508 step 1). -/
def Card.resetting (c : Card) (h : Nat) : Bool := (KV.find c.halls.resets h).isSome

/-- The relocation whose copy is at position `k`. -/
def Card.moveAt (c : Card) (k : Nat) : Option (Nat × Move) := c.halls.moves.find? (fun x => x.2.dst == some k)

/-- The program of the image at `k` may start: a copy's for the relocation it belongs to, which in a service window R449
allowed to start and for inline reclaim goes on inside its WRITE and outside quiet windows; any other's inside a transaction
that programs bays (R18, R22, R23, R28). -/
def Card.mayProgram (c : Card) (k : Nat) : Bool :=
  match c.moveAt k with
  | some (_, m) =>
    if m.why.isInline then !m.ended && !c.quietNow else if m.why = .redrive then c.carrying else true
  | none => c.carrying

/-- A read for this purpose may start (R18, R22, R23, R449): a patrol's only while its window has 0.2 ms left; a
relocation's inside its transaction, one of reclaim outside quiet windows; a gallery's completion inside a transaction that
programs bays. -/
def Card.mayReadFor (c : Card) (p : Purpose) (margin : Bool) : Bool :=
  match p with
  | .patrol => !margin || (c.grants 3 Config.marginTreads && !c.quietNow)
  | .move id => match KV.find c.halls.moves id with
    | some m => !m.ended && !((m.why.isInline || m.why == .reclaim) && c.quietNow)
    | none => false
  | .completion => c.carrying
  | _ => true

/-- The read of a job may start; a rebuild's as the read it serves may. -/
def Card.mayRead (c : Card) (j : ReadJob) (margin : Bool) : Bool :=
  match j.purpose with
  | .rebuild i => (KV.find c.halls.jobs i).any (fun p => c.mayReadFor p.purpose false)
  | p => c.mayReadFor p margin

/-- A queued descriptor may start (R22, R449, R605): a read that something waits for; a program and an erase inside their
transactions, the erase on a die that holds none. -/
def Card.mayStart (c : Card) (d : Desc) : Bool :=
  match d with
  | .read id _ margin _ _ => (KV.find c.halls.jobs id).any (fun j => c.mayRead j margin)
  | .program k => c.mayProgram k
  | .erase w _ => (c.die d.die).erase.isNone && (match KV.find c.halls.erases w with
    | some e => c.mayBegin e.owner
    | none => false)
  | _ => false

/-- The first descriptor of a queue for a die that may start. -/
def Card.firstFor (c : Card) (n : Nat) (q : List Desc) : Option Desc :=
  q.find? (fun d => d.die == n && c.mayStart d)

/-- A descriptor starts on a die: it leaves the queue. -/
def Card.startDesc (c : Card) (n : Nat) (d : Desc) : Card :=
  let die := c.die n
  let c := c.setQueue (n / 16) ((c.queue (n / 16)).erase d)
  match d with
  | .erase w _ =>
    let owner := match KV.find c.halls.erases w with | some e => e.owner | none => .window
    c.setDie n { die with erase := some { wing := w, owner := owner, stage := .running } }
  | _ => c.setDie n { die with op := some d }

/-- A queued program of this die may start. -/
def Card.programFor (c : Card) (n : Nat) : Bool :=
  (c.queue (n / 16)).any (fun d => match d with
    | .program _ => d.die == n && c.mayStart d
    | _ => false)

/-- Start one thing a die can start: the next descriptor of its hall's queue by the die-collision table (R432, R439), or
its suspended erase again when nothing waits. Inside an exclusive window a waiting read leaves a running erase alone, a
waiting program suspends it (R402, R439). -/
def Card.pumpOne (c : Card) (n : Nat) : Card :=
  let die := c.die n
  if !c.power.hclk || c.resetting (n / 16) || die.fenced || die.heat.shut || die.op.isSome then c
  else
    match c.firstFor n (c.queue (n / 16)), die.erase with
    | some d, none => c.startDesc n d
    | some d, some e =>
      match e.stage with
      | .suspended => c.startDesc n d
      | .suspending => c
      | .running => if c.exclusive && !c.programFor n then c else c.issue (.suspend n)
    | none, some e =>
      if e.stage = .suspended ∧ c.mayResume e.owner ∧ c.eraseRoom e.wing then c.issue (.resume n) else c
    | none, none => c

/-- Start what a die can start; what waits behind an ERASE that has just started suspends it at once (R439). -/
def Card.pump (c : Card) (n : Nat) : Card := (c.pumpOne n).pumpOne n

/-- Start what can start on every die that has something queued: a transaction has begun, or HCLK is back. -/
def Card.pumpAll (c : Card) : Card :=
  ((c.halls.queues.flatMap (fun x => x.2.map Desc.die)).dedup).foldl Card.pump c

/-- The bay of a landing or rollback is issued: its PROGRAM has entered the hall's queue, `cycles` after the action's
execution (R379 step 4, R380; EV-13). -/
def Card.noteIssued (c : Card) (a : Action) (k cycles : Nat) : Card :=
  let c : Card := { c with flights := { c.flights with acts := c.flights.acts.map (fun x =>
    if x.closed = a.closed then { x with stage := .issued k } else x) } }
  if a.rollback then c else c.ev 13 (leBytes 4 a.flight.toNat ++ leBytes 3 cycles)

/-- The PROGRAM of the image at `k` is in its hall's queue, or on its die; a hall in reset has issued nothing it holds queued
(R508). -/
def Card.programIssued (c : Card) (k : Nat) : Bool :=
  (!c.resetting (keyHall k) && (c.queue (keyHall k)).contains (.program k)) || (c.die (keyDie k)).op == some (.program k)

/-- Every landing or rollback whose bay's PROGRAM has come to be issued, by the ticks since its execution (R380). -/
def Card.noteActs (c : Card) : Card :=
  c.flights.acts.foldl (fun c a => match a.stage with
    | .assigned k =>
      if c.programIssued k then c.noteIssued a k (Config.treadCycles * (c.treads.ticks - a.begun)) else c
    | _ => c) c

/-- Queue a descriptor, or hold it back where the hall's queue is full (R433). -/
def Card.enqueue (c : Card) (d : Desc) : Card :=
  let h := d.hall
  if (c.queue h).length < Config.hallQueue ∧ (c.backList h).isEmpty then
    (c.setQueue h (c.queue h ++ [d])).pump d.die
  else c.setBack h (c.backList h ++ [d])

/-- Queue several descriptors in order. -/
def Card.enqueueAll (c : Card) (ds : List Desc) : Card := ds.foldl Card.enqueue c

/-- The cut-off of a landing or rollback has not passed, by the ticks since its execution (R380, R395). -/
def Card.inTime (c : Card) (a : Action) : Bool :=
  decide (Config.treadCycles * (c.treads.ticks - a.begun) ≤ Config.cutoffCycles)

/-- The bay of a landing or rollback whose cut-off has passed (R380, R395). -/
def Card.bayLate (c : Card) (b : Bay) : Bool :=
  !b.reloc && c.flights.acts.any (fun a => a.bay == some b.seq && !c.inTime a)

/-- A PROGRAM of a bay of a landing or rollback past its cut-off, which is not issued (R380, R395). -/
def Card.lateDesc (c : Card) (d : Desc) : Bool :=
  match d with
  | .program k => (KV.find c.media.vest k).any c.bayLate
  | _ => false

/-- A PROGRAM is issued for the image at `k`, which takes the wing's class as the card holds it now (R413); none for the bay
of a landing or rollback past its cut-off (R380). -/
def Card.issueProgram (c : Card) (k : Nat) : Card :=
  if c.lateDesc (.program k) then c else
  let c := match KV.find c.media.vest k with
    | some b => { c with media := { c.media with
        vest := KV.put c.media.vest k { b with pclass := (c.wing (keyWing k)).cls } } }
    | none => c
  c.enqueue (.program k)

/-- Room has opened in a full hall queue: the first held-back descriptor enters, less the bay of a landing or rollback past
its cut-off (R380, R433). -/
def Card.requeue (c : Card) (h : Nat) : Card :=
  match (c.backList h).filter (fun d => !c.lateDesc d) with
  | [] => c.setBack h []
  | d :: r =>
    if (c.queue h).length < Config.hallQueue then
      (((c.setBack h r).setQueue h (c.queue h ++ [d])).pump d.die).noteActs
    else c

/-- Every descriptor queued or held back is dropped before its execution and completes ABORTED (R435). -/
def Card.abortQueued (c : Card) : Card := c.keepDescs (fun _ => false)

end Sys2Proof.Machine
end

