-- ==== Sys2Proof/Machine/Ladder.lean ====
section
/-! DEFINITION. The recovery ladder: starting a read of a bay, its steps, its rebuild from parity (R486 to R494). -/

namespace Sys2Proof.Machine

open Sys2Proof

/-- What a position holds. -/
def Card.cellAt (c : Card) (k : Nat) : Option Cell := KV.find c.media.cells k

/-- The bay at a position: its vestibule image while that is held (R489), else what the page holds. -/
def Card.bayAt (c : Card) (k : Nat) : Option Bay :=
  match KV.find c.media.vest k with
  | some b => some b
  | none => match c.cellAt k with
    | some (.bay b) => some b
    | _ => none

/-- The die accepts no descriptor now: fenced, or between step 2 and the end of step 3 of an anneal (R490). -/
def Card.dieShut (c : Card) (n : Nat) : Bool := (c.die n).fenced || (c.die n).heat.shut

/-- The positions a gallery's parity covers with the parity bay itself, from the parity bay on the media. -/
def Card.paritySet (c : Card) (k : Nat) : Option (List Nat) :=
  let base := posKey (keyWing k) (keyGallery k) 0
  let parity := allHalls.findSome? (fun h => match c.cellAt (base + h) with
    | some (.bay b) => match b.body with
      | .parity m => some ((base + h) :: m)
      | _ => none
    | _ => none)
  match parity with
  | some m => if m.contains k then some (m.filter (fun x => x != k)) else none
  | none => none

/-- The positions a rebuild of the bay at `k` reads: none where the gallery has no parity, one of them lies on a die that
accepts no descriptor, or the bay lies on a fenced die and its gallery has a missing position besides (R486, R512). -/
def Card.rebuildSet (c : Card) (k : Nat) : Option (List Nat) :=
  match c.paritySet k with
  | some m =>
    if m.any (fun x => c.dieShut (keyDie x)) || ((c.die (keyDie k)).fenced && decide (m.length < 15)) then none else some m
  | none => none

/-- No read of the bay can begin: its die accepts no descriptor, and it cannot be rebuilt (R486, R490, R512). -/
def Card.unreachable (c : Card) (k : Nat) : Bool := c.dieShut (keyDie k) && (c.rebuildSet k).isNone

/-- Write a read job. -/
def Card.putJob (c : Card) (id : Nat) (j : ReadJob) : Card :=
  { c with halls := { c.halls with jobs := KV.put c.halls.jobs id j } }

/-- Forget a read job. -/
def Card.dropJob (c : Card) (id : Nat) : Card :=
  { c with halls := { c.halls with jobs := KV.drop c.halls.jobs id } }

/-- A fresh identifier for a read job or a relocation. -/
def Card.newId (c : Card) : Card × Nat :=
  ({ c with halls := { c.halls with nextId := c.halls.nextId + 1 } }, c.halls.nextId)

/-- Start one of the reads of a rebuild: steps 1 to 3 only (R488). -/
def Card.startKid (c : Card) (parent : Nat) (mask : BitVec 16) (k : Nat) : Card :=
  let (c, id) := c.newId
  (c.putJob id { key := k, purpose := .rebuild parent, stage := .normal, left := mask, soft := 0, weak := false,
                 step := 1, beyond := 0, kids := 0, kidFailed := false, beyondHelp := 0 }).enqueue
    (.read id k false mask 0)

/-- Mark a wing for refresh, once; the trigger as EV-27 codes it (R469, R492, R282, R473). -/
def Card.markRefresh (c : Card) (w trigger : Nat) : Card :=
  let v := c.wing w
  match v.mark with
  | some _ => c
  | none =>
    let c := c.setWing w { v with mark := some c.media.clock }
    ({ c with media := { c.media with clock := c.media.clock + 1 } }.bump 60 1).ev 27
      (leBytes 2 w ++ [BitVec.ofNat 8 trigger])

/-- Bits set. -/
def popCount {n : Nat} (m : BitVec n) : Nat := ((List.range n).filter (fun i => m.getLsbD i)).length

/-- A read met a trigger of R492: its wing is marked. VERIFY and patrol mark by their own rules. -/
def Card.markRead (c : Card) (j : ReadJob) : Card :=
  match j.purpose with
  | .verify _ _ | .patrol => c
  | _ => c.markRefresh (keyWing j.key) 2

/-- A bay needed a step beyond hard decode (EV-25). -/
def Card.traceStep (c : Card) (j : ReadJob) (step : Nat) : Card :=
  c.ev 25 (leBytes 2 (keyWing j.key) ++ leBytes 2 (keyGallery j.key) ++
    [BitVec.ofNat 8 (keyHall j.key), BitVec.ofNat 8 step, BitVec.ofNat 8 (popCount j.beyond)])

/-- Step 4: the same codewords of every other position of the gallery are read, and the wing is marked (R492). The rebuild
fails at once where it cannot be made (R486, R512). A job at step 4 with no read outstanding has ended. -/
def Card.startRebuild (c : Card) (id : Nat) (j : ReadJob) : Card :=
  let c := (c.bump 58 1).markRead j
  let j := { j with stage := .rebuild, step := 4, beyond := j.beyond ||| j.left }
  match c.rebuildSet j.key with
  | none => (c.traceStep j 5).putJob id { j with kids := 0, kidFailed := true, beyondHelp := j.left }
  | some m => m.foldl (fun c k => c.startKid id j.left k) (c.putJob id { j with kids := m.length })

/-- Start reading a bay. `strict` begins at the stricter thresholds (VERIFY, patrol). A bay on a die that accepts no
descriptor goes straight to step 4 (R490), which VERIFY does not take: it grades FAIL (R280). -/
def Card.startJob (c : Card) (k : Nat) (p : Purpose) (strict : Bool) : Card :=
  let (c, id) := c.newId
  let j : ReadJob := { key := k, purpose := p, stage := if strict then .strict else .normal, left := 0xFFFF,
                       soft := 0, weak := false, step := 1, beyond := 0, kids := 0, kidFailed := false, beyondHelp := 0 }
  if c.dieShut (keyDie k) then
    match p with
    | .verify _ _ => c.putJob id { j with stage := .rebuild, kidFailed := true, beyondHelp := 0xFFFF }
    | _ => c.startRebuild id j
  else (c.putJob id j).enqueue (.read id k strict 0xFFFF 0)

/-- A READ or MARGIN-READ has executed on a page of a wing: its read count rises, saturating, and marks the wing at
400,000 (R468, R469). -/
def Card.countRead (c : Card) (w : Nat) : Card :=
  let v := c.wing w
  let n := min (v.reads + 1) Config.readCountMax
  let c := c.setWing w { v with reads := n }
  if n = Config.refreshReads then c.markRefresh w 1 else c

/-- What a finished read tells of a bay that needed more than hard decode (EV-25), and the marks of R492 for retries
beyond the fifth and for soft decode. -/
def Card.noteSteps (c : Card) (j : ReadJob) (retry : Nat) : Card :=
  let c := if j.step ≤ 1 then c else c.traceStep j j.step
  if 5 < retry ∨ 8 < popCount j.soft then c.markRead j else c

/-- The codewords of a read that are still to be recovered: those that failed; all where the page read as erased (R494), or
where what decoded names another position (R417). -/
def failedOf (r : ReadReport) (mask : BitVec 16) : BitVec 16 :=
  if r.erased || r.elsewhere then mask else r.fails &&& mask

/-- The bay on a page names a position other than the page's own (R417). -/
def Card.misplaced (c : Card) (k : Nat) : Bool :=
  match c.cellAt k with
  | some (.bay b) => b.key != k
  | _ => false

/-- A job whose reads have ended: step 4 with nothing outstanding. -/
def ReadJob.ended (j : ReadJob) : Bool := j.stage == .rebuild && j.kids == 0

/-- End a job with success or failure of the codewords left: it stands at step 4 with nothing outstanding until it is
collected. -/
def Card.endJob (c : Card) (id : Nat) (j : ReadJob) (bad : Bool) : Card :=
  c.putJob id { j with stage := .rebuild, kids := 0, kidFailed := bad, beyondHelp := if bad then j.left else 0 }

/-- The relocation that a read serves belongs to a transaction that has ended: nothing but its copy's program may start
from the read (R22). -/
def Card.jobOver (c : Card) (j : ReadJob) : Bool :=
  match j.purpose with
  | .move id => (KV.find c.halls.moves id).any Move.ended
  | _ => false

/-- Forget a read job and the relocation it serves. -/
def Card.dropMoveJob (c : Card) (id : Nat) (j : ReadJob) : Card :=
  let c := c.dropJob id
  match j.purpose with
  | .move m => { c with halls := { c.halls with moves := KV.drop c.halls.moves m } }
  | _ => c

/-- One page read of a job has completed: the next step of the ladder, or its end (R486, R280). -/
def Card.stepJob (c : Card) (id : Nat) (j : ReadJob) (r : ReadReport) : Card :=
  let mask := j.left
  let fails := if c.misplaced j.key then mask else failedOf r mask
  let soft := (r.soft &&& mask) ||| fails
  match j.stage with
  | .strict =>
    if soft = 0 then c.endJob id j false
    else (c.putJob id { j with stage := .normal, left := soft, weak := true }).enqueue (.read id j.key false soft 0)
  | .normal =>
    let c := c.bump 56 (popCount soft)
    let j := { j with left := fails, soft := soft, beyond := soft, step := if soft = 0 then 1 else 2 }
    if fails = 0 then (c.noteSteps j 0).endJob id j false
    else if c.jobOver j then c.dropMoveJob id j
    else match j.purpose with
      | .verify _ _ => (c.traceStep j 2).endJob id j true
      | _ => (c.putJob id { j with stage := .shifted 1, step := 3 }).enqueue (.read id j.key false fails 1)
  | .shifted n =>
    let c := (c.bump 57 1).bump 56 (popCount soft)
    let j := { j with left := fails, soft := j.soft ||| soft }
    if fails = 0 then (c.noteSteps j n).endJob id j false
    else if c.jobOver j then c.dropMoveJob id j
    else if n < Config.maxRetries then
      (c.putJob id { j with stage := .shifted (n + 1) }).enqueue (.read id j.key false fails (n + 1))
    else match j.purpose with
      | .rebuild _ => (c.markRead j).endJob id j true
      | _ => (c.markRead j).startRebuild id j
  | .rebuild => c

/-- A read of a rebuild has ended, with the codewords it did not recover: its parent counts it, and its rebuild ends with the
last (R486). -/
def Card.kidEnded (c : Card) (parent : Nat) (kid : ReadJob) : Card :=
  match KV.find c.halls.jobs parent with
  | some j =>
    let j := { j with kids := j.kids - 1, kidFailed := j.kidFailed || kid.kidFailed,
                      beyondHelp := j.beyondHelp ||| kid.beyondHelp }
    let c := c.putJob parent j
    if j.kids = 0 then c.traceStep j (if j.kidFailed then 5 else 4) else c
  | none => c

/-- A read that its die will not execute goes to step 4; one made for a rebuild or a VERIFY fails (R280, R488, R490). -/
def Card.divertRead (c : Card) (d : Desc) : Card :=
  match d with
  | .read id _ _ _ _ => match KV.find c.halls.jobs id with
    | some j =>
      if c.jobOver j then c.dropMoveJob id j
      else match j.purpose with
        | .rebuild _ | .verify _ _ => c.endJob id j true
        | _ => c.startRebuild id j
    | none => c
  | _ => c

/-- The die accepts no descriptor from now on: the reads that wait for it go to step 4 (R463, R490). -/
def Card.divertReads (c : Card) (n : Nat) : Card :=
  let hit (d : Desc) : Bool := match d with
    | .read _ _ _ _ _ => d.die == n
    | _ => false
  let h := n / 16
  let again := ((KV.find c.halls.resets h).map HallReset.again).getD []
  let ds := (c.queue h ++ c.backList h ++ again).filter hit
  ds.foldl Card.divertRead (c.keepDescs (fun d => !hit d))

/-- Children whose reads have ended, collected by their parents. -/
def Card.collectKids (c : Card) : Card :=
  c.halls.jobs.foldl (fun c x => match x.2.purpose with
    | .rebuild p => if x.2.ended then (c.dropJob x.1).kidEnded p x.2 else c
    | _ => c) c

end Sys2Proof.Machine
end

