-- ==== Sys2Proof/Machine/Media.lean ====
section
/-! DEFINITION. Wings, galleries and bays: opening wings, assigning positions, parity, summary and filler bays,
re-driving, closing wings, pulse classes, retirement (R400 to R418, R427 to R431, R441 to R443, R456 to R458, R475 to
R482, R604, R608, R609). -/

namespace Sys2Proof.Machine

open Sys2Proof

/-- One watermark crossed downward or upward since the last evaluation (EV-32). -/
def Card.crossMark (c : Card) (old new mark code : Nat) : Card :=
  if mark ≤ old ∧ new < mark then c.ev 32 (leBytes 2 new ++ [BitVec.ofNat 8 code, 1])
  else if old < mark ∧ mark ≤ new then c.ev 32 (leBytes 2 new ++ [BitVec.ofNat 8 code, 0])
  else c

/-- Evaluate the free-wing watermarks, the highest first (R441). -/
def Card.evalMarks (c : Card) : Card :=
  let n := c.freeErased
  let o := c.maint.lastFree
  let c := { c with maint := { c.maint with lastFree := n } }
  ((c.crossMark o n Config.markS 1).crossMark o n Config.markInline 2).crossMark o n Config.markRefuse 3

/-- No bay can go to this die row: a die is fenced where the wing has a block on it, or under anneal (R443, R512). -/
def Card.rowShut (c : Card) (row : Nat) (missing : List Nat) : Bool :=
  allHalls.any (fun h => let d := c.die (dieNo h row)
    (d.fenced && !missing.contains h) || d.heat.shut)

/-- A wing that may be opened now (R412, R443, R479, R512). -/
def Card.mayOpen (c : Card) (w : Nat) : Bool :=
  (c.wing w).state == .free && !c.isWithdrawn w && !c.rowShut (dieRow w) (c.missingOf w) &&
    !(c.media.opens.any (fun o => dieRow o.wing == dieRow w))

/-- The first wing from `w` on, among `n`, that has no entry of its own and may be opened. -/
def Card.firstUnlisted (c : Card) (n w : Nat) : Option Nat :=
  match n with
  | 0 => none
  | k + 1 =>
    if (KV.find c.media.wings w).isNone && c.mayOpen w then some w else c.firstUnlisted k (w + 1)

/-- The wings to choose from: the listed ones that may be opened, and the first unlisted one of each die row, with
their classes. -/
def Card.openable (c : Card) : List (Nat × Nat) :=
  (c.media.wings.filter (fun x => c.mayOpen x.1)).map (fun x => (x.1, x.2.cls)) ++
    (allHalls.filterMap (fun row =>
      if c.media.opens.any (fun o => dieRow o.wing == row) || (c.rowShut row [] && c.narrowWings.isEmpty) then none
      else c.firstUnlisted Config.wingSlots (row * Config.wingSlots))).map (fun w => (w, (c.wing w).cls))

/-- The better of two wings: lowest class, then lowest index (R443). -/
def lowerClass (a b : Nat × Nat) : Nat × Nat :=
  if b.2 < a.2 ∨ (b.2 = a.2 ∧ b.1 < a.1) then b else a

/-- The better of two wings for a static-levelling move: highest class, then lowest index (R467). -/
def higherClass (a b : Nat × Nat) : Nat × Nat :=
  if a.2 < b.2 ∨ (b.2 = a.2 ∧ b.1 < a.1) then b else a

/-- The best of a list. -/
def bestOf (f : Nat × Nat → Nat × Nat → Nat × Nat) (l : List (Nat × Nat)) : Option (Nat × Nat) :=
  match l with
  | [] => none
  | x :: r => some (r.foldl f x)

/-- A gallery no position of which is assigned yet. -/
def Gallery.fresh (g : Nat) (missing : List Nat) : Gallery :=
  { g := g, missing := missing, lost := [], taken := [], done := [], parityIssued := false }

/-- Open wing `w` (EV-28). -/
def Card.openWing (c : Card) (w : Nat) (move : Bool) : Card :=
  let v := c.wing w
  let o : OpenWing := { wing := w, gals := [.fresh 0 (c.missingNow w)], move := move, short := false, failed := [],
                        barred := [], stale := false, noSummary := false }
  let c := c.setWing w { v with state := .opened, visited := false }
  { c with media := { c.media with opens := c.media.opens ++ [o] } }.ev 28 (leBytes 2 w ++ [BitVec.ofNat 8 v.cls])

/-- Before a position is assigned with fewer than four wings open, one is opened if one can be (R443, R604); for a user DATA
bay none of the reserve's eight (R442). -/
def Card.ensureOpen (c : Card) (user : Bool) : Card :=
  if c.media.opens.length < 4 ∧ (user → Config.markRefuse < c.freeErased) then
    match bestOf lowerClass c.openable with
    | some (w, _) => c.openWing w false
    | none => c
  else c

/-- An open wing. -/
def Card.openOf (c : Card) (w : Nat) : Option OpenWing := c.media.opens.find? (fun o => o.wing == w)

/-- Replace an open wing. -/
def Card.setOpen (c : Card) (o : OpenWing) : Card :=
  { c with media := { c.media with opens := c.media.opens.map (fun x => if x.wing = o.wing then o else x) } }

/-- Replace the first gallery of an open wing. -/
def OpenWing.setFirst (o : OpenWing) (g : Gallery) : OpenWing :=
  match o.gals with
  | [] => o
  | _ :: r => { o with gals := g :: r }

/-- Replace one gallery of an open wing. -/
def OpenWing.setGal (o : OpenWing) (g : Gallery) : OpenWing :=
  { o with gals := o.gals.map (fun x => if x.g = g.g then g else x) }

/-- The user positions of a gallery not assigned yet, ascending. -/
def Gallery.room (g : Gallery) : List Nat := (userHalls g.g g.missing).filter (fun h => !g.taken.contains h)

/-- The gallery of an open wing that takes the next bay: the first that has room, else the one after the last (R410; log
entry 98). -/
def Card.nextGallery (c : Card) (o : OpenWing) : Option (OpenWing × Gallery) :=
  if o.short then none
  else
    let gals := o.gals.map (fun g => if g.taken.isEmpty then { g with missing := (c.missingFor o ++ g.lost).dedup } else g)
    match gals.find? (fun g => !g.room.isEmpty) with
    | some g => some ({ o with gals := gals }, g)
    | none => match gals.getLast? with
      | some g =>
        if g.g < 383 then
          let n := Gallery.fresh (g.g + 1) (c.missingFor o)
          some ({ o with gals := gals ++ [n] }, n)
        else none
      | none => none

/-- The open wings that take part in the round robin and have room, in ascending index (R604). -/
def Card.robin (c : Card) : List Nat :=
  sortBy (fun x y => decide (x ≤ y)) ((c.media.opens.filter (fun o => !o.move && (c.nextGallery o).isSome)).map OpenWing.wing)

/-- The wing that takes the next position: the first after the wing that took the previous one, wrapping (R604). -/
def Card.turn (c : Card) : Option Nat :=
  let r := c.robin
  match c.media.lastWing with
  | none => r.head?
  | some l => match r.find? (fun w => decide (l < w)) with
    | some w => some w
    | none => r.head?

/-- An image goes to the vestibule at its position, the watermarks are evaluated (R441), and its program is issued unless
an earlier gallery of its wing is not yet complete (R410, R412, R427; log entry 17). -/
def Card.lodge (c : Card) (o : OpenWing) (g : Gallery) (b : Bay) : Card :=
  let c := ({ c with media := { c.media with vest := KV.put c.media.vest b.key b } }).evalMarks
  match o.gals.head? with
  | some f => if f.g = g.g ∧ !o.stale then c.issueProgram b.key else c
  | none => c

/-- Take a data position of a gallery for a bay. -/
def Card.takeHall (c : Card) (o : OpenWing) (g : Gallery) (h : Nat) (b : Bay) : Card :=
  let b := { b with key := posKey o.wing g.g h }
  let g := { g with taken := g.taken ++ [h] }
  let o := o.setGal g
  (c.setOpen o).lodge o g b

/-- Assign a bay to the next data position of wing `w`. -/
def Card.assignIn (c : Card) (w : Nat) (b : Bay) : Card × Option Nat :=
  match c.openOf w with
  | none => (c, none)
  | some o => match c.nextGallery o with
    | none => (c, none)
    | some (o, g) => match g.room with
      | [] => (c, none)
      | h :: _ => ((c.setOpen o).takeHall o g h b, some (posKey w g.g h))

/-- A bay's fields as a new bay has them: the sequence taken from the counter, the slot of the last MOUNT (R413,
R415). -/
def Card.stampBay (c : Card) (b : Bay) : Card × Bay :=
  ({ c with media := { c.media with seq := c.media.seq + 1 } },
    { b with seq := c.media.seq, slot := c.straps.mountSlot })

/-- A bay before it has a position. -/
def newBay (kind : BayKind) (addr : Nat) (mask : BitVec 16) (ord : Nat) (body : Body) : Bay :=
  { kind := kind, addr := addr, mask := mask, seq := 0, ord := ord, slot := 0, pclass := 0, key := 0,
    reloc := false, body := body }

/-- Put a bay of the card's own making (FILLER, SUMMARY, PARITY) at hall `h` of a gallery of an open wing. -/
def Card.addOwn (c : Card) (w : Nat) (g : Gallery) (h : Nat) (kind : BayKind) (body : Body) : Card :=
  match c.openOf w with
  | none => c
  | some o =>
    let (c, b) := c.stampBay (newBay kind 0 0 c.flights.openOrd body)
    let b := { b with key := posKey w g.g h }
    let g := if kind = .parity then { g with parityIssued := true } else { g with taken := g.taken ++ [h] }
    let o := o.setGal g
    (c.setOpen o).lodge o g b

/-- The entries of a wing's summary: every other programmed data position, in order (R418). -/
def Card.summaryEntries (c : Card) (w : Nat) (failed : List (Nat × Nat)) : List SummaryEntry :=
  c.media.cells.filterMap (fun x => match x.2 with
    | .bay b =>
      if keyWing x.1 = w ∧ b.kind ≠ .parity ∧ !(failed.any (fun f => f.1 == x.1)) then
        some { gallery := keyGallery x.1, hall := keyHall x.1, kind := b.kind, addr := b.addr, mask := b.mask,
               seq := b.seq, ord := b.ord, reloc := b.reloc }
      else none
    | .torn => none)

/-- Completion reads of the wing are outstanding (R155). -/
def Card.completing (c : Card) (w : Nat) : Bool :=
  c.halls.jobs.any (fun x => x.2.purpose == .completion && keyWing x.2.key == w)

/-- Forget images. -/
def Card.release (c : Card) (ks : List Nat) : Card :=
  { c with media := { c.media with vest := ks.foldl KV.drop c.media.vest, drawn := ks.foldl KV.drop c.media.drawn } }

/-- Where a position stands in the order in which a wing's positions are assigned: by gallery, the parity's last
(R410, R411). -/
def Card.assignOrder (c : Card) (k : Nat) : Nat :=
  let torn := allHalls.filter (fun h => c.cellAt (posKey (keyWing k) (keyGallery k) h) == some .torn)
  17 * keyGallery k + (if keyHall k = parityHall (keyGallery k) (c.missingOf (keyWing k) ++ torn) then 16 else keyHall k)

/-- The last programmed bay of a wing: the last of its positions that hold one. -/
def Card.lastBay (c : Card) (w : Nat) : Option Bay :=
  (c.media.cells.foldl (fun (m : Option (Nat × Bay)) x => match x.2 with
    | .bay b =>
      if keyWing x.1 ≠ w then m
      else match m with
        | some y => if y.1 ≤ c.assignOrder x.1 then some (c.assignOrder x.1, b) else m
        | none => some (c.assignOrder x.1, b)
    | .torn => m) none).map Prod.snd

/-- The sequence of a wing's last programmed bay, 0 with none. -/
def Card.lastSeq (c : Card) (w : Nat) : Nat := ((c.lastBay w).map Bay.seq).getD 0

/-- The sequence of the wing's summary bay, or of its last programmed bay where it has none (R418, R446). -/
def Card.closeSeqOf (c : Card) (w : Nat) : Nat :=
  let s := c.media.cells.findSome? (fun x => match x.2 with
    | .bay b => if keyWing x.1 = w ∧ b.kind = .summary then some b.seq else none
    | .torn => none)
  s.getD (c.lastSeq w)

/-- An open wing is closed (R411, R477; EV-29). -/
def Card.closeWing (c : Card) (w : Nat) : Card :=
  let v := c.wing w
  let c := c.setWing w { v with state := .closed, closeSeq := c.closeSeqOf w }
  let c := { c with media := { c.media with opens := c.media.opens.filter (fun o => o.wing != w) } }
  c.ev 29 (leBytes 2 w ++ [if v.short then 1 else 0])

/-- Issue the programs of the bays assigned to a gallery whose turn has come. -/
def Card.startGallery (c : Card) (w : Nat) (g : Gallery) : Card :=
  ((g.taken.filter (fun h => !g.done.contains h)).foldl (fun c h => c.issueProgram (posKey w g.g h)) c).noteActs

/-- Images of a gallery that are still needed though the gallery is left: those that await a position, and those whose
copies to new positions are not all programmed (R428, R609). -/
def Card.needed (c : Card) (k : Nat) : Bool :=
  c.media.homeless.any (fun x => if x.copy then x.key / 16 == k / 16 else x.key == k) ||
    c.halls.moves.any (fun x => x.2.why == .redrive && x.2.src / 16 == k / 16)

/-- The first gallery of an open wing is complete, with or without its parity: its images are released and the next
gallery's turn comes, or the wing closes (R411, R427, R477). -/
def Card.leaveGallery (c : Card) (w : Nat) : Card :=
  match c.openOf w with
  | none => c
  | some o => match o.gals with
    | [] => c
    | g :: r =>
      let c := c.release ((allHalls.map (fun h => posKey w g.g h)).filter (fun k => !c.needed k))
      match r with
      | [] =>
        if o.short ∨ g.g = 383 then c.closeWing w
        else c.setOpen { o with gals := [.fresh (g.g + 1) (c.missingFor o)] }
      | g' :: _ => (c.setOpen { o with gals := r }).startGallery w g'

/-- The first gallery of an open wing stays without parity: its bays are to be copied from their images to other galleries,
and it is left (R609). -/
def Card.leaveBare (c : Card) (w cause : Nat) : Card :=
  match (c.openOf w).bind (fun o => o.gals.head?) with
  | none => c
  | some g =>
    let xs := g.done.map (fun h => ({ key := posKey w g.g h, cause := cause, copy := true } : Homeless))
    ({ c with media := { c.media with homeless := c.media.homeless ++ xs } }).leaveGallery w

/-- When every data position of the first gallery has been programmed: the summary, in the last gallery (R411), or
the parity bay (R430 step 6). Where the parity's die is fenced the gallery stays without one (R512, R609). -/
def Card.tryParity (c : Card) (w : Nat) : Card :=
  match c.openOf w with
  | none => c
  | some o => match o.gals with
    | [] => c
    | g :: _ =>
      if g.parityIssued || c.completing w || !((userHalls g.g g.missing).all g.done.contains) then c
      else
        let sh := summaryHall g.missing
        if g.g = 383 ∧ !o.noSummary ∧ !g.taken.contains sh then
          c.addOwn w g sh .summary
            (.summary (c.missingOf w).head? (c.summaryEntries w o.failed) o.failed)
        else if g.g = 383 ∧ !o.noSummary ∧ !g.done.contains sh then c
        else if (c.die (dieNo (parityHall g.g g.missing) (dieRow w))).fenced then c.leaveBare w 2
        else
          c.addOwn w g (parityHall g.g g.missing) .parity
            (.parity (g.done.map (fun h => posKey w g.g h)))

/-- Fill the room of one gallery of an open wing with FILLER bays. -/
def Card.fillGallery (c : Card) (w n : Nat) : Card :=
  allHalls.foldl (fun c h => match (c.openOf w).bind (fun o => o.gals.find? (fun g => g.g == n)) with
    | some g => if g.room.contains h then c.addOwn w g h .filler .filler else c
    | none => c) c

/-- Fill the galleries of an open wing up to number `n` with FILLER bays, less later ones nothing is assigned in (R379, R410).
The wing that took the previous position is still the one that took it (log entry 97). -/
def Card.fillTo (c : Card) (w n : Nat) : Card :=
  match c.openOf w with
  | none => c
  | some o =>
    let gs := (o.gals.take 1 ++ (o.gals.drop 1).filter (fun g => !g.taken.isEmpty)).filter (fun g => decide (g.g ≤ n))
    (gs.foldl (fun c g => c.fillGallery w g.g) c).tryParity w

/-- Fill all galleries of an open wing with FILLER bays (R379, R155, R477; log entry 97). -/
def Card.fillWing (c : Card) (w : Nat) : Card := c.fillTo w 383

/-- A wing that was open before the mount is continued: its incomplete gallery is read back and filled before
anything further is programmed to it (R155). -/
def Card.continueWing (c : Card) (w : Nat) : Card :=
  match c.openOf w with
  | none => c
  | some o =>
    if o.stale then
      let c := c.setOpen { o with stale := false }
      match o.gals.head? with
      | some g => (g.done.foldl (fun c h => c.startJob (posKey w g.g h) .completion false) c).fillWing w
      | none => c
    else c

/-- A position is about to be assigned: a wing is opened where one is to be, and the wing whose turn it is, where it was
open before the mount, is continued (R155, R604). -/
def Card.prepare (c : Card) (user : Bool) (n : Nat) : Card :=
  match n with
  | 0 => c
  | k + 1 =>
    let c := c.ensureOpen user
    match c.turn.bind c.openOf with
    | some o => if o.stale then (c.continueWing o.wing).prepare user k else c
    | none => c

/-- The WRITEs and DISCARD.Zs outstanding. -/
def Card.writeWorks (c : Card) : List (Tag × WriteWork) :=
  c.ports.tags.filterMap (fun x => match x.2.state with
    | .outstanding (.write w) => some (BitVec.ofNat 6 x.1, w)
    | _ => none)

/-- Bays held for WRITEs whose GO has been sent and whose bays are not assigned yet. -/
def Card.heldBays (c : Card) : Nat :=
  (c.writeWorks.map (fun x => match x.2.stage with | .waitGo => 0 | _ => x.2.credit)).sum

/-- Places of the vestibule that bays to be assigned may take: all but those kept for the FILLER, SUMMARY and PARITY bays of
four open galleries, and, but for user bays, which hold theirs from their GO on, those held (R283, R427; log entry 77). -/
def Card.vestRoom (c : Card) (user : Bool) : Bool :=
  decide (c.media.vest.length + (if user then 0 else c.heldBays) < Config.vestibuleBays - Config.vestibuleOwn)

/-- A bay that draws on the reserve has taken position `k` (R442). -/
def Card.draw (c : Card) (user : Bool) (kind : BayKind) (k : Nat) : Card :=
  if user || kind != .data then c else { c with media := { c.media with drawn := KV.put c.media.drawn k () } }

/-- Assign a bay to the next data position (R431, R604). `user`: a DATA bay of a WRITE, which draws on no reserve (R442).
`fresh`: a new bay, which takes its sequence and slot with its position (R413, R415). -/
def Card.place (c : Card) (user fresh : Bool) (b : Bay) : Card × Option Nat :=
  if !c.vestRoom user then (c, none)
  else
    let c := c.prepare user 4
    match c.turn with
    | none => (c, none)
    | some w =>
      let (c, b) := if fresh then c.stampBay b else (c, b)
      match ({ c with media := { c.media with lastWing := some w } }).assignIn w b with
      | (c, some k) => (c.draw user b.kind k, some k)
      | (c, none) => (c, none)

/-- Assign a new bay. -/
def Card.placeNew (c : Card) (user : Bool) (b : Bay) : Card × Option Nat := c.place user true b

/-- Assign new bays in order; nothing where a position is lacking for one. -/
def Card.placeAll (c : Card) (user : Bool) (bs : List Bay) : Option (Card × List Nat) :=
  match bs with
  | [] => some (c, [])
  | b :: r => match c.placeNew user b with
    | (_, none) => none
    | (c, some k) => match c.placeAll user r with
      | some (c, ks) => some (c, k :: ks)
      | none => none

/-- Replace a location in every map entry, undo entry, change and unfinished command that names it (R447, R609). -/
def Loc.rekey (old new : Nat) : Loc → Loc
  | .at k => if k = old then .at new else .at k
  | l => l

/-- The bays a WRITE or DISCARD.Z programs, with a position replaced. -/
def Cmd.rekey (old new : Nat) : Cmd → Cmd
  | .write w => .write { w with bays := w.bays.map (fun b => if b.key = old then { b with key := new } else b) }
  | k => k

/-- A tag's work, with a position replaced. -/
def TagState.rekey (old new : Nat) : TagState → TagState
  | .outstanding k => .outstanding (k.rekey old new)
  | s => s

/-- The views with a position replaced. -/
def Views.rekey (v : Views) (old new : Nat) : Views :=
  { v with
    map := v.map.map (fun x => (x.1, { x.2 with working := x.2.working.rekey old new,
                                                landed := x.2.landed.rekey old new }))
    undo := v.undo.map (fun x => (x.1, x.2.rekey old new))
    changes := v.changes.map (fun x => { x with loc := x.loc.rekey old new }) }

/-- Whatever names position `old` names `new` from now on. -/
def Card.rekey (c : Card) (old new : Nat) : Card :=
  { c with
    views := c.views.rekey old new
    ports := { c.ports with tags := c.ports.tags.map (fun x => (x.1, { x.2 with state := x.2.state.rekey old new })) }
    flights := { c.flights with acts := c.flights.acts.map (fun a => match a.stage with
      | .issued k | .assigned k => if k = old then { a with stage := .assigned new } else a
      | _ => a) }
    halls := { c.halls with moves := c.halls.moves.map (fun x =>
      (x.1, { x.2 with src := if x.2.src = old then new else x.2.src
                       dst := if x.2.dst = some old then some new else x.2.dst })) } }

/-- The bay at a position is used no more: a copy of it elsewhere has taken its place (R425, R428, R447). -/
def Card.supersede (c : Card) (k : Nat) : Card :=
  match c.cellAt k with
  | some (.bay _) => { c with media := { c.media with superseded := KV.put c.media.superseded k () } }
  | _ => c

/-- An image awaits a position; an action whose bay it is has it issued no longer. -/
def Card.awaitHome (c : Card) (x : Homeless) : Card :=
  { c with
    media := { c.media with homeless := c.media.homeless ++ [x] }
    flights := { c.flights with acts := c.flights.acts.map (fun a =>
      if a.stage = .issued x.key then { a with stage := .assigned x.key } else a) } }

/-- The trace of a re-drive (EV-21). -/
def Card.traceRedrive (c : Card) (cause k n : Nat) : Card :=
  c.ev 21 ([BitVec.ofNat 8 cause] ++ leBytes 2 (keyWing k) ++ [BitVec.ofNat 8 (keyHall k)] ++
    leBytes 2 (keyWing n) ++ [BitVec.ofNat 8 (keyHall n)])

/-- The image at `k` is a user's DATA bay, which draws on no reserve: no merged bay of a DISCARD.Z and no relocated copy
(R442). -/
def Card.isUser (c : Card) (k : Nat) (b : Bay) : Bool := b.kind == .data && !b.reloc && (KV.find c.media.drawn k).isNone

/-- A re-driven bay goes from its image to a new position, its other fields kept (R428; EV-21); where no position is to be
had it waits for one. -/
def Card.redrive (c : Card) (k cause : Nat) : Card :=
  match KV.find c.media.vest k with
  | none => c
  | some b =>
    match (c.release [k]).place (c.isUser k b) false { b with reloc := false } with
    | (c', some n) => ((((c'.rekey k n).supersede k).pump (keyDie n)).noteActs).traceRedrive cause k n
    | (_, none) => c.awaitHome { key := k, cause := cause, copy := false }

/-- Bays that are re-driven: all but SUMMARY, FILLER and PARITY (R428). -/
def BayKind.redriven : BayKind → Bool
  | .summary | .filler | .parity => false
  | _ => true

/-- A copy of a programmed bay whose gallery stays without parity: a new position, taken by what names the old one
once it is programmed; the image stays until then (R609). -/
def Card.recopy (c : Card) (cause k : Nat) : Card :=
  match KV.find c.media.vest k with
  | none => c
  | some b =>
    if b.kind.redriven then
      match c.place (c.isUser k b) false { b with reloc := false } with
      | (c', some n) =>
        let (c', id) := c'.newId
        let m : Move := { src := k, dst := some n, why := .redrive, ended := false }
        (({ c' with halls := { c'.halls with moves := KV.put c'.halls.moves id m } }).pump (keyDie n)).traceRedrive cause k n
      | (_, none) => c.awaitHome { key := k, cause := cause, copy := true }
    else c

/-- Every bay of a gallery without parity that was copied elsewhere is programmed there: the gallery's images go (R609). -/
def Card.releaseBare (c : Card) (k : Nat) : Card :=
  if (c.openOf (keyWing k)).any (fun o => o.gals.any (fun g => g.g == keyGallery k)) then c
  else c.release ((allHalls.map (posKey (keyWing k) (keyGallery k))).filter (fun x => !c.needed x))

/-- The images that await a position get one as far as there are any; a gallery without parity of which nothing is to be
copied lets its images go (R428, R609). -/
def Card.rehome (c : Card) : Card :=
  let xs := c.media.homeless
  let c := xs.foldl (fun c x => if x.copy then c.recopy x.cause x.key else c.redrive x.key x.cause)
    { c with media := { c.media with homeless := [] } }
  (xs.filter Homeless.copy).foldl (fun c x => c.releaseBare x.key) c

/-- A position of the first gallery of its wing counts as missing from now on (R477, R508, R608). -/
def Card.loseHall (c : Card) (k : Nat) (seq : Nat) : Card :=
  match c.openOf (keyWing k) with
  | none => c
  | some o =>
    let drop (g : Gallery) : Gallery :=
      if g.g = keyGallery k then
        { g with missing := g.missing ++ [keyHall k], lost := g.lost ++ [keyHall k], taken := g.taken.filter (· != keyHall k),
                 done := g.done.filter (· != keyHall k) }
      else g
    c.setOpen { o with gals := o.gals.map drop, failed := o.failed ++ [(k, seq)] }

/-- A die of an open wing has been fenced: its positions that nothing was assigned to are missing from now on (R512). -/
def Card.missHall (c : Card) (n : Nat) : Card :=
  let h := n / 16
  let miss (g : Gallery) : Gallery :=
    if g.taken.contains h || g.missing.contains h || parityHall g.g g.missing == h then g
    else { g with missing := g.missing ++ [h] }
  { c with media := { c.media with opens := c.media.opens.map (fun o =>
      if dieRow o.wing = n % 16 then { o with gals := o.gals.map miss, barred := o.barred ++ [h] } else o) } }

/-- A wing closes short: nothing further is programmed in it but the completion of its partly programmed gallery;
bays it had taken for later galleries go elsewhere (R477). -/
def Card.closeShort (c : Card) (w cause : Nat) : Card :=
  let c := c.setWing w { c.wing w with short := true }
  match c.openOf w with
  | none => c
  | some o =>
    let later := (o.gals.drop 1).flatMap (fun g => g.taken.map (fun h => posKey w g.g h))
    let c := c.setOpen { o with short := true, gals := o.gals.take 1 }
    let c := later.foldl (fun c k => match KV.find c.media.vest k with
      | some b => if b.kind.redriven then c.redrive k cause else c.release [k]
      | none => c) c
    c.fillWing w

/-- Blocks of a die's spare pool, ascending: those outside the wing slots that are neither retired nor in the wing
table (R603). -/
def Card.spareBlocks (c : Card) (h d : Nat) : List Nat :=
  match c.alcove.conf with
  | none => []
  | some f =>
    let used := f.table.filterMap (fun x =>
      if x.1 % 16 = h ∧ dieRow (x.1 / 16) = d then x.2 else none)
    ((List.range (Config.blocksPerDie - Config.wingSlots)).map (· + Config.wingSlots)).filter (fun b =>
      (KV.find f.retired (blockKey h d b)).isNone && !used.contains b)

/-- A die's shipped pool (R603). -/
def Card.shippedPool (c : Card) (n : Nat) : Nat :=
  match c.alcove.conf with
  | some f => KV.getD f.record.spares n 54
  | none => 0

/-- Ledger indices that are not erased in one alcove or both, appends under way included, by the copy in DRAM (R542, R556). -/
def Card.ledgerKeys (c : Card) : List Nat :=
  match c.alcove.conf with
  | some f => f.ledger.map Prod.fst
  | none => []

/-- Data bays of wings in service (R482). -/
def Card.dataBaysInService (c : Card) : Nat :=
  (Config.wings - c.narrowWings.length - c.withdrawnWings.length) * Config.dataBaysFull +
    c.narrowWings.length * Config.dataBaysNarrow

/-- Some die's pool is below a quarter of its shipped pool (R481). -/
def Card.poolLow (c : Card) : Bool :=
  (List.range 256).any (fun n => decide (4 * (c.spareBlocks (n / 16) (n % 16)).length < c.shippedPool n))

/-- The card is at the end of its life (R482). -/
def Card.isWorn (c : Card) : Bool :=
  decide (Config.ledgerEntries ≤ c.ledgerKeys.length) ||
    decide (c.dataBaysInService < c.capacity + 104 * Config.dataBaysFull)

/-- W and WORN are decided at each retirement and at every mount (R481, R482; EV-36). -/
def Card.decideWear (c : Card) : Card :=
  let w := c.maint.w || c.poolLow
  let worn := c.maint.worn || c.isWorn
  let fresh := (w && !c.maint.w) || (worn && !c.maint.worn)
  let c := { c with maint := { c.maint with w := w, worn := worn } }
  if fresh then c.ev 36 [(if w then 1 else 0) ||| (if worn then 2 else 0)] else c

/-- The ledger index after the last that is used (R555). -/
def Card.ledgerNext (c : Card) : Nat := c.ledgerKeys.foldl (fun m k => max m (k + 1)) 0

/-- Append a ledger entry to the copy in DRAM and to both alcoves, or none where no index remains (R542, R555). -/
def Card.appendLedger (c : Card) (e : LedgerEntry) : Card :=
  let i := c.ledgerNext
  if i < Config.ledgerEntries then
    { c with alcove := { c.alcove with
        ops := c.alcove.ops ++ [.append .a i e, .append .b i e]
        conf := c.alcove.conf.map (fun f => { f with ledger := KV.put f.ledger i (some e) }) } }
  else
    { c with alcove := { c.alcove with conf := c.alcove.conf.map (fun f => { f with unlogged := f.unlogged + 1 }) } }

/-- The wing whose block in hall `h` is block `b` of die `d`. -/
def Card.wingOfBlock (c : Card) (h d b : Nat) : Option Nat :=
  match c.alcove.conf with
  | none => none
  | some f =>
    match f.table.find? (fun x => x.1 % 16 == h && dieRow (x.1 / 16) == d && x.2 == some b) with
    | some x => some (x.1 / 16)
    | none =>
      if b < Config.wingSlots ∧ (KV.find f.table (16 * (d * Config.wingSlots + b) + h)).isNone then
        some (d * Config.wingSlots + b)
      else none

/-- A block's class (R457, R458). -/
def Card.blockClassOf (c : Card) (h d b : Nat) : Nat :=
  KV.getD c.media.blockClass (blockKey h d b) (KV.getD c.media.rowClass d 0)

/-- A wing's class: the highest block class of the wing (R457). -/
def Card.wingClass (c : Card) (w : Nat) : Nat :=
  (allHalls.filterMap (fun h => (c.blockOf w h).map (fun b => c.blockClassOf h (dieRow w) b))).foldl max 0

/-- Recompute a wing's class (EV-20). -/
def Card.reclass (c : Card) (w : Nat) : Card :=
  let v := c.wing w
  let n := c.wingClass w
  if n = v.cls then c
  else (c.setWing w { v with cls := n }).ev 20 (leBytes 2 w ++ [BitVec.ofNat 8 v.cls, BitVec.ofNat 8 n])

/-- Retire a block: the lowest spare takes its place in the wing table, or the wing loses the hall; the ledger entry
is appended; the wing's class follows its blocks; W and WORN are decided (R404, R457, R475, R476, R479; EV-34). A block is
retired once. -/
def Card.retire (c : Card) (h d b : Nat) (cause : LedgerCause) (epoch : Nat) : Card :=
  match c.alcove.conf with
  | none => c
  | some f => if (KV.find f.retired (blockKey h d b)).isSome then c else
    let spare := (c.spareBlocks h d).head?
    let own := c.wingOfBlock h d b
    let table := match own with
      | some w => KV.put f.table (16 * w + h) spare
      | none => f.table
    let f := { f with table := table, retired := KV.put f.retired (blockKey h d b) () }
    let c := { c with alcove := { c.alcove with conf := some f } }
    let c := c.appendLedger { hall := h, die := d, block := b, replacement := spare, cause := cause,
                              seq := c.media.seq, epoch := epoch, protect := 0 }
    let c := (c.bump 86 1).ev 34 ([BitVec.ofNat 8 (h + 16 * d)] ++ leBytes 2 b ++ leBytes 2 (spare.getD 0xFFFF) ++
      [BitVec.ofNat 8 cause.code])
    (match own with
      | some w => c.reclass w
      | none => c).decideWear

/-- The epoch of the record in use. -/
def Card.epoch (c : Card) : Nat := (c.record.map Record.epoch).getD 0

/-- A program's class from its pulse count (R456). -/
def programClass (pulses : Nat) : Nat := if pulses ≤ 5 then 0 else if pulses ≤ 11 then pulses - 5 else 7

/-- A program's pulse count enters the block's, the die's and the wing's class: the block's is the highest since its last
erase (R456, R457). -/
def Card.countPulses (c : Card) (k pulses : Nat) : Card :=
  let w := keyWing k
  let h := keyHall k
  let d := dieRow w
  let cls := programClass pulses
  match c.blockOf w h with
  | none => c
  | some b =>
    let new := if (KV.find c.media.measured (blockKey h d b)).isSome then max (c.blockClassOf h d b) cls else cls
    let m := { c.media with
      measured := KV.put c.media.measured (blockKey h d b) ()
      blockClass := KV.put c.media.blockClass (blockKey h d b) new
      dieClasses := KV.put c.media.dieClasses (dieNo h d) ((cls :: KV.getD c.media.dieClasses (dieNo h d) []).take 1024) }
    ({ c with media := m }).reclass w

/-- A die's class: the median of its last programs, none below 64 of them (R457; log entry 31 for an even number). -/
def Card.dieClass (c : Card) (n : Nat) : Option Nat :=
  let l := sortBy (fun x y => decide (x ≤ y)) (KV.getD c.media.dieClasses n [])
  if l.length < 64 then none else l[(l.length - 1) / 2]?

/-- A bay has been programmed at its position: the gallery advances, and a complete gallery is left (R427, R430). -/
def Card.advanceGallery (c : Card) (k : Nat) (kind : BayKind) : Card :=
  let w := keyWing k
  match c.openOf w with
  | none => c
  | some o => match o.gals with
    | [] => c
    | g :: _ =>
      if g.g ≠ keyGallery k then c
      else if kind = .parity then c.leaveGallery w
      else (c.setOpen (o.setFirst { g with done := g.done ++ [keyHall k] })).tryParity w

/-- The image at `k` is on the die (R435 OK). -/
def Card.writeCell (c : Card) (k : Nat) (x : Cell) : Card :=
  { c with media := { c.media with cells := KV.put c.media.cells k x } }

/-- A program of the bay at `k` failed or was aborted: it is re-driven while somebody still wants it (log entry 32), or R608
and R609 apply. `bad`: the die reported failure, which also retires the block and closes the wing short (R475, R477). -/
def Card.programLost (c : Card) (k cause : Nat) (bad : Bool) : Card :=
  match KV.find c.media.vest k with
  | none => c
  | some b =>
    let w := keyWing k
    let c := c.loseHall k b.seq
    let c := if b.kind = .summary then
        match c.openOf w with
        | some o => (c.release [k]).setOpen { o with noSummary := true }
        | none => c
      else if b.kind = .filler || !c.owned k b then c.release [k] else c
    let c := if bad then
        match c.blockOf w (keyHall k) with
        | some blk => c.retire (keyHall k) (dieRow w) blk .program c.epoch
        | none => c
      else c
    let c := if bad then c.closeShort w cause else c
    if b.kind = .parity then ((c.release [k]).leaveBare w cause).rehome
    else if b.kind.redriven then (c.redrive k cause).tryParity w
    else c.tryParity w

end Sys2Proof.Machine
end

