-- ==== Sys2Proof/Machine/Views.lean ====
section
/-! DEFINITION. The map: both views, protection, applying, landing and undoing changes, which bays are valid, and the
loss store (R122 to R124, R263 to R268, R302 to R304, R394, R419 to R426, R495 to R506). -/

namespace Sys2Proof.Machine

open Sys2Proof

/-- A map entry of a bay without data. -/
def MapEntry.blank : MapEntry := { working := .none, landed := .none, hmark := false }

/-- The map entry of a logical bay (R419). -/
def Card.entry (c : Card) (b : Nat) : MapEntry := KV.getD c.views.map b .blank

/-- Where a view has a logical bay. A DISCARD.H mark makes both views zero (R303). -/
def Card.resolve (c : Card) (working : Bool) (b : Nat) : Loc :=
  let e := c.entry b
  if e.hmark then .zeroed else if working then e.working else e.landed

/-- A sector of a bay is marked written (R268). -/
def Bay.written (b : Bay) (s : Nat) : Bool := b.mask.getLsbD s

/-- What stands on the flash of a sector: what was written, encrypted where a key was in force (R120, R285, R414). -/
def Sector.stored (x : Sector) : List Byte :=
  match x.key with
  | some k => xtsEncrypt k x.tweak x.plain
  | none => x.plain

/-- A sector read under the key in force, as a sector of number `n`: what was written where key and number are those it was
written under, since decryption undoes encryption; else what the engine makes of the stored bytes (R120; log entry 8). -/
def Sector.read (x : Sector) (key : Option (BitVec 512)) (n : Nat) : List Byte :=
  if x.key = key ∧ (x.tweak = n ∨ key = none) then x.plain
  else match key with
    | some k => xtsDecrypt k n x.stored
    | none => x.stored

/-- What a bay stores at place `s`, where written. -/
def Bay.cell (b : Bay) (s : Nat) : Option Sector :=
  if b.written s then
    match b.body with
    | .data l => l.getD s none
    | _ => none
  else none

/-- The sector a bay gives at place `s`, where written, under the key in force (R120). -/
def Bay.sector (b : Bay) (key : Option (BitVec 512)) (s : Nat) : Option (List Byte) :=
  (b.cell s).map (fun x => x.read key (16 * b.addr + s))

/-- The working view holds a sector as written (R292). -/
def Card.workingWritten (c : Card) (sector : Nat) : Bool :=
  match (c.entry (sector / 16)).working with
  | .at k => match c.bayAt k with
    | some b => b.written (sector % 16)
    | none => false
  | _ => false

/-- The protected regions as a count: 16 where WPW level 15 protects all; the larger of the level and p otherwise
(R122, R123). -/
def Card.protNow (c : Card) : Nat :=
  max c.straps.vals.wpw.level.toNat ((c.alcove.conf.map Conf.p).getD 0) |> fun n =>
    if c.straps.vals.wpw.level = 15 then 16 else n

/-- A sector lies in a protected region: 16 regions of C sectors each (R124, page 7). -/
def Card.isProtected (c : Card) (sector : Nat) : Bool := decide (sector < c.views.prot * c.capacity)

/-- One change enters the working view; the bay's DISCARD.H mark goes (R264, R304). -/
def Views.apply (v : Views) (x : Change) : Views :=
  let e := KV.getD v.map x.bay .blank
  { v with map := KV.put v.map x.bay { e with working := x.loc, hmark := false }, changes := v.changes ++ [x] }

/-- A command is applied for all its bays at once (R265). -/
def Card.applyAll (c : Card) (xs : List Change) : Card := { c with views := xs.foldl Views.apply c.views }

/-- One landed change: the landed location, and in the undo table what it was before this landing (R420). -/
def Views.landOne (v : Views) (x : Change) : Views :=
  let e := KV.getD v.map x.bay .blank
  { v with map := KV.put v.map x.bay { e with landed := x.loc }
           undo := if (KV.find v.undo x.bay).isNone then KV.put v.undo x.bay e.landed else v.undo }

/-- Changes of an ordinal range. -/
def inOrdinals (lo hi : Nat) (x : Change) : Bool := decide (lo ≤ x.ord ∧ x.ord ≤ hi)

/-- The changes of the ordinals `lo` to `hi` land, in ordinal order (R266, R373, R423). -/
def Views.land (v : Views) (lo hi : Nat) : Views :=
  let xs := sortBy (fun a b => decide (a.ord ≤ b.ord)) (v.changes.filter (inOrdinals lo hi))
  let v := xs.foldl Views.landOne { v with undo := [] }
  { v with changes := v.changes.filter (fun x => !inOrdinals lo hi x) }

/-- The working view is the landed view with the changes that remain (R264). A bay whose working location thereby
changes loses its mark where `unmark` is set (R304). -/
def Views.rework (v : Views) (unmark : Bool) : Views :=
  let base : KV MapEntry := v.map.map (fun x => (x.1, { x.2 with working := x.2.landed }))
  let m := v.changes.foldl (fun (m : KV MapEntry) x =>
    KV.put m x.bay { KV.getD m x.bay .blank with working := x.loc }) base
  { v with map := m.map (fun x =>
      let old := KV.getD v.map x.1 .blank
      (x.1, { x.2 with hmark := x.2.hmark && !(unmark && decide (old.working ≠ x.2.working)) })) }

/-- A rollback of the last landing: the landed view becomes the state before it, and of the unlanded changes those
above the ordinal it closed remain in the working view (R394). -/
def Views.undoLanding (v : Views) (closed : Nat) : Views :=
  let m := v.undo.foldl (fun (m : KV MapEntry) x =>
    let e := KV.getD m x.1 .blank
    KV.put m x.1 { e with landed := x.2, hmark := e.hmark && decide (e.landed = x.2) }) v.map
  Views.rework { v with map := m, undo := [], changes := v.changes.filter (fun x => decide (closed < x.ord)) } true

/-- CLOSE with DISCARD: the map returns to the landed view (R160). -/
def Views.discardOpen (v : Views) : Views := Views.rework { v with changes := [] } false

/-- No map: what DRAM holds after it is lost or dropped (R35, R167). The protection map is kept until the next MOUNT. -/
def Views.gone (v : Views) : Views :=
  { v with valid := false, selfRefresh := false, map := [], undo := [], changes := [] }

/-- A location is at position `k`. -/
def Loc.isAt (k : Nat) : Loc → Bool
  | .at j => j == k
  | _ => false

/-- A view or the undo table resolves some bay to position `k`. -/
def Card.mapped (c : Card) (k : Nat) : Bool :=
  c.views.map.any (fun x => x.2.working.isAt k || x.2.landed.isAt k) || c.views.undo.any (fun x => x.2.isAt k)

/-- The undo table resolves some bay to a position of wing `w` (R445). -/
def Card.undoHolds (c : Card) (w : Nat) : Bool :=
  c.views.undo.any (fun x => match x.2 with | .at k => keyWing k == w | _ => false)

/-- The bays on media, with their positions. -/
def Card.bays (c : Card) : List Bay :=
  c.media.cells.filterMap (fun x => match x.2 with | .bay b => some { b with key := x.1 } | .torn => none)

/-- The sequences that later LANDING and ROLLBACK bays name as voided (R422). -/
def voidedBy (bs : List Bay) : List Nat :=
  bs.filterMap (fun b => match b.body with
    | .landing r => if r.voided = 0 then none else some r.voided
    | .rollback r => if r.voided = 0 then none else some r.voided
    | _ => none)

/-- An ordinal is landed (R422). -/
def ordLanded (bs : List Bay) (ord : Nat) : Bool :=
  let voided := voidedBy bs
  bs.any (fun b => match b.body with
    | .landing r => !voided.contains b.seq && decide (r.first ≤ ord ∧ ord ≤ r.last)
    | _ => false) &&
  !(bs.any (fun b => match b.body with
    | .rollback r => !voided.contains b.seq &&
        decide ((r.landFirst ≤ ord ∧ ord ≤ r.landLast) ∨ (r.base ≤ ord ∧ ord ≤ r.closed))
    | _ => false))

/-- The sequences of bays whose commands ended other than OK: they land with no flight (R222, R287; log entry 32). -/
def absentIn (bs : List Bay) : List Nat :=
  bs.flatMap (fun b => match b.body with
    | .landing r => r.absent
    | _ => [])

/-- A bay's ordinal is landed, and its command did not end other than OK (R287, R422). -/
def bayLanded (bs : List Bay) (b : Bay) : Bool := ordLanded bs b.ord && !(absentIn bs).contains b.seq

/-- A discard range covers a logical bay whole. -/
def DRange.covers (r : DRange) (b : Nat) : Bool := decide (r.first ≤ 16 * b ∧ 16 * b + 16 ≤ r.first + r.count)

/-- A landed DATA bay that a discard range overrides remains on media (R426). -/
def overrides (bs : List Bay) (rs : List DRange) (ord seq : Nat) : Bool :=
  bs.any (fun b => b.kind == .data && rs.any (fun r => r.covers b.addr) &&
    decide (b.ord < ord ∨ (b.ord = ord ∧ b.seq < seq)) && bayLanded bs b)

/-- A loss entry's bytes in a landing bay's loss section (R501). -/
def Loss.bytes (e : Loss) : List Byte :=
  leBytes 4 e.first.toNat ++ leBytes 8 e.seq ++
    [BitVec.ofNat 8 e.source.code, BitVec.ofNat 8 (e.hall % 16 + 16 * e.kind.toNat)] ++ leBytes 2 e.wing

/-- The bay lies where a read has found it beyond recovery since the map was built, or the store has an entry for it (R495,
R496). -/
def Card.isLost (c : Card) (b : Bay) : Bool :=
  (KV.find c.losses.gone b.key).isSome ||
  c.losses.store.any (fun e => e.seq == b.seq && e.wing == keyWing b.key && e.hall == keyHall b.key &&
    ((b.kind == .data) == (e.first != 0xFFFFFFFF)))

/-- A bay can still land: its ordinal lies at or above the landing base (R426). -/
def Card.canLand (c : Card) (ord : Nat) : Bool := decide (c.flights.base ≤ ord)

/-- A loss entry of a landing bay that no later landing bay carries. -/
def uncarried (bs : List Bay) (seq : Nat) (r : LandingRec) : Bool :=
  r.losses.any (fun e => !(bs.any (fun b => match b.body with
    | .landing q => decide (seq < b.seq) &&
        q.losses.any (fun f => f.seq == e.seq && f.wing == e.wing && f.hall == e.hall)
    | _ => false)))

/-- A WRITE or DISCARD.Z that is not yet applied has programmed its bay at position `k`, or a landing is still to land it
there: a view will resolve to it (R264, R286, R373). -/
def Card.awaited (c : Card) (k : Nat) : Bool :=
  c.ports.tags.any (fun x => match x.2.state with
    | .outstanding (.write w) => !w.applied && w.bays.any (fun b => b.key == k)
    | _ => false) ||
  (c.views.changes.zipIdx).any (fun x => x.1.loc.isAt k &&
    !((c.views.changes.drop (x.2 + 1)).any (fun y => y.bay == x.1.bay && y.ord == x.1.ord)))

/-- A copy of the bay has taken its place elsewhere (R425, R447). -/
def Card.isSuperseded (c : Card) (k : Nat) : Bool := (KV.find c.media.superseded k).isSome

/-- A DATA, MARK or DISCARD bay is valid for reclaim (R426, R496). -/
def Card.memberValid (c : Card) (bs : List Bay) (b : Bay) : Bool :=
  match b.body with
  | .data _ => c.mapped b.key || c.awaited b.key
  | .discard rs =>
    !c.isSuperseded b.key && (c.canLand b.ord || (!c.isLost b && overrides bs rs b.ord b.seq))
  | .mark _ _ => !c.isSuperseded b.key && (c.canLand b.ord || ordLanded bs b.ord)
  | _ => false

/-- A bay is valid for reclaim (R426, R496). Of a LANDING, ROLLBACK, DISCARD or MARK bay and its relocated copy only the
copy is (R425, R447). -/
def Card.isValid (c : Card) (b : Bay) : Bool :=
  let bs := c.bays
  match b.body with
  | .landing r =>
    !c.isSuperseded b.key && (!(bs.any (fun x => x.kind == .landing && decide (b.seq < x.seq))) ||
      (!c.isLost b &&
        (bs.any (fun x => decide (r.first ≤ x.ord ∧ x.ord ≤ r.last) && c.memberValid bs x) ||
          overrides bs r.ranges (r.last + 1) 0 || uncarried bs b.seq r)))
  | .rollback r =>
    !c.isSuperseded b.key && !c.isLost b && bs.any (fun x => x.seq != b.seq &&
      decide ((r.landFirst ≤ x.ord ∧ x.ord ≤ r.landLast) ∨ (r.base ≤ x.ord ∧ x.ord ≤ r.closed)))
  | _ => c.memberValid bs b

/-- The valid bays of a wing. -/
def Card.validIn (c : Card) (w : Nat) : List Bay :=
  c.bays.filter (fun b => keyWing b.key == w && c.isValid b)

/-- First sector of a loss entry that names no logical bay (R497). -/
def noSector : BitVec 32 := 0xFFFFFFFF

/-- An entry is live (R501). -/
def Card.lossLive (c : Card) (e : Loss) : Bool :=
  if e.first = noSector then true
  else
    let m := c.entry (e.first.toNat / 16)
    let hit (l : Loc) : Bool := match l with
      | .at k => (c.bayAt k).any (fun b => b.seq == e.seq)
      | _ => false
    hit m.working || hit m.landed

/-- Add an entry to the loss store, unless one for the same sequence, wing and hall is there (R497, R498). -/
def Card.storeLoss (c : Card) (e : Loss) : Card :=
  let known := c.losses.store.any (fun x => x.seq == e.seq && x.wing == e.wing && x.hall == e.hall)
  let room := decide (c.losses.store.length < Config.lossStore)
  let bounds := if e.bound then c.losses.bounds ++ [e.seq] else c.losses.bounds
  let c := if known || room then c else c.bump 85 1
  let store := if known || !room then c.losses.store else c.losses.store ++ [e]
  let c := { c with losses := { c.losses with store := store, bounds := bounds.dedup } }
  (c.bump 59 1).ev 26 (leBytes 4 e.first.toNat ++ [BitVec.ofNat 8 e.source.code, if known || room then 1 else 0])

/-- The entry of a bay beyond recovery (R497, R506). `blind`: nothing of it can be read, so that its kind is known only of a
DATA bay, which the map names (R497; log entry 99). -/
def lossOf (b : Bay) (source : LossSource) (blind : Bool) : Loss :=
  { first := if b.kind = .data then BitVec.ofNat 32 (16 * b.addr) else noSector, seq := b.seq,
    wing := keyWing b.key, hall := keyHall b.key, kind := if blind && b.kind != .data then 0 else b.kind.code,
    source := source, carried := none, reported := false, before := false,
    bound := b.kind == .landing || b.kind == .rollback || b.kind == .discard }

/-- A bay is found beyond recovery: it stays where it is, and it is lost from now on (R487, R495, R497). -/
def Card.addLoss (c : Card) (k : Nat) (source : LossSource) (blind : Bool) : Card :=
  match c.bayAt k with
  | some b =>
    { c with losses := { c.losses with gone := KV.put c.losses.gone k () } }.storeLoss
      (lossOf { b with key := k } source blind)
  | none => c

/-- The bay at a position is known to be beyond recovery (R495). -/
def Card.lostAtKey (c : Card) (k : Nat) : Bool := (c.bayAt k).any (fun b => c.isLost { b with key := k })

/-- The bay lies below a bound, so that it is answered LOST (R506). -/
def Card.bounded (c : Card) (k : Nat) : Bool :=
  match c.bayAt k with
  | some b => c.losses.bounds.any (fun s => decide (b.seq < s))
  | none => false

/-- The entries a landing bay records: those not yet carried, oldest first, then live carried ones, the oldest
carrier first (R501). -/
def Card.lossSection (c : Card) : List Loss :=
  let fresh := (c.losses.store.filter (fun e => e.carried.isNone)).take Config.lossSection
  let old := sortBy (fun a b => decide (((a.carried.map Prod.snd).getD 0) ≤ ((b.carried.map Prod.snd).getD 0)))
    (c.losses.store.filter (fun e => e.carried.isSome && c.lossLive e))
  fresh ++ old.take (Config.lossSection - fresh.length)

/-- After a landing has completed: what its bay records is carried by it, and carried entries that are reported or no
longer live leave the store (R500, R502). -/
def Card.carryLosses (c : Card) (f : Flight) (seq : Nat) (rec : List Loss) : Card :=
  let hit (e : Loss) : Bool := rec.any (fun x => x.seq == e.seq && x.wing == e.wing && x.hall == e.hall)
  let store := c.losses.store.map (fun e => if hit e then { e with carried := some (f, seq) } else e)
  let store := store.filter (fun e => e.carried.isNone || !(e.reported || !c.lossLive e))
  { c with losses := { c.losses with store := store } }

/-- Mark every listed entry reported (R326). -/
def Card.reportLosses (c : Card) : Card :=
  let l := c.losses.store
  { c with losses := { c.losses with
      store := (l.take Config.lossList).map (fun e => { e with reported := true }) ++ l.drop Config.lossList } }

end Sys2Proof.Machine
end

