-- ==== Sys2Proof/Machine/Reads.lean ====
section
/-! DEFINITION. READ, READ STREAM, STOP, VERIFY and the start of a stream segment (R259 to R282). -/

namespace Sys2Proof.Machine

open Sys2Proof

/-- The bays a sector range touches, ascending. -/
def baysOf (sector count : Nat) : List Nat :=
  if count = 0 then [] else
    (List.range ((sector + count - 1) / 16 - sector / 16 + 1)).map (· + sector / 16)

/-- What a view has of a bay, as a source to read. -/
def Loc.source : Loc → Source
  | .at k => .at k
  | _ => .zero

/-- The bays of a range resolved against a view as it stands (R267). -/
def Card.piecesOf (c : Card) (working : Bool) (bays : List Nat) : List Piece :=
  bays.map (fun b => { bay := b, src := (c.resolve working b).source, val := .waiting, weak := false })

/-- Nothing is left to wait for: zeros, or a result. -/
def Piece.ready (p : Piece) : Bool := p.src == .zero || p.val != .waiting

/-- A piece that needs no descriptor: lost by its bound (R506) or by an earlier read (R495), in the vestibule (R427), or out of
reach at once. A VERIFY answers no LOST and so knows neither; a bay out of its reach it grades FAIL without a rebuild (R280,
R490). -/
def Card.prefetch (c : Card) (strict : Bool) (p : Piece) : Piece :=
  match p.src with
  | .zero => p
  | .at k =>
    match KV.find c.media.vest k with
    | some b => if !strict && c.bounded k then { p with val := .lost } else { p with val := .got b }
    | none =>
      if !strict && (c.bounded k || c.lostAtKey k) then { p with val := .lost }
      else if (if strict then c.dieShut (keyDie k) else c.unreachable k) then { p with val := .lost } else p

/-- A piece found out of reach at once: recorded as lost (R497), its rebuild counted and its wing marked (R492; BC-58), or for
VERIFY its wing marked (R282). A bay known to be lost is not recorded again (R497). -/
def Card.notePiece (c : Card) (p : Piece) (q : Purpose) (strict : Bool) (k : Nat) : Card :=
  if p.val ≠ .lost then c
  else if strict then c.markRefresh (keyWing k) 3
  else if c.bounded k || c.lostAtKey k then c
  else ((c.bump 58 1).markRefresh (keyWing k) 2).addLoss k (match q with | .merge _ _ => .merge | _ => .read) true

/-- Start the reads a list of pieces needs; `p` names what each serves by its place. -/
def Card.startReads (c : Card) (ps : List Piece) (p : Nat → Purpose) (strict : Bool) : Card :=
  (ps.zipIdx).foldl (fun c x => match x.1.src with
    | .at k => if x.1.ready then c.notePiece x.1 (p x.2) strict k else c.startJob k (p x.2) strict
    | .zero => c) c

/-- The bytes of one sector as a piece gives it: zeros where the bay is lost, or holds no data there (R268, R270). -/
def Piece.bytes (p : Piece) (key : Option (BitVec 512)) (s : Nat) : List Byte :=
  match p.val with
  | .got b => (b.sector key s).getD (List.replicate 4096 0)
  | _ => List.replicate 4096 0

/-- The piece of a sector's bay. -/
def ReadWork.piece (w : ReadWork) (sector : Nat) : Option Piece := w.pieces.find? (fun p => p.bay == sector / 16)

/-- The data of a read, in sector order, decrypted under the key in force (R120, R269). -/
def ReadWork.data (w : ReadWork) (key : Option (BitVec 512)) : List Byte :=
  (List.range w.count).flatMap (fun i => match w.piece (w.sector + i) with
    | some p => p.bytes key ((w.sector + i) % 16)
    | none => List.replicate 4096 0)

/-- Some sector was returned as zeros for want of data, not for a loss (R268, R270). -/
def ReadWork.zeros (w : ReadWork) : Bool :=
  (List.range w.count).any (fun i => match w.piece (w.sector + i) with
    | some p => match p.val with
      | .got b => (b.cell ((w.sector + i) % 16)).isNone
      | .lost => false
      | .waiting => true
    | none => true)

/-- The offset of the first sector of the first lost bay, 0 where the bay begins before the command (R270). -/
def ReadWork.lostAt (w : ReadWork) : Option Nat :=
  (w.pieces.find? (fun p => p.val == .lost)).map (fun p => 16 * p.bay - w.sector)

/-- Everything the read needs is there. -/
def ReadWork.ready (w : ReadWork) : Bool := w.pieces.all Piece.ready

/-- Count user bytes read (BC-01). -/
def Card.countBytes (c : Card) (n : Nat) : Card := c.bump 1 n

/-- A READ whose bays are there sends its transfer and its final response, Z set where a sector had no data (R251, R268 to
R270). -/
def Card.finishRead (c : Card) (t : Tag) (w : ReadWork) : Card :=
  if w.ready then
    c.needLanes t (fun c =>
      let c := (c.sendC2h t (w.data c.dataKey)).countBytes (4096 * w.count)
      match w.lostAt with
      | some o => c.finish t stLost (info3 o (o / 256) 0) w.zeros
      | none => c.finish t stOk 0 w.zeros)
  else c

/-- The grade VERIFY gives a bay (R280). -/
def Piece.grade (p : Piece) : Byte :=
  match p.src, p.val with
  | .zero, _ => 3
  | _, .lost => 2
  | _, .got _ => if p.weak then 1 else 0
  | _, .waiting => 3

/-- A VERIFY whose bays are graded sends its results (R281). -/
def Card.finishVerify (c : Card) (t : Tag) (w : ReadWork) : Card :=
  if w.ready then
    c.needLanes t (fun c =>
      let g := w.pieces.map Piece.grade
      (c.sendC2h t g).finish t stOk (info3 (g.count 1) (g.count 2) 0) false)
  else c

/-- The sectors of the segment of a stream that begins at `sector` (R274). -/
def segmentLen (sector stop : Nat) : Nat := min 640 (stop - sector)

/-- Resolve the next segment of a stream and start its reads (R267, R274). -/
def Card.openSegment (c : Card) (t : Tag) (s : StreamWork) : Card :=
  let n := segmentLen s.next s.stop
  let ps := (c.piecesOf s.view (baysOf s.next n)).map (c.prefetch false)
  let s := { s with cur := { sector := s.next, count := n, view := s.view, pieces := ps } }
  (c.setCmd t (.stream s)).startReads ps (.segment t) false

/-- RANGE for a range of sectors that reaches beyond the capacity (R260). -/
def Card.inRange (c : Card) (sector count : Nat) : Bool := decide (sector + count ≤ 16 * c.capacity)

/-- A count of 1 to 640 within the capacity (R260). -/
def Card.rangeOk (c : Card) (f : Frame) : Bool :=
  decide (1 ≤ f.count.toNat ∧ f.count.toNat ≤ 640) && c.inRange f.sector.toNat f.count.toNat

/-- READ after step 8 of R245. -/
def Card.doRead (c : Card) (f : Frame) : Card :=
  if c.rangeOk f then
    c.needLanes f.tag (fun c =>
      let ps := (c.piecesOf (f.flags.getLsbD 0) (baysOf f.sector.toNat f.count.toNat)).map (c.prefetch false)
      let w : ReadWork := { sector := f.sector.toNat, count := f.count.toNat, view := f.flags.getLsbD 0, pieces := ps }
      ((c.setCmd f.tag (.read w)).startReads ps (.cmd f.tag) false).finishRead f.tag w)
  else c.finish f.tag stRange 0 false

/-- An empty read, before a command's own is resolved. -/
def ReadWork.empty : ReadWork := { sector := 0, count := 0, view := false, pieces := [] }

/-- READ (R269 to R273). -/
def execRead (f : Frame) (s : State) : Host.Outcome State Fault Refusal :=
  run (fun c => c.receive opRead f (.read .empty) (fun c => c.doRead f)) s

/-- VERIFY after step 8. A bay that no sector of the range is written in is UNMAPPED and is not read (R280). -/
def Card.doVerify (c : Card) (f : Frame) : Card :=
  if c.rangeOk f then
    c.needLanes f.tag (fun c =>
      let ps := c.piecesOf (f.flags.getLsbD 0) (baysOf f.sector.toNat f.count.toNat)
      let ps := ps.map (fun p => match p.src with
        | .at k => if (c.bayAt k).any (fun b => b.mask != 0) then p else { p with src := .zero }
        | .zero => p)
      let ps := ps.map (c.prefetch true)
      let w : ReadWork := { sector := f.sector.toNat, count := f.count.toNat, view := f.flags.getLsbD 0, pieces := ps }
      ((c.setCmd f.tag (.verify w)).startReads ps (.verify f.tag) true).finishVerify f.tag w)
  else c.finish f.tag stRange 0 false

/-- VERIFY (R280 to R282). -/
def execVerify (f : Frame) (s : State) : Host.Outcome State Fault Refusal :=
  run (fun c => c.receive opVerify f (.verify .empty) (fun c => c.doVerify f)) s

/-- A stream before its first segment is resolved. -/
def StreamWork.start (view : Bool) (first stop : Nat) : StreamWork :=
  { view := view, next := first, stop := stop, sent := 0, zeros := false, cur := .empty }

/-- READ STREAM after step 8: argument 0 means to the last sector of the capacity (R259, R260). -/
def Card.doStream (c : Card) (f : Frame) : Card :=
  let first := f.sector.toNat
  let total := if f.arg = 0 then 16 * c.capacity - first else f.arg.toNat
  if decide (first < 16 * c.capacity) && c.inRange first total then
    c.needLanes f.tag (fun c => c.openSegment f.tag (.start (f.flags.getLsbD 0) first (first + total)))
  else c.finish f.tag stRange 0 false

/-- READ STREAM (R274 to R279). -/
def execReadStream (f : Frame) (s : State) : Host.Outcome State Fault Refusal :=
  run (fun c => c.receive opStream f (.stream (.start false 0 0)) (fun c => c.doStream f)) s

/-- The final OK of a stream: the segments sent in info bytes 3 and 4 (R276). -/
def Card.endStream (c : Card) (t : Tag) (s : StreamWork) : Card :=
  c.finish t stOk (info3 s.sent (s.sent / 256) 0) s.zeros

/-- The sources a segment resolves to now. -/
def Card.sourcesNow (c : Card) (s : StreamWork) : List Source :=
  (c.piecesOf s.view (s.cur.pieces.map Piece.bay)).map Piece.src

/-- The places a READ, VERIFY or READ STREAM reads from until it ends: its bays as resolved (R267). -/
def Cmd.sources : Cmd → List Source
  | .read w | .verify w => w.pieces.map Piece.src
  | .stream s => s.cur.pieces.map Piece.src
  | _ => []

/-- A command outstanding reads from wing `w` (R267). -/
def Card.wingSourced (c : Card) (w : Nat) : Bool :=
  c.ports.tags.any (fun x => match x.2.state with
    | .outstanding k => k.sources.any (fun s => match s with
      | .at p => keyWing p == w
      | .zero => false)
    | .completed _ _ => false)

/-- A segment whose data is ready starts its transfer while HCLK runs (R14): an INTERIM after the trailers with the segment's
number, or the final response after the last one; LOST ends the stream (R275, R276, R278). Where the view has changed since the
segment's reads began, it is read again, because a segment resolves when the card starts it (R267). -/
def Card.segmentStart (c : Card) (t : Tag) : Card :=
  match c.cmdOf t with
  | some (.stream s) =>
    if s.cur.ready ∧ c.power.hclk then
      if c.sourcesNow s ≠ s.cur.pieces.map Piece.src then c.openSegment t s
      else c.needLanes t (fun c =>
        let c := (c.sendC2h t (s.cur.data c.dataKey)).countBytes (4096 * s.cur.count)
        let done := { s with sent := s.sent + 1, zeros := s.zeros || s.cur.zeros, next := s.next + s.cur.count }
        match s.cur.lostAt with
        | some o => c.finish t stLost (info3 o (o / 256) 0) done.zeros
        | none =>
          if done.next < s.stop then
            (c.interim t (BitVec.ofNat 24 s.sent)).openSegment t done
          else c.endStream t done)
    else c
  | _ => c

/-- STREAM_SEGMENT_START (R276). -/
def execStreamSegmentStart (tag : Tag) (s : State) : Host.Outcome State Fault Refusal :=
  run (fun c => c.segmentStart tag) s

/-- The tag of a READ STREAM that an HCLK absence has cut, its LANE-CHECK owed (R38). -/
def Card.cutStream (c : Card) (t : Tag) : Bool :=
  (c.tagEntry t).any (fun e => e.opcode == opStream) && c.link.owed.any (fun x => x.tag == t)

/-- STOP after step 8: the stream's final response first, then STOP's own (R277; log entry 57). A stream that an HCLK absence
has cut ends with the LANE-CHECK owed to it; STOP's own then waits for that (R38, R220). -/
def Card.doStop (c : Card) (f : Frame) : Card :=
  let t : Tag := f.arg.setWidth 6
  match c.cmdOf t with
  | some (.stream s) => (c.endStream t s).finish f.tag stOk (info3 1 0 0) false
  | _ => if c.cutStream t then c else c.finish f.tag stOk 0 false

/-- The STOPs that wait for the LANE-CHECK of a stream are answered (R277). -/
def Card.answerStops (c : Card) : Card :=
  (c.outstanding.filter (fun t => (c.tagEntry t).any (fun e => e.opcode == opStop))).foldl
    (fun c t => c.finish t stOk (info3 1 0 0) false) c

/-- STOP (R277). -/
def execStop (f : Frame) (s : State) : Host.Outcome State Fault Refusal :=
  run (fun c => c.receive opStop f .timed (fun c => c.doStop f)) s

end Sys2Proof.Machine
end

