-- ==== Sys2Proof/Machine/Reclaim.lean ====
section
/-! DEFINITION. Relocations, the choice of a victim, wing erases and inline reclaim (R438, R440, R444 to R448, R452 to
R454, R480, R605). -/

namespace Sys2Proof.Machine

open Sys2Proof

/-- A read job, a relocation or a command that has resolved it still needs a bay of wing `w` (R267). -/
def Card.wingRead (c : Card) (w : Nat) : Bool :=
  c.wingSourced w || c.halls.jobs.any (fun x => keyWing x.2.key == w) ||
  c.halls.moves.any (fun x => keyWing x.2.src == w)

/-- A closed wing with no valid bay left awaits erase (R448). -/
def Card.emptied (c : Card) (w : Nat) : Card :=
  if (c.wing w).state = .closed ∧ (c.validIn w).isEmpty then c.awaitErase w else c

/-- Data bays of a wing: V of R444. -/
def Card.wingBays (c : Card) (w : Nat) : Nat :=
  if (c.missingOf w).isEmpty then Config.dataBaysFull else Config.dataBaysNarrow

/-- A wing is out of the choice: undo entries, a die under anneal, or no valid bay left but lost ones, which cannot be copied
(R445, R496). -/
def Card.excluded (c : Card) (w : Nat) : Bool :=
  let v := c.validIn w
  c.undoHolds w || allHalls.any (fun h => (c.die (dieNo h (dieRow w))).heat.shut) || (!v.isEmpty && v.all c.isLost)

/-- A wing's score as a fraction: numerator and denominator (R444). -/
def Card.score (c : Card) (w : Nat) : Nat × Nat :=
  let n := c.wingBays w
  let v := (c.validIn w).length
  let a := min (c.media.seq - (c.wing w).closeSeq) (2 ^ 22)
  ((n - v) * (2 ^ 20 + a), n * (2 + (c.wing w).cls))

/-- Closed wings that may be chosen, ascending. -/
def Card.candidates (c : Card) : List Nat :=
  (c.media.wings.filter (fun x => x.2.state == .closed && !c.excluded x.1)).map Prod.fst

/-- The victim: a wing closed short before every scored wing, the one closed earliest first; then the highest score
above 0; ties to the lowest index (R444, R446). -/
def Card.chooseVictim (c : Card) : Option Nat :=
  let short := (c.candidates.filter (fun w => (c.wing w).short)).map (fun w => (w, c.lastSeq w))
  match bestOf lowerClass short with
  | some (w, _) => some w
  | none =>
    c.candidates.foldl (fun best w =>
      let s := c.score w
      if s.1 = 0 then best else
        match best with
        | none => some w
        | some b => let t := c.score b
          if t.1 * s.2 < s.1 * t.2 then some w else best) none

/-- A victim is chosen (EV-30). -/
def Card.traceVictim (c : Card) (w : Nat) (inl : Bool) : Card :=
  c.ev 30 (leBytes 2 w ++ leBytes 2 (c.validIn w).length ++ [if inl then 1 else 0])

/-- The valid bays of a wing that are not lost and not being moved, by position. -/
def Card.movable (c : Card) (w : Nat) : List Nat :=
  ((c.validIn w).filter (fun b => !c.isLost b && !(c.halls.moves.any (fun x => x.2.src == b.key)))).map Bay.key

/-- One relocation fewer to wait for, in the WRITE it serves, and `again` more still to make. -/
def Card.countInline (c : Card) (t : Tag) (again : Nat) : Card :=
  match c.cmdOf t with
  | some (.write w) => c.setCmd t (.write { w with inlineMoves := w.inlineMoves - 1, inlineDue := w.inlineDue + again })
  | _ => c

/-- Forget a relocation. -/
def Card.dropMove (c : Card) (id : Nat) : Card :=
  { c with halls := { c.halls with moves := KV.drop c.halls.moves id } }

/-- A relocation's copy finds no position: its source stays as it is, and a WRITE for whose inline reclaim it was made makes
another once the vestibule has room again (R427, R452). -/
def Card.moveBack (c : Card) (id : Nat) (m : Move) : Card :=
  let c := c.dropMove id
  match m.why with
  | .inline t => c.countInline t (if c.vestRoom false then 0 else 1)
  | _ => c

/-- A relocation's copy takes its position: of the wing its static-levelling move opened, or by the round robin (R416, R431,
R467, R604). Inline reclaim makes none in a quiet window (R23). -/
def Card.copyBay (c : Card) (id : Nat) (m : Move) (b : Bay) : Card :=
  let b := { b with reloc := true }
  let (c', p) := match m.why, c.maint.young with
    | .staticLevel, some (y, target) =>
      if y = keyWing m.src ∧ c.vestRoom false then c.assignIn target b else (c, none)
    | w, _ => if w.isInline && c.quietNow then (c, none) else c.place false false b
  match p with
  | some k =>
    ({ c' with halls := { c'.halls with moves := KV.put c'.halls.moves id { m with dst := some k } } }.draw false b.kind k).pump
      (keyDie k)
  | none => c.moveBack id m

/-- The source of a relocation is beyond recovery: it stays where it is (R496, R497). -/
def Card.moveLost (c : Card) (id : Nat) (blind : Bool) : Card :=
  match KV.find c.halls.moves id with
  | some m =>
    let c := (c.addLoss m.src .service blind).dropMove id
    match m.why with
    | .inline t => c.countInline t 0
    | _ => c
  | none => c

/-- Begin relocating the bay at a position (R447). -/
def Card.startMove (c : Card) (k : Nat) (why : MoveWhy) : Card :=
  let (c, id) := c.newId
  let m : Move := { src := k, dst := none, why := why, ended := false }
  let c := { c with halls := { c.halls with moves := KV.put c.halls.moves id m } }
  match KV.find c.media.vest k with
  | some b => c.copyBay id m b
  | none =>
    if c.unreachable k then ((c.bump 58 1).markRefresh (keyWing k) 2).moveLost id true else c.startJob k (.move id) false

/-- The source of a relocation has been read. -/
def Card.moveGot (c : Card) (id : Nat) : Card :=
  match KV.find c.halls.moves id with
  | some m => match c.bayAt m.src with
    | some b => c.copyBay id m b
    | none => c.dropMove id
  | none => c

/-- Another erase holds a die of the row (R605). -/
def Card.rowErasing (c : Card) (row : Nat) : Bool := c.halls.erases.any (fun x => dieRow x.1 == row)

/-- Wing erases that run: all but those a window left suspended that none may resume now (R29, R450). -/
def Card.runningErases (c : Card) : Nat :=
  (c.halls.erases.filter (fun x => c.mayResume x.2.owner || c.eraseRuns x.1)).length

/-- A wing that may be erased now: at most four erases run at once (R438, R450, R479, R512, R605, R267). -/
def Card.mayErase (c : Card) (w : Nat) : Bool :=
  (c.wing w).state == .waiting && !c.isWithdrawn w && !c.rowErasing (dieRow w) && !c.wingRead w && !c.onFenced w &&
    decide (c.runningErases < Config.windowErases)

/-- Wings awaiting erase that may be erased, in the order they came to (R444). -/
def Card.eraseOrder (c : Card) : List Nat :=
  (sortBy (fun a b =>
    decide (a.2.waitOrder < b.2.waitOrder ∨ (a.2.waitOrder = b.2.waitOrder ∧ a.1 ≤ b.1)))
    (c.media.wings.filter (fun x => c.mayErase x.1))).map Prod.fst

/-- Start a wing erase: one ERASE per block of the wing (R438). -/
def Card.startErase (c : Card) (w : Nat) (o : EraseOwner) : Card :=
  let hs := allHalls.filter (fun h => !(c.missingOf w).contains h)
  let c := c.setWing w { c.wing w with state := .erasing }
  let c := { c with halls := { c.halls with erases := KV.put c.halls.erases w { left := hs, failed := false, owner := o } } }
  hs.foldl (fun c h => c.enqueue (.erase w h)) c

/-- The halls of a wing whose die holds its erase suspended, or is suspending it. -/
def Card.suspendedHalls (c : Card) (w : Nat) : List Nat :=
  allHalls.filter (fun h => match (c.die (dieNo h (dieRow w))).erase with
    | some e => e.wing == w && e.stage != .running
    | none => false)

/-- The suspended erases of a wing complete ABORTED (R32, R435). -/
def Card.abortSuspended (c : Card) (w : Nat) : Card := c.cutErase w (c.suspendedHalls w)

/-- Abort every erase that is suspended; one that runs goes on (R22, R32, R160, R167). -/
def Card.abortErases (c : Card) : Card := c.halls.erases.foldl (fun c x => c.abortSuspended x.1) c

/-- The pages `p` selects read as erased, and nothing is held of them. -/
def Media.clear (m : Media) (p : Nat → Bool) : Media :=
  { m with cells := m.cells.filter (fun x => !p x.1), superseded := m.superseded.filter (fun x => !p x.1) }

/-- The pages `p` selects read as erased, and no loss is known of them. -/
def Card.clearPages (c : Card) (p : Nat → Bool) : Card :=
  { c with media := c.media.clear p, losses := { c.losses with gone := c.losses.gone.filter (fun x => !p x.1) } }

/-- A block of a wing is erased: nothing of that hall's pages remains, its write pointer is 0, and its class is measured anew by
its next program (R436, R457). -/
def Card.eraseHall (c : Card) (w h : Nat) : Card :=
  let c := (c.clearPages (fun k => keyWing k == w && keyHall k == h)).setPointer w h 0
  match c.blockOf w h with
  | some b => { c with media := { c.media with measured := KV.drop c.media.measured (blockKey h (dieRow w) b) } }
  | none => c

/-- The wing's last ERASE has ended: free erased, nothing of its pages left, a retired block's included (R478); or awaiting
erase again after a refusal (R438, R480). -/
def Card.endErase (c : Card) (w : Nat) (failed : Bool) : Card :=
  let c := { c with halls := { c.halls with erases := KV.drop c.halls.erases w } }
  if failed then c.awaitErase w
  else
    let c := c.clearPages (fun k => keyWing k == w)
    let v := c.wing w
    let c := c.setWing w { v with state := .free, closeSeq := 0, mark := none, visited := false, short := false,
                                  waitOrder := 0 }
    (c.bump 63 1).ev 31 (leBytes 2 w)

/-- Valid bays an inline WRITE of `b` bays relocates from a victim of `v` valid bays among `n` (R452). -/
def inlineShare (b v n : Nat) : Nat := (b * v + (n - v) - 1) / (n - v)

/-- Choose a new inline victim (R444, EV-30). -/
def Card.newVictim (c : Card) : Card × Option (Nat × Nat) :=
  match c.chooseVictim with
  | some w =>
    let v := (c.validIn w).length
    (({ c with maint := { c.maint with victim := some (w, v) } }).traceVictim w true, some (w, v))
  | none => ({ c with maint := { c.maint with victim := none } }, none)

/-- The inline victim chosen before, while it still has bays to move (R452). -/
def Card.inlineCurrent (c : Card) : Option (Nat × Nat) :=
  c.maint.victim.filter (fun x => (c.wing x.1).state == .closed && !(c.validIn x.1).isEmpty && !c.excluded x.1)

/-- The inline victim: the one being emptied, else a new one (R452). -/
def Card.inlineVictim (c : Card) : Card × Option (Nat × Nat) :=
  match c.inlineCurrent with
  | some x => (c, some x)
  | none => c.newVictim

/-- Replace the inline work of an outstanding WRITE. -/
def Card.setInline (c : Card) (t : Tag) (f : WriteWork → WriteWork) : Card :=
  match c.cmdOf t with
  | some (.write k) => c.setCmd t (.write (f k))
  | _ => c

/-- The inline work of an outstanding WRITE. -/
def Card.inlineOf (c : Card) (t : Tag) : Option WriteWork :=
  match c.cmdOf t with
  | some (.write k) => some k
  | _ => none

/-- Erase a wing inside a WRITE. -/
def Card.inlineErase (c : Card) (t : Tag) (w : Nat) : Card :=
  (c.setInline t (fun k => { k with inlineErases := k.inlineErases ++ [w],
                                    inlineEmpty := k.inlineEmpty.filter (· != w) })).startErase w (.inline t)

/-- Inline reclaim can still come to erase this wing: one whose dies hold a window's erase it leaves to a later one, as it
resumes none (R479, R512, R605). -/
def Card.inlineHopes (c : Card) (w : Nat) : Bool :=
  (c.wing w).state == .waiting && !c.isWithdrawn w && !c.onFenced w &&
    !(c.halls.erases.any (fun x => dieRow x.1 == dieRow w && x.2.owner == .window))

/-- A wing that a WRITE's relocations have emptied is erased inside it as soon as it may be (R452). -/
def Card.inlineTry (c : Card) (t : Tag) (w : Nat) : Card :=
  if c.mayErase w then c.inlineErase t w
  else if c.inlineHopes w then c
  else c.setInline t (fun k => { k with inlineEmpty := k.inlineEmpty.filter (· != w) })

/-- A victim without valid bays awaits erase, inside the WRITE (R448, R452). -/
def Card.inlineSpent (c : Card) (t : Tag) (w : Nat) : Card :=
  (c.awaitErase w).setInline t (fun k => { k with inlineEmpty := k.inlineEmpty ++ [w] })

/-- As many of a victim's bays as the WRITE still has to relocate are taken (R452). -/
def Card.inlineTake (c : Card) (t : Tag) (due w : Nat) : Card :=
  let ks := (c.movable w).take due
  ks.foldl (fun c x => c.startMove x (.inline t))
    (c.setInline t (fun k => { k with inlineDue := k.inlineDue - ks.length, inlineMoves := k.inlineMoves + ks.length }))

/-- The bays a WRITE still has to relocate are taken from the current inline victim; where that has none left to take but
some under way, the rest waits for those. A new victim is chosen only when no wing that may be erased is waiting (R444,
R452). -/
def Card.inlineMore (c : Card) (t : Tag) (n : Nat) : Card :=
  match n, c.inlineOf t with
  | n + 1, some k =>
    if k.inlineDue = 0 then c
    else match c.inlineCurrent with
      | some (w, _) => c.inlineTake t k.inlineDue w
      | none => match c.eraseOrder with
        | x :: _ => (c.inlineErase t x).inlineMore t n
        | [] => match c.newVictim with
          | (c, none) => c.setInline t (fun k => { k with inlineDue := 0 })
          | (c, some (w, _)) =>
            if (c.validIn w).isEmpty then (c.inlineSpent t w).inlineMore t n else c.inlineTake t k.inlineDue w
  | _, _ => c

/-- Inline reclaim begun in a WRITE goes on: the wings it emptied are erased, the bays still due are relocated. A quiet
window ends it (R23, R452; log entry 78). -/
def Card.inlineStep (c : Card) (t : Tag) : Card :=
  match c.inlineOf t with
  | some k =>
    if k.inlineDue = 0 ∧ k.inlineEmpty = [] then c
    else if c.quietNow then c.setInline t (fun k => { k with inlineDue := 0, inlineEmpty := [] })
    else
      let c := c.inlineMore t 8
      match c.inlineOf t with
      | some k => k.inlineEmpty.foldl (fun c w => c.inlineTry t w) c
      | none => c
  | none => c

/-- Inline reclaim for the WRITE of tag `t`, which places `b` bays: up to two wings awaiting erase are erased, else bays of
the inline victim are relocated (R452). -/
def Card.inlineReclaim (c : Card) (t : Tag) (b : Nat) : Card :=
  let c := c.setInline t (fun k => { k with inlined := true })
  match c.eraseOrder with
  | w :: _ =>
    let c := c.inlineErase t w
    match c.eraseOrder with
    | x :: _ => c.inlineErase t x
    | [] => c
  | [] =>
    match c.inlineVictim with
    | (c, none) => c
    | (c, some (w, v0)) =>
      if (c.validIn w).isEmpty then (c.inlineSpent t w).inlineStep t
      else (c.setInline t (fun k => { k with inlineDue := inlineShare b v0 (c.wingBays w) })).inlineStep t

/-- A WRITE performs inline reclaim while fewer than 32 free erased wings remain outside a quiet window (R452,
R454). -/
def Card.mayInline (c : Card) : Bool := decide (c.freeErased < Config.markInline) && !c.quietNow

/-- A static-levelling move has ended: the wing it opened takes no other bay, so its last gallery is completed with FILLER
bays and it is closed (R379, R411, R604; log entry 33). -/
def Card.leaveTarget (c : Card) : Card :=
  match c.maint.young with
  | none => c
  | some (_, t) =>
    let c : Card := { c with maint := { c.maint with young := none } }
    match c.openOf t with
    | none => c
    | some o =>
      let c := c.setOpen { o with short := true }
      if o.gals.all (fun g => g.taken.isEmpty) then c.closeWing t else c.fillWing t

/-- The young wing of a move has no valid bay left: the move has ended (R467). -/
def Card.moveOver (c : Card) (w : Nat) : Card :=
  if c.maint.young.any (fun x => x.1 == w) && (c.wing w).state != .closed then c.leaveTarget else c

/-- A relocation's copy has been programmed: it replaces its source wherever that is still named (R447, R448, R473). Where the
relocation's transaction has ended, the map stays as it is and the copy counts for nothing (R22, R28; log entry 100). -/
def Card.moveDone (c : Card) (id : Nat) (m : Move) (dst : Nat) : Card :=
  if m.ended then (c.supersede dst).dropMove id else
  let c := ((c.rekey m.src dst).supersede m.src).dropMove id
  let w := keyWing m.src
  match m.why with
  | .redrive => c.releaseBare m.src
  | .inline t =>
    let c := ((c.bump 61 1).countInline t 0).emptied w
    if (c.wing w).state = .waiting then
      (c.setInline t (fun k => { k with inlineEmpty := k.inlineEmpty ++ [w] })).inlineStep t
    else c
  | .patrol => ((c.bump 61 1).bump 62 1).emptied w
  | .staticLevel => ((c.bump 61 1).emptied w).moveOver w
  | _ => (c.bump 61 1).emptied w

end Sys2Proof.Machine
end

