-- ==== Sys2Proof/Machine/Windows.lean ====
section
/-! DEFINITION. Windows: holding, starting and ending them (R309 to R311, R316, R355, R365, R366, R368, R401). -/

namespace Sys2Proof.Machine

open Sys2Proof

/-- Two windows overlap in treads; windows that touch do not (R316). -/
def Window.overlaps (a b : Window) : Bool :=
  decide ((b.start - a.start).toNat < a.duration) || decide ((a.start - b.start).toNat < b.duration)

/-- Windows held or running. -/
def Card.windows (c : Card) : List Window := c.maint.running ++ c.maint.held

/-- A window may be added: no third, and none it overlaps (R316, R355). -/
def Card.windowFits (c : Card) (w : Window) : Bool :=
  decide (c.windows.length < 2) && !(c.windows.any (fun x => x.overlaps w))

/-- A window's duration is between its limits (R311, R355). -/
def durationOk (d : Nat) : Bool := decide (Config.windowMin ≤ d ∧ d ≤ Config.windowMax)

/-- Some kind is granted (R311, R355). Parity repair, bit 5, may be granted like any other; the spec gives that activity no
effect, and the card does nothing under it (R23, R309; log entry 79). -/
def kindsOk (k : BitVec 8) : Bool := k &&& 0x7F != 0

/-- A window is held. -/
def Card.holdWindow (c : Card) (w : Window) : Card := { c with maint := { c.maint with held := c.maint.held ++ [w] } }

/-- A held window begins running (EV-17); what waited for a transaction may start (R22). -/
def Card.startWindow (c : Card) (w : Window) : Card :=
  let r := { w with began := c.treads.ticks }
  let c := { c with maint := { c.maint with held := c.maint.held.erase w, running := c.maint.running ++ [r] } }
  (c.ev 17 ([BitVec.ofNat 8 w.code, w.kinds] ++ leBytes 4 w.stop.toNat)).pumpAll

/-- Forget a patrol visit cut off by a window's end: it starts again at the wing's first position (R472). -/
def Card.cutVisit (c : Card) : Card :=
  ({ c with maint := { c.maint with visit := none } }).keepJobs (fun x => x.2.purpose != Purpose.patrol)

/-- Relocations made in a service window. -/
def MoveWhy.windowed : MoveWhy → Bool
  | .reclaim | .refresh | .staticLevel | .patrol => true
  | _ => false

/-- A service window's transaction has ended: nothing further of its work starts (R22, R29, R472, R493). -/
def Card.cutWindow (c : Card) : Card := ((c.cutVisit).endMoves MoveWhy.windowed).endErases .window

/-- A running window ends; `cause` as EV-18 codes it (R22, R29, R368). -/
def Card.endOne (c : Card) (w : Window) (cause : Nat) : Card :=
  let c := { c with maint := { c.maint with running := c.maint.running.erase w } }
  (if c.maint.running.any (fun x => !x.quiet) then c else c.cutWindow).ev 18
    [BitVec.ofNat 8 w.code, BitVec.ofNat 8 cause]

/-- Every running window ends. -/
def Card.endWindows (c : Card) (cause : Nat) : Card := c.maint.running.foldl (fun c w => c.endOne w cause) c

/-- Drop every held window and end the running ones (R160, R167). -/
def Card.dropWindows (c : Card) : Card :=
  let c := c.endWindows 4
  { c with maint := { c.maint with held := [] } }

/-- A user write finds no erased bay ready in a quiet window: the window ends, and what it held back starts (R401). -/
def Card.breakQuiet (c : Card) : Card :=
  if c.quietNow ∧ c.erasedReady = 0 then
    (((c.maint.running.filter Window.quiet).foldl (fun c w => c.endOne w 3) c).pumpAll).notice ntQuietBroken
      (c.treads.c.setWidth 24)
  else c

/-- A running window's end tread is the counter's. -/
def Card.windowEnding (c : Card) : Bool := c.maint.running.any (fun w => w.stop == c.treads.c)

/-- WINDOW_START: a held window's start tread is reached, after everything else of that tread (R365, R366). A window still
running then, which only a load of the counter can bring about, runs on (R367, R368; log entry 69). -/
def Card.windowStart (c : Card) : Card :=
  let t := c.treads.c
  if c.phase ≠ .mounted || !c.power.hclk || c.windowEnding then c
  else if c.flights.marks.any (fun m => m.tread == t) || (c.flights.held.map (fun h => h.tread == t)).getD false then c
  else match c.maint.held.find? (fun w => w.start == t) with
    | some w => c.startWindow w
    | none => c

/-- WINDOW_START (R365). -/
def execWindowStart (s : State) : Host.Outcome State Fault Refusal := run Card.windowStart s

/-- The better of two running windows: the one whose duration runs out first, the one that began running first on a tie. -/
def soonerOver (a b : Window) : Window := if b.began + b.duration < a.began + a.duration then b else a

/-- The running window whose duration runs out first (R368). -/
def Card.firstOver (c : Card) : Option Window :=
  match c.maint.running with
  | [] => none
  | w :: r => some (r.foldl soonerOver w)

/-- WINDOW_END: of the window whose end tread it is, else of the one whose duration in HCLK cycles has run out first, which it
does not while HCLK is absent (R15, R368). What the window held back may start. -/
def Card.windowEnd (c : Card) : Card :=
  if !c.power.hclk then c
  else match c.maint.running.find? (fun w => w.stop == c.treads.c), c.firstOver with
    | some w, _ => (c.endOne w 1).pumpAll
    | none, some w => (c.endOne w 2).pumpAll
    | none, none => c

/-- WINDOW_END (R368). -/
def execWindowEnd (s : State) : Host.Outcome State Fault Refusal := run Card.windowEnd s

end Sys2Proof.Machine
end

