-- ==== Sys2Proof/Machine/Flights.lean ====
section
/-! DEFINITION. Flights, landings, rollbacks and marks (R357, R365 to R402, R315 to R322, R521 to R525). -/

namespace Sys2Proof.Machine

open Sys2Proof

/-- The last landed flight, 0 where there is none (R376). -/
def Card.lastFlight (c : Card) : Flight := (c.flights.last.map Landed.flight).getD 0

/-- The flights of the landings held or in progress. -/
def Card.pendingFlights (c : Card) : List Flight :=
  (match c.flights.held with
    | some h => if h.rollback then [] else [h.flight]
    | none => []) ++ (c.flights.acts.filter (fun a => !a.rollback)).map Action.flight

/-- The numbering accepts F for a landing (R318, R375 to R377). -/
def Card.landingOk (c : Card) (f : Flight) : Bool :=
  (match c.flights.last with
    | some l => flightAhead f l.flight
    | none => true) && c.pendingFlights.all (fun g => flightAhead f g)

/-- The numbering accepts F for a rollback (R318, R376, R396). -/
def Card.rollbackOk (c : Card) (f : Flight) : Bool :=
  c.flights.canRoll && (c.flights.last.map Landed.flight == some f)

/-- A FLIGHT-STALE answer carries the last landed flight (R318). -/
def Card.staleInfo (c : Card) : BitVec 24 := c.lastFlight.setWidth 24

/-- A SYNC action is dropped and counted; the reason as EV-06 codes it (BC-13). -/
def Card.dropSync (c : Card) (reason type seq : Byte) : Card := (c.bump 13 1).ev 6 [reason, type, seq]

/-- The open flight closes and a new ordinal is opened (R369, R371, R379 step 1). -/
def Card.closeFlight (c : Card) : Card :=
  { c with flights := { c.flights with openOrd := c.flights.nextOrd, nextOrd := c.flights.nextOrd + 1 } }

/-- The WRITEs that an HCLK absence has ended and whose LANE-CHECK is still owed (R38, R220). -/
def Card.cutWorks (c : Card) : List (Tag × WriteWork) :=
  c.ports.tags.filterMap (fun x => match x.2.state with
    | .outstanding (.cut w) => some (BitVec.ofNat 6 x.1, w)
    | _ => none)

/-- An image of a bay of the ordinals `lo` to `hi` whose gallery has no parity yet (R379 step 3). -/
def Card.rangeImages (c : Card) (lo hi : Nat) : List Bay :=
  (c.media.vest.map Prod.snd).filter (fun b =>
    (b.kind == .data || b.kind == .discard || b.kind == .mark) && decide (lo ≤ b.ord ∧ b.ord ≤ hi))

/-- Complete with FILLER bays every gallery that holds such a bay, and what comes before it in its wing (R379 step 3, R410). -/
def Card.completeRange (c : Card) (lo hi : Nat) : Card :=
  ((c.rangeImages lo hi).map (fun b => (keyWing b.key, keyGallery b.key))).dedup.foldl (fun c x => c.fillTo x.1 x.2) c

/-- Bays that a range of landed changes leaves zeroed, as merged ranges of their sectors, ascending (R387). -/
def mergeBays (bs : List Nat) (ord seq : Nat) : List DRange :=
  bs.foldr (fun b rs => match rs with
    | r :: t => if 16 * b + 16 = r.first then { r with first := 16 * b, count := r.count + 16 } :: t
        else { first := 16 * b, count := 16, ord := ord, seq := seq } :: rs
    | [] => [{ first := 16 * b, count := 16, ord := ord, seq := seq }]) []

/-- A list in pieces of `n`, at most `k` of them. -/
def chunks {α : Type} (n k : Nat) (l : List α) : List (List α) :=
  match k, l with
  | _, [] => []
  | 0, _ => []
  | k + 1, l => l.take n :: chunks n k (l.drop n)

/-- The merged discard ranges of the ordinals `lo` to `hi` (R379, R387). -/
def Card.mergedRanges (c : Card) (lo hi seq : Nat) : List DRange :=
  let xs := sortBy (fun a b => decide (a.ord ≤ b.ord)) (c.views.changes.filter (inOrdinals lo hi))
  let final : KV Loc := xs.foldl (fun (m : KV Loc) x => KV.put m x.bay x.loc) []
  mergeBays (final.filterMap (fun x => if x.2 = .zeroed then some x.1 else none)) hi seq

/-- A landing's range: from the landing base to the ordinal it closed (R373). -/
def Card.ofRange (c : Card) (a : Action) (ord : Nat) : Bool := decide (c.flights.base ≤ ord ∧ ord ≤ a.closed)

/-- Replace an action, found by the ordinal it closed. -/
def Card.setAct (c : Card) (a : Action) : Card :=
  { c with flights := { c.flights with acts := c.flights.acts.map (fun x => if x.closed = a.closed then a else x) } }

/-- Step 2 has ended: every command of the range has its final response; the LAND-AFTER WRITE that executed the
landing has only to be applied, and every MARK of the range has its position (R379). -/
def Card.drained (c : Card) (a : Action) : Bool :=
  c.writeWorks.all (fun x => !c.ofRange a x.2.ord || (x.2.applied && a.src == .landAfter x.1)) &&
    c.cutWorks.all (fun x => !c.ofRange a x.2.ord) && c.flights.due.all (fun x => !c.ofRange a x.2)

/-- Every earlier landing and rollback has ended (R386). -/
def Card.isHead (c : Card) (a : Action) : Bool := c.flights.acts.head?.map Action.closed == some a.closed

/-- The DISCARD bays that take a landing's ranges beyond those its landing bay records, 64 KiB of 8-byte ranges each (R379
step 3, R387). -/
def Card.overflowBays (c : Card) (a : Action) : List Bay :=
  let rest := (c.mergedRanges c.flights.base a.closed c.media.seq).drop Config.landingRanges
  (chunks 8192 rest.length rest).map (fun rs => newBay .discard 0 0 a.closed (.discard rs))

/-- A landing or rollback in progress goes on by itself as far as it can: step 2, then step 3, which takes the range as it
stands once every earlier one has ended (R379, R386). A rollback waits for nothing. -/
def Card.stepAct (c : Card) (a : Action) : Card :=
  match a.stage with
  | .waiting =>
    if a.rollback then c.setAct { a with stage := .completing }
    else if c.isHead a && c.drained a then
      match c.placeAll false (c.overflowBays a) with
      | some (c, _) => (c.completeRange c.flights.base a.closed).setAct { a with stage := .completing }
      | none => c
    else c
  | .completing => if a.rollback then c else c.completeRange c.flights.base a.closed
  | .assigned _ | .issued _ => c

/-- A MARK's bay is assigned, or waits where no position is to be had (R357). -/
def Card.placeMark (c : Card) (x : HeldMark × Nat) : Card :=
  match c.placeNew false (newBay .mark 0 0 x.2 (.mark x.1.value x.1.tread)) with
  | (c, some _) => c
  | (_, none) => { c with flights := { c.flights with due := c.flights.due ++ [x] } }

/-- The MARKs that wait for a position get one as far as there are any. -/
def Card.placeDue (c : Card) : Card :=
  if c.phase ≠ .mounted then c
  else c.flights.due.foldl Card.placeMark { c with flights := { c.flights with due := [] } }

/-- Every action in progress goes on as far as it can, in order (R386). -/
def Card.stepActs (c : Card) : Card :=
  let c := c.placeDue
  c.flights.acts.foldl Card.stepAct c

/-- A landing executes (R379 step 1; EV-12). -/
def Card.executeLanding (c : Card) (f : Flight) (late : Nat) (src : ActSrc) : Card :=
  let a : Action := { rollback := false, flight := f, exec := c.treads.c, late := late, src := src,
                      closed := c.flights.openOrd, opened := c.flights.nextOrd, stage := .waiting,
                      begun := c.treads.ticks, bay := none, failed := false }
  let c := c.closeFlight
  let c := { c with flights := { c.flights with acts := c.flights.acts ++ [a] } }
  let c := if c.straps.role = .solo then c
    else { c with twin := { c.twin with waits := c.twin.waits ++ [{ flight := f, ended := false }] } }
  (c.ev 12 (leBytes 4 f.toNat ++ leBytes 2 late)).driveLnd.pumpAll.stepActs

/-- The serial field of HELLO: CRC-32C of the serial number (R528). -/
def Card.serialCrc (c : Card) : BitVec 32 := crc32c ((c.record.map Record.serial).getD [])

/-- A HELLO message (R528). -/
def Card.helloBytes (c : Card) (failed replay : Bool) : List Byte :=
  let body := [0x01, (if c.straps.role = .twinA then 1 else 2)] ++ leBytes 2 c.straps.slot.toNat ++
    leBytes 4 c.lastFlight.toNat ++ leBytes 4 c.serialCrc.toNat ++
    [BitVec.ofNat 8 c.flights.history.length, (if failed then 1 else 0) ||| (if replay then 2 else 0), 0, 0]
  body ++ leBytes 4 (crc32c body).toNat

/-- A DIGEST message (R529). -/
def digestBytes (d : Digest) (replayed : Bool) : List Byte :=
  let body := [0x02, (if replayed then 1 else 0), 0, 0] ++ leBytes 4 d.flight.toNat ++ leBytes 8 d.digest.toNat ++
    leBytes 4 d.prev.toNat
  body ++ leBytes 4 (crc32c body).toNat

/-- The burst a card with a twin role sends when a landing ends (R527, R530, R537; EV-39). -/
def Card.sendBurst (c : Card) (failed : Bool) : Card :=
  if c.straps.role = .solo ∨ c.phase ≠ .mounted ∨ !c.power.dock then c
  else
    let replay := c.twin.replayDue
    let ms := [c.helloBytes failed replay] ++
      (if replay then c.flights.history.map (fun d => digestBytes d true) else []) ++
      (if failed then [] else (c.flights.history.getLast?.map (fun d => digestBytes d false)).toList)
    let c := { c with twin := { c.twin with replayDue := false } }
    (c.send (.twin ms)).ev 39 [(if failed then 1 else 0) ||| (if replay then 2 else 0), BitVec.ofNat 8 ms.length]

/-- The newest flight of the card's history that the partner's burst holds (R538). -/
def sharedFlight (mine heard : List Digest) : Option (Digest × Digest) :=
  mine.reverse.findSome? (fun d => (heard.find? (fun e => e.flight == d.flight)).map (fun e => (d, e)))

/-- Set the pair state by a verdict (R533 to R535; EV-38). -/
def Card.setPair (c : Card) (p : BitVec 8) (f : Flight) : Card :=
  let old := c.twin.pair
  let c := { c with twin := { c.twin with
      pair := p, fresh := false, lastCompared := if p = 1 ∨ p = 3 then f else c.twin.lastCompared
      firstDiverged := if p = 3 ∧ old ≠ 3 then f else c.twin.firstDiverged } }
  let c := c.ev 38 ([p] ++ leBytes 4 f.toNat)
  if p = 3 ∧ old ≠ 3 then c.notice ntTwinDiverged (f.setWidth 24) else c

/-- The verdicts of the oldest landings that await one, up to `n` of them, each once its landing has ended and a partner's
burst is stored (R532, R533, R538). The link is up then; after a MOUNT it comes to be so at the first verdict (R535, R536). -/
def Card.judgeUp (c : Card) (n : Nat) : Card :=
  match n, c.twin.waits, c.twin.heard with
  | n + 1, v :: r, b :: bs =>
    if v.ended then
      let c := { c with twin := { c.twin with waits := r, heard := bs, linkUp := c.twin.linkUp || c.twin.fresh } }
      (match sharedFlight c.flights.history b.digests with
        | some (x, y) => c.setPair (if x.digest = y.digest then 1 else 3) x.flight
        | none => c.setPair (if b.replay then 4 else 2) 0).judgeUp n
    else c
  | _, _, _ => c

/-- Every verdict that can be reached is reached (R532). -/
def Card.judge (c : Card) : Card := c.judgeUp c.twin.waits.length

/-- A landing has ended: its verdict may now be reached, and the burst goes out (R527, R532). -/
def Card.twinEnd (c : Card) (f : Flight) (failed : Bool) : Card :=
  let mark (l : List Verdict) : List Verdict :=
    l.map (fun v => if v.flight = f then { v with ended := true } else v)
  let c := { c with twin := { c.twin with waits := mark c.twin.waits } }
  (c.sendBurst failed).judge

/-- Remove an action that has ended; LND follows (R385, R389). -/
def Card.removeAct (c : Card) (a : Action) : Card :=
  ({ c with flights := { c.flights with acts := c.flights.acts.filter (fun x => x.closed != a.closed) } }).driveLnd

/-- The command that waits for an action, CLOSE apart. -/
def ActSrc.waiting : ActSrc → Option Tag
  | .cmd t | .landAfter t => some t
  | _ => none

/-- The card holds scheduled actions only while MOUNTED (R143): what was scheduled while CLOSE's landing was in progress is
dropped, and a command that waits for it is answered as CLOSED answers (R142; log entry 36). -/
def Card.dropActions (c : Card) : Card :=
  let c := c.dropWindows
  let srcs := (c.flights.held.map Held.src).toList ++ c.flights.acts.map Action.src
  let c := ({ c with flights := { c.flights with held := none, marks := [], due := [], acts := [] } }).sweep
  srcs.foldl (fun c x => match x.waiting with
    | some t => c.finish t stClosed 0 false
    | none => c) c

/-- CLOSE's last steps: suspended erases aborted, DRAM in self-refresh behind its canary, CLOSED, final OK (R160 steps
4 to 6, R314). -/
def Card.enterClosed (c : Card) (t : Tag) (how : Nat) : Card :=
  let c := c.dropActions.abortErases
  let c := { c with views := { c.views with selfRefresh := true }
                    straps := { c.straps with closedSlot := c.straps.mountSlot } }
  ((c.finish t stOk (info3 how 0 0) false).enter .closed).driveLnd

/-- User bytes count at DONE (BC-00). -/
def Card.countWritten (c : Card) (w : WriteWork) : Card := if w.discard then c else c.bump 0 (4096 * w.count)

/-- Inline work of the command has ended (R453). -/
def WriteWork.inlineDone (w : WriteWork) : Bool :=
  w.inlineErases.isEmpty && w.inlineMoves == 0 && w.inlineDue == 0 && w.inlineEmpty.isEmpty

/-- A LAND-AFTER WRITE's final OK, once its inline work has ended too (R295, R453). -/
def Card.landedResponse (c : Card) (t : Tag) (info : Nat) : Card :=
  match c.cmdOf t with
  | some (.write w) =>
    if w.inlineDone then (c.countWritten w).finish t stOk (info3 info 0 0) false
    else c.setCmd t (.write { w with stage := .landed info })
  | _ => c

/-- The responses that end with a landing (R295, R313, R319). -/
def Card.landingResponse (c : Card) (a : Action) (ok : Bool) : Card :=
  match a.src with
  | .sync _ => c
  | .cmd t => c.finish t stOk (info3 (if ok then 1 else 0) (if a.late = 0 then 0 else 1) 0) false
  | .landAfter t => c.landedResponse t (if ok then 1 else 0)
  | .close t => if ok then c.enterClosed t 1 else c.finish t stNotReady 0 false

/-- An action fails: its bay's failed copy is named as voided from now on, and nothing further is programmed for it (R381,
R382, R395). -/
def Card.failAct (c : Card) (a : Action) : Card :=
  let c : Card := { c with flights := { c.flights with
    voided := if a.failed then a.bay.getD c.flights.voided else c.flights.voided } }
  (c.removeAct a).sweep

/-- A landing fails (R381; EV-14, BC-08). -/
def Card.failLanding (c : Card) (a : Action) : Card :=
  let c := (c.failAct a).notice ntLandingFailed (a.flight.setWidth 24)
  let c := (c.bump 8 1).ev 14 (leBytes 4 a.flight.toNat ++ [0])
  ((c.landingResponse a false).twinEnd a.flight true).stepActs

/-- The write records a landing takes, in the order of their frames' ends (R522). -/
def Card.recordsOf (c : Card) (a : Action) : List WriteRec :=
  sortBy (fun x y => decide (x.order ≤ y.order)) (c.flights.records.filter (fun r => c.ofRange a r.ord))

/-- The digest of a landing (R523). -/
def Card.digestOf (c : Card) (a : Action) : BitVec 64 :=
  crc64 ((c.flights.last.map Landed.digest).getD 0) ((c.recordsOf a).flatMap WriteRec.bytes)

/-- The bays of an action's range that its landing takes: of each its one copy in use, and none of a command that ended other
than OK (R287, R387). -/
def Card.landingBays (c : Card) (a : Action) : Nat :=
  (c.bays.filter (fun b => c.ofRange a b.ord && (b.kind == .data || b.kind == .discard || b.kind == .mark) &&
    !c.isSuperseded b.key && !(c.flights.absent.map Prod.fst).contains b.seq)).length

/-- What the landing bay records (R387). -/
def Card.landingRec (c : Card) (a : Action) : LandingRec :=
  { flight := a.flight, tread := a.exec, late := a.late, prev := c.lastFlight,
    first := c.flights.base, last := a.closed, slot := c.straps.mountSlot, digest := c.digestOf a,
    cmds := (c.recordsOf a).length,
    bays := c.landingBays a,
    voided := c.flights.voided, losses := c.lossSection,
    ranges := (c.mergedRanges c.flights.base a.closed c.media.seq).take Config.landingRanges,
    absent := (c.flights.absent.filter (fun x => c.ofRange a x.2)).map Prod.fst }

/-- Step 3 has ended for a landing, and nothing holds its bay back (R379 step 4, R386). -/
def Card.mayIssue (c : Card) (a : Action) : Bool :=
  c.phase == .mounted && c.power.hclk && a.stage == .completing && c.isHead a &&
    (a.rollback || (c.rangeImages c.flights.base a.closed).isEmpty)

/-- A LANDING or ROLLBACK bay has its position: it is issued where its PROGRAM has come to stand in the hall's queue, `since`
cycles after the action's execution (R379 step 4, R380; EV-13). -/
def Card.lodgeAct (c : Card) (a : Action) (k since : Nat) : Card :=
  let a := { a with bay := (KV.find c.media.vest k).map Bay.seq, stage := .assigned k }
  let c := c.setAct a
  if c.programIssued k then c.noteIssued a k since else c

/-- The landing bay takes its position, its cycles since execution within the cut-off (R379 step 4, R380). -/
def Card.issueLanding (c : Card) (since : Nat) : Card :=
  match c.flights.acts with
  | a :: _ =>
    if !a.rollback ∧ c.mayIssue a ∧ since ≤ Config.cutoffCycles then
      match c.placeNew false (newBay .landing 0 0 a.closed (.landing (c.landingRec a))) with
      | (c', some k) => c'.lodgeAct a k since
      | (_, none) => c
    else c
  | [] => c

/-- LANDING_BAY_ISSUE (R379 step 4). -/
def execLandingBayIssue (since : BitVec 24) (s : State) : Host.Outcome State Fault Refusal :=
  run (fun c => c.issueLanding since.toNat) s

/-- LANDING_CUTOFF: the oldest landing whose bay is not issued fails (R381). Its cycles do not run with HCLK absent (R15). -/
def Card.landingCutoff (c : Card) : Card :=
  match c.flights.acts.find? (fun a => !a.rollback && (match a.stage with | .issued _ => false | _ => true)) with
  | some a => if c.phase = .mounted ∧ c.power.hclk then c.failLanding a else c
  | none => c

/-- LANDING_CUTOFF (R381). -/
def execLandingCutoff (s : State) : Host.Outcome State Fault Refusal := run Card.landingCutoff s

/-- The digest history with one more landing, the last 64 kept (R525). -/
def Card.addHistory (c : Card) (d : Digest) : List Digest :=
  (c.flights.history ++ [d]).drop (c.flights.history.length + 1 - Config.historyDepth)

/-- Step 5: the landing bay `b` is programmed (R266, R372, R379, R398, R502, R525; BC-07, EV-14). -/
def Card.landed (c : Card) (a : Action) (b : Bay) : Card :=
  match b.body with
  | .landing r =>
    let l : Landed := { flight := r.flight, tread := r.tread, prev := r.prev, first := r.first, last := r.last,
                        seq := b.seq, digest := r.digest, slot := r.slot }
    let c := { c with
      views := c.views.land r.first r.last
      flights := { c.flights with
        base := a.opened, last := some l, before := c.flights.last, canRoll := true, moved := false, voided := 0,
        records := c.flights.records.filter (fun x => !(decide (r.first ≤ x.ord ∧ x.ord ≤ r.last))),
        absent := c.flights.absent.filter (fun x => decide (r.last < x.2)),
        digest := r.digest,
        history := c.addHistory { flight := r.flight, digest := r.digest, prev := r.prev } } }
    let c := (c.carryLosses r.flight b.seq r.losses).removeAct a
    let c := (c.bump 7 1).ev 14 (leBytes 4 a.flight.toNat ++ [1])
    (match a.src with
      | .close _ => (c.twinEnd a.flight false).landingResponse a true
      | _ => (c.landingResponse a true).twinEnd a.flight false).stepActs
  | _ => c

/-- A command has ended other than OK: its bays whose programs have begun land with no flight (R222, R287; log entry 32). -/
def Card.disown (c : Card) (w : WriteWork) : Card :=
  let xs := (w.bays.filter (fun b => c.begun b.key)).filterMap (fun b => (c.bayAt b.key).map (fun x => (x.seq, w.ord)))
  { c with flights := { c.flights with absent := c.flights.absent ++ xs } }

/-- A rollback ends the outstanding commands of the ordinals from the base to the one it closed with ROLLED-BACK
(R392). -/
def Card.rollCommands (c : Card) (a : Action) : Card :=
  (c.writeWorks.filter (fun x => c.ofRange a x.2.ord)).foldl
    (fun c x => (c.disown x.2).finish x.1 stRolledBack 0 false) c

/-- A rollback executes: the open flight closes. With an earlier landing or rollback in progress it acts further only
when its bay may be issued (R386, R392). -/
def Card.executeRollback (c : Card) (f : Flight) (src : ActSrc) : Card :=
  let a : Action := { rollback := true, flight := f, exec := c.treads.c, late := 0, src := src,
                      closed := c.flights.openOrd, opened := c.flights.nextOrd, stage := .completing,
                      begun := c.treads.ticks, bay := none, failed := false }
  let c := c.closeFlight
  let c := if c.flights.acts.isEmpty then c.rollCommands a else c
  ({ c with flights := { c.flights with acts := c.flights.acts ++ [a] } }).pumpAll.stepActs

/-- What the ROLLBACK bay records (R393). -/
def Card.rollbackRec (c : Card) (a : Action) (l : Landed) : RollbackRec :=
  { flight := a.flight, tread := a.exec, restored := l.prev, landFirst := l.first, landLast := l.last,
    base := c.flights.base, closed := a.closed, slot := c.straps.mountSlot, voided := c.flights.voided }

/-- A LAND or ROLLBACK that the numbering no longer accepts: FLIGHT-STALE for a command, dropped from SYNC (R318,
R356). -/
def Card.staleAct (c : Card) (src : ActSrc) (rollback : Bool) : Card :=
  match src with
  | .cmd t => c.finish t stFlightStale c.staleInfo false
  | .sync seq => c.dropSync 0x08 (if rollback then 0x11 else 0x10) seq
  | _ => c.dropSync 0x08 (if rollback then 0x11 else 0x10) 0

/-- Issue the ROLLBACK bay after its numbering check (R386, R393, R395). -/
def Card.issueRollback (c : Card) (since : Nat) : Card :=
  match c.flights.acts with
  | a :: _ =>
    if a.rollback ∧ c.mayIssue a then
      match c.rollbackOk a.flight, c.flights.last with
      | true, some l =>
        if since ≤ Config.cutoffCycles then
          let c := c.rollCommands a
          match c.placeNew false (newBay .rollback 0 0 a.closed (.rollback (c.rollbackRec a l))) with
          | (c', some k) => c'.lodgeAct a k since
          | (_, none) => c
        else c
      | _, _ => ((c.removeAct a).staleAct a.src true).stepActs
    else c
  | [] => c

/-- ROLLBACK_BAY_ISSUE (R386, R392). -/
def execRollbackBayIssue (since : BitVec 24) (s : State) : Host.Outcome State Fault Refusal :=
  run (fun c => c.issueRollback since.toNat) s

/-- A rollback fails (R395). -/
def Card.failRollback (c : Card) (a : Action) : Card :=
  let c := (c.failAct a).notice ntRollbackFailed (a.flight.setWidth 24)
  let c := match a.src with
    | .cmd t => c.finish t stOk 0 false
    | _ => c
  c.stepActs

/-- ROLLBACK_CUTOFF: the oldest rollback whose bay is not issued fails (R395). -/
def Card.rollbackCutoff (c : Card) : Card :=
  match c.flights.acts.find? (fun a => a.rollback && (match a.stage with | .issued _ => false | _ => true)) with
  | some a => if c.phase = .mounted ∧ c.power.hclk then c.failRollback a else c
  | none => c

/-- ROLLBACK_CUTOFF (R395). -/
def execRollbackCutoff (s : State) : Host.Outcome State Fault Refusal := run Card.rollbackCutoff s

/-- A last landed flight of which only the number is known, none for 0 (R376; log entry 80). -/
def Card.lostLanding (c : Card) (p : Flight) : Option Landed :=
  if p = 0 then none
  else some { flight := p, tread := Config.lostTread c.freeCount, prev := 0, first := 0, last := 0, seq := 0,
              digest := Config.lostDigest c.freeCount, slot := 0 }

/-- The landing that established P: the one before F where its landing bay is known, else what F recorded of it, with the
tread and digest nothing records any more (R376, R394). -/
def Card.restoredLanding (c : Card) (p : Flight) : Option Landed :=
  match c.flights.before with
  | some b => if b.flight = p then some b else c.lostLanding p
  | none => c.lostLanding p

/-- The ROLLBACK bay is programmed (R394, R396, R524, R525; BC-09, EV-15). -/
def Card.rolledBack (c : Card) (a : Action) (b : Bay) : Card :=
  match b.body with
  | .rollback r =>
    let p := c.restoredLanding r.restored
    let c := { c.nextFree with
      views := c.views.undoLanding r.closed
      flights := { c.flights with
        base := a.opened, last := p, before := none, canRoll := false, voided := 0,
        records := c.flights.records.filter (fun x => decide (r.closed < x.ord)),
        absent := c.flights.absent.filter (fun x => decide (r.closed < x.2)),
        digest := (p.map Landed.digest).getD 0,
        history := c.flights.history.filter (fun d => d.flight != r.flight) } }
    let c := (c.removeAct a).bump 9 1
    let c := c.ev 15 (leBytes 4 r.flight.toNat ++ leBytes 4 r.restored.toNat)
    let c := match a.src with
      | .cmd t => c.finish t stOk (info3 1 0 0) false
      | _ => c
    c.stepActs
  | _ => c

/-- A held action is let go. -/
def Card.unhold (c : Card) : Card := { c with flights := { c.flights with held := none } }

/-- Nothing of this tread comes before a LAND or ROLLBACK: no window ending, no MARK (R366). -/
def Card.firstOfTread (c : Card) : Bool :=
  let t := c.treads.c
  !c.windowEnding && !(c.flights.marks.any (fun m => m.tread == t))

/-- LANDING_EXECUTE: the counter takes a held LAND's T; the numbering is checked again (R318, R365, R379). -/
def Card.landingExecute (c : Card) : Card :=
  match c.flights.held with
  | some h =>
    if c.phase = .mounted ∧ c.power.hclk ∧ !h.rollback ∧ h.tread = c.treads.c ∧ c.firstOfTread then
      let c := c.unhold
      if c.landingOk h.flight then c.executeLanding h.flight 0 h.src
      else (c.staleAct h.src false).driveLnd
    else c
  | none => c

/-- LANDING_EXECUTE (R379). -/
def execLandingExecute (s : State) : Host.Outcome State Fault Refusal := run Card.landingExecute s

/-- ROLLBACK_EXECUTE: the counter takes a held ROLLBACK's T. With a landing or rollback in progress the numbering is
checked when the bay may be issued (R318, R386, R392). -/
def Card.rollbackExecute (c : Card) : Card :=
  match c.flights.held with
  | some h =>
    if c.phase = .mounted ∧ c.power.hclk ∧ h.rollback ∧ h.tread = c.treads.c ∧ c.firstOfTread then
      let c := c.unhold
      if !c.flights.acts.isEmpty || c.rollbackOk h.flight then c.executeRollback h.flight h.src
      else c.staleAct h.src true
    else c
  | none => c

/-- ROLLBACK_EXECUTE (R392). -/
def execRollbackExecute (s : State) : Host.Outcome State Fault Refusal := run Card.rollbackExecute s

/-- MARK_EXECUTE: at T a MARK bay is programmed in the open flight (R357, R366). -/
def Card.markExecute (c : Card) : Card :=
  match c.flights.marks.find? (fun m => m.tread == c.treads.c) with
  | some m =>
    if c.phase = .mounted ∧ c.power.hclk ∧ !c.windowEnding then
      let c := { c with flights := { c.flights with marks := c.flights.marks.erase m } }
      (c.placeMark (m, c.flights.openOrd)).pumpAll
    else c
  | none => c

/-- MARK_EXECUTE (R357). -/
def execMarkExecute (s : State) : Host.Outcome State Fault Refusal := run Card.markExecute s

/-- A LAND-AFTER WRITE is outstanding, one whose LANE-CHECK is owed too (R38, R261, R315). -/
def Card.landAfterOut (c : Card) : Bool := (c.writeWorks ++ c.cutWorks).any (fun x => x.2.landAfter.isSome)

/-- A LAND or ROLLBACK cannot be taken now: one is held, or a LAND-AFTER WRITE is outstanding (R315). -/
def Card.actionBlocked (c : Card) : Bool := c.flights.held.isSome || c.landAfterOut

/-- Hold a LAND or ROLLBACK; LND follows (R315, R389). -/
def Card.hold (c : Card) (h : Held) : Card := ({ c with flights := { c.flights with held := some h } }).driveLnd

/-- A LAND late by at most 1,024 treads executes at once with a SYNC-LATE notice (R317, R364). -/
def Card.lateLanding (c : Card) (f : Flight) (late : Nat) (src : ActSrc) : Card :=
  (c.executeLanding f late src).notice ntSyncLate (info3 late (late / 256) f.toNat)

/-- The tread a timed command names: its low 32 bits given, nearest to c (R310). -/
def nameTread (low : BitVec 32) (c : Tread) : Tread :=
  let d := low - c.setWidth 32
  c + d.signExtend 48

/-- LAND after step 8 (R311, R315, R317, R318; log entry 19). -/
def Card.doLand (c : Card) (f : Frame) : Card :=
  let t := nameTread f.sector c.treads.c
  let late := treadAhead c.treads.c t
  let past := !treadNotPast t c.treads.c
  if !past && decide (Config.leadTreads < treadAhead t c.treads.c) then c.finish f.tag stRange 0 false
  else if past && decide (Config.lateTreads < late) then c.finish f.tag stTreadPast 0 false
  else if c.actionBlocked then c.finish f.tag stProtocol 0 false
  else if !c.landingOk f.arg then c.finish f.tag stFlightStale c.staleInfo false
  else if past then c.lateLanding f.arg late (.cmd f.tag)
  else c.hold { rollback := false, tread := t, flight := f.arg, src := .cmd f.tag }

/-- LAND (R317 to R319, R322). -/
def execLand (f : Frame) (s : State) : Host.Outcome State Fault Refusal :=
  run (fun c => c.receive opLand f .timed (fun c => c.doLand f)) s

/-- ROLLBACK after step 8 (R311, R315, R317, R318; log entry 19). -/
def Card.doRollback (c : Card) (f : Frame) : Card :=
  let t := nameTread f.sector c.treads.c
  if treadNotPast t c.treads.c then
    if Config.leadTreads < treadAhead t c.treads.c then c.finish f.tag stRange 0 false
    else if c.actionBlocked then c.finish f.tag stProtocol 0 false
    else if !c.rollbackOk f.arg then c.finish f.tag stFlightStale c.staleInfo false
    else c.hold { rollback := true, tread := t, flight := f.arg, src := .cmd f.tag }
  else c.finish f.tag stTreadPast 0 false

/-- ROLLBACK (R317, R318, R320, R322). -/
def execRollback (f : Frame) (s : State) : Host.Outcome State Fault Refusal :=
  run (fun c => c.receive opRollback f .timed (fun c => c.doRollback f)) s

/-- SERVICE and QUIET after step 8 (R311, R316, R317, R321; log entry 19). -/
def Card.doWindow (c : Card) (f : Frame) (quiet : Bool) : Card :=
  let t := nameTread f.sector c.treads.c
  let w : Window := { seq := 0, quiet := quiet, kinds := if quiet then 0 else f.flags, start := t,
                      duration := f.arg.toNat, began := 0 }
  if !durationOk f.arg.toNat || (!quiet && !kindsOk f.flags) then c.finish f.tag stRange 0 false
  else if treadNotPast t c.treads.c then
    if Config.leadTreads < treadAhead t c.treads.c then c.finish f.tag stRange 0 false
    else if !c.windowFits w then c.finish f.tag stProtocol 0 false
    else (c.holdWindow w).finish f.tag stOk (t.setWidth 24) false
  else c.finish f.tag stTreadPast 0 false

/-- SERVICE (R321). -/
def execService (f : Frame) (s : State) : Host.Outcome State Fault Refusal :=
  run (fun c => c.receive opService f .timed (fun c => c.doWindow f false)) s

/-- QUIET (R321). A quiet window grants no kind. -/
def execQuiet (f : Frame) (s : State) : Host.Outcome State Fault Refusal :=
  run (fun c => c.receive opQuiet f .timed (fun c => c.doWindow f true)) s

end Sys2Proof.Machine
end

