-- ==== Sys2Proof/Machine/Writes.lean ====
section
/-! DEFINITION. WRITE, DISCARD.Z and DISCARD.H, with the H2C transfer and its lane check (R191 to R199, R260, R261, R283
to R306, R401, R430). -/

namespace Sys2Proof.Machine

open Sys2Proof

/-- Replace the work of a WRITE or DISCARD.Z. -/
def Card.setWrite (c : Card) (t : Tag) (w : WriteWork) : Card := c.setCmd t (.write w)

/-- The bays a command covers only in part (R288). -/
def partBays (sector count : Nat) : List Nat :=
  (baysOf sector count).filter (fun b => decide (16 * b < sector ∨ sector + count < 16 * b + 16))

/-- The bays a command covers whole (R299, R302). -/
def wholeBays (sector count : Nat) : List Nat :=
  (baysOf sector count).filter (fun b => decide (sector ≤ 16 * b ∧ 16 * b + 16 ≤ sector + count))

/-- Two commands share a bay (R289). -/
def WriteWork.shares (w : WriteWork) (sector count : Nat) : Bool :=
  decide (w.sector / 16 ≤ (sector + count - 1) / 16 ∧ sector / 16 ≤ (w.sector + w.count - 1) / 16)

/-- An earlier WRITE or DISCARD.Z that is still outstanding shares a bay, one whose LANE-CHECK is owed too (R38, R289). -/
def Card.earlierShares (c : Card) (order sector count : Nat) : Bool :=
  (c.writeWorks ++ c.cutWorks).any (fun x => decide (x.2.order < order) && x.2.shares sector count)

/-- A WRITE or DISCARD.Z as it is accepted. -/
def Card.newWrite (c : Card) (f : Frame) (discard : Bool) : WriteWork :=
  { discard := discard, sector := f.sector.toNat, count := f.count.toNat, ord := c.flights.openOrd,
    order := c.ports.order, landAfter := if !discard && f.flags.getLsbD 0 then some f.arg else none,
    stage := if discard then .merging else .waitGo,
    credit := if discard then 0 else (baysOf f.sector.toNat f.count.toNat).length,
    delayed := c.earlierShares c.ports.order f.sector.toNat f.count.toNat,
    mergesIssued := false, merges := [], xfer := none, data := [], bays := [], inlineErases := [],
    inlineMoves := 0, inlineDue := 0, inlineEmpty := [], inlined := false, applied := false }

/-- In once mode a sector counts as written: the working or the landed view, or an unlanded change, holds it written, a
DISCARD.H mark or none; or an outstanding WRITE covers it, one whose LANE-CHECK is owed too (R38). An unlanded DISCARD.Z
re-opens nothing (R292, R306). -/
def Card.onceWritten (c : Card) (order sector : Nat) : Bool :=
  let at_ (l : Loc) : Bool := match l with
    | .at k => (c.bayAt k).any (fun b => b.written (sector % 16))
    | _ => false
  let e := c.entry (sector / 16)
  at_ e.working || at_ e.landed ||
    c.views.changes.any (fun x => x.bay == sector / 16 && x.mask.getLsbD (sector % 16)) ||
    (c.writeWorks ++ c.cutWorks).any (fun x => !x.2.discard && decide (x.2.order < order) &&
      decide (x.2.sector ≤ sector ∧ sector < x.2.sector + x.2.count))

/-- The sectors of a frame. -/
def sectorsOf (f : Frame) : List Nat := (List.range f.count.toNat).map (· + f.sector.toNat)

/-- R261, from its second row on: the first condition that applies. `op` is WRITE, DISCARD.Z or DISCARD.H. -/
def Card.writeRefusal (c : Card) (op : Byte) (f : Frame) : Option Status :=
  let wr := op == opWrite
  let wz := wr || op == opDiscardZ
  if !c.rangeOk f then some stRange
  else if wr && f.flags.getLsbD 0 && (c.flights.held.isSome || c.landAfterOut || !c.landingOk f.arg) then
    some stProtocol
  else if (sectorsOf f).any c.isProtected then some stProtected
  else if wz && c.maint.worn then some stWorn
  else if wz && decide (800 ≤ c.maint.hottest) then some stHot
  else if wr && decide (c.freeErased < Config.markRefuse) then some stFull
  else if c.once && wr && (sectorsOf f).any (c.onceWritten c.ports.order) then some stAlreadyWritten
  else none

/-- What a merge takes of a bay: its working-view content. In once mode a bay under a DISCARD.H mark gives what its map entry
names, so that no sector is re-opened (R288, R303, R306; log entry 81). -/
def Card.mergePiece (c : Card) (b : Nat) : Piece :=
  let l := if c.once then (c.entry b).working else c.resolve true b
  c.prefetch false { bay := b, src := l.source, val := .waiting, weak := false }

/-- Where a command's merge reads and programs are in progress: the bays it covers in part are resolved and their
reads begin (R288). -/
def Card.issueMerges (c : Card) (t : Tag) (w : WriteWork) : Card :=
  if w.mergesIssued then c
  else
    let ps := (partBays w.sector w.count).map c.mergePiece
    (c.setWrite t { w with mergesIssued := true, merges := ps }).startReads ps (.merge t) false

/-- The 4,096 bytes the command's data has for a sector (R284). -/
def WriteWork.sectorData (w : WriteWork) (sector : Nat) : List Byte :=
  (w.data.drop (4096 * (sector - w.sector))).take 4096

/-- The command covers a sector. -/
def WriteWork.covers (w : WriteWork) (sector : Nat) : Bool :=
  decide (w.sector ≤ sector ∧ sector < w.sector + w.count)

/-- Sector `s` of a bay as a command leaves it: its own data, or nothing for DISCARD.Z, where it covers the sector;
else what the working view held as written, encrypted again (R288, R120). -/
def WriteWork.cell (w : WriteWork) (key : Option (BitVec 512)) (bay s : Nat) : Option Sector :=
  if w.covers (16 * bay + s) then
    if w.discard then none
    else some { key := key, tweak := 16 * bay + s, plain := w.sectorData (16 * bay + s) }
  else match w.merges.find? (fun p => p.bay == bay) with
    | some p => match p.val with
      | .got b => (b.sector key s).map (fun x => { key := key, tweak := 16 * bay + s, plain := x })
      | _ => none
    | none => none

/-- The mask of the sectors that are there. -/
def maskOf (l : List (Option Sector)) : BitVec 16 :=
  (l.zipIdx).foldl (fun m x => if x.1.isSome then m ||| (1#16 <<< x.2) else m) 0

/-- The DATA bay a command programs for a logical bay. -/
def WriteWork.dataBay (w : WriteWork) (key : Option (BitVec 512)) (bay : Nat) : Bay :=
  let l := (List.range 16).map (w.cell key bay)
  newBay .data bay (maskOf l) w.ord (.data l)

/-- The bays a command programs, in ascending bay address; a DISCARD.Z's DISCARD bay, which records its range and that
of no other command, last (R299, R430 step 4; log entry 101). -/
def WriteWork.toProgram (w : WriteWork) (key : Option (BitVec 512)) : List (Option Nat × Bay) :=
  if w.discard then
    let r : DRange := { first := w.sector, count := w.count, ord := w.ord, seq := 0 }
    (partBays w.sector w.count).map (fun b => (some b, w.dataBay key b)) ++
      [(none, newBay .discard 0 0 w.ord (.discard [r]))]
  else (baysOf w.sector w.count).map (fun b => (some b, w.dataBay key b))

/-- The changes a command makes to the working view (R264, R299). -/
def WriteWork.changes (w : WriteWork) : List Change :=
  (w.bays.filterMap (fun b => b.bay.map (fun n =>
    { ord := w.ord, bay := n, loc := .at b.key, mask := (w.dataBay none n).mask }))) ++
    (if w.discard then
      (wholeBays w.sector w.count).map (fun n => { ord := w.ord, bay := n, loc := .zeroed, mask := 0 })
    else [])

/-- The write record of a command (R521). -/
def WriteWork.record (w : WriteWork) : WriteRec :=
  { ord := w.ord, order := w.order
    bytes := leBytes 4 w.sector ++ leBytes 2 w.count ++ [if w.discard then opDiscardZ else opWrite, 0] ++
      leBytes 4 (if w.discard then 0 else (crc32c w.data).toNat) ++ [0, 0, 0, 0] }

/-- The command enters the working view and its record joins its flight (R265, R522). -/
def Card.applyWrite (c : Card) (t : Tag) (w : WriteWork) : Card :=
  let c := c.applyAll w.changes
  let c := { c with flights := { c.flights with records := c.flights.records ++ [w.record] } }
  c.setWrite t { w with applied := true }

/-- Positions held for WRITEs have gone to other bays in the meantime: what these took, they took of the reserve, and the held
bays are placed all the same (R283, R442; log entry 77). -/
def Card.heldShort (c : Card) : Bool := decide (c.userReady < c.heldBays)

/-- The bays of a command get their positions; none of them where one is to be had for not all (R430 step 4). -/
def Card.placeWrite (c : Card) (t : Tag) (w : WriteWork) (bs : List Bay) : Option (Card × List Nat) :=
  if c.heldShort then (c.setWrite t { w with credit := 0 }).placeAll false bs else c.placeAll (!w.discard) bs

/-- A WRITE accepted with 32 or more free erased wings, whose own bays have taken them below that, begins inline reclaim now
(R452). -/
def Card.lateInline (c : Card) (t : Tag) (w : WriteWork) (n : Nat) : Card :=
  if !w.discard && !w.inlined && c.mayInline then c.inlineReclaim t n else c

/-- All data is there and every merge read has ended: the bays are assigned and their programs queued, or the command
ends with LOST once its inline work has ended (R25, R288, R290, R430 steps 3 to 5, R453). -/
def Card.assignWrite (c : Card) (t : Tag) (w : WriteWork) : Card :=
  match w.merges.find? (fun p => p.val == .lost) with
  | some p => let o := 16 * p.bay - w.sector
    if w.inlineDone then c.finish t stLost (info3 o (o / 256) 0) false else c
  | none =>
    let l := w.toProgram c.dataKey
    match c.placeWrite t w (l.map Prod.snd) with
    | some (c, ks) =>
      let bs := ((l.map Prod.fst).zip ks).map (fun x => ({ bay := x.1, key := x.2, done := false } : BayWork))
      (c.setWrite t { w with stage := .programming, credit := 0, bays := bs }).lateInline t w bs.length
    | none => c

/-- Every bay is programmed: DONE, or for a LAND-AFTER WRITE its landing (R265, R286, R294, R295). -/
def Card.completeWrite (c : Card) (t : Tag) (w : WriteWork) : Card :=
  match w.landAfter with
  | none =>
    if w.inlineDone then (((c.applyWrite t w).countWritten w).finish t stOk 0 false).stepActs else c
  | some f =>
    if w.ord = c.flights.openOrd then
      ((c.applyWrite t w).setWrite t { w with applied := true, stage := .landing }).executeLanding f 0 (.landAfter t)
    else if w.inlineDone then
      (((c.applyWrite t w).countWritten w).finish t stOk (info3 2 0 0) false).stepActs
    else c

/-- A WRITE or DISCARD.Z goes on by itself as far as it can. A merge read found beyond recovery ends it only once every lane's
trailer has been checked (R290, R430; log entry 102). -/
def Card.advanceWrite (c : Card) (t : Tag) : Card :=
  match c.cmdOf t with
  | some (.write w) =>
    match w.stage with
    | .merging =>
      if w.delayed then c
      else if w.mergesIssued ∧ w.merges.all Piece.ready then c.assignWrite t w
      else c
    | .programming => if w.bays.all BayWork.done then c.completeWrite t w else c
    | .landed i => c.landedResponse t i
    | _ => c
  | _ => c

/-- WRITE after step 8 (R261, R283, R441, R401, R452). Its refusals come before the LANE-CHECK of a link in training (R221,
R261; log entry 103). -/
def Card.doWrite (c : Card) (f : Frame) : Card :=
  match c.writeRefusal opWrite f with
  | some st => c.finish f.tag st 0 false
  | none =>
    c.needLanes f.tag (fun c =>
      let w := c.newWrite f false
      let c := ((c.setWrite f.tag w).pumpAll.evalMarks).breakQuiet
      if c.mayInline then c.inlineReclaim f.tag w.credit else c)

/-- WRITE (R283 to R297). -/
def execWrite (f : Frame) (s : State) : Host.Outcome State Fault Refusal :=
  run (fun c => c.receive opWrite f .timed (fun c => c.doWrite f)) s

/-- Credit and erased bays suffice for a GO (R283, R427). -/
def Card.mayGo (c : Card) (w : WriteWork) : Bool :=
  decide (c.media.vest.length + c.heldBays + w.credit ≤ Config.vestibuleBays - Config.vestibuleOwn) &&
    decide (c.heldBays + w.credit ≤ c.userReady)

/-- WRITE_GO: GO is sent, while HCLK runs, once credit and erased bays are held (R14, R237, R283; EV-02). Where bays are
lacking, a quiet window breaks and inline reclaim goes on (R401, R452). -/
def Card.writeGo (c : Card) (t : Tag) : Card :=
  match c.tagEntry t, c.cmdOf t with
  | some e, some (.write w) =>
    if w.stage ≠ .waitGo || !c.power.hclk then c
    else if c.mayGo w then
      let c := (c.respond e.port 2 t stOk 0 false).ev 2 ([t.setWidth 8] ++ leBytes 2 w.credit)
      let x : Xfer := { bytes := 4096 * w.count, frames := [], trailers := [], failed := 0, cause := none }
      let w := { w with stage := .data, xfer := some x }
      let c := c.setWrite t w
      if w.delayed then c else c.issueMerges t w
    else
      let c := c.breakQuiet
      if c.mayInline && w.inlineDone then c.inlineReclaim t w.credit else c
  | _, _ => c

/-- WRITE_GO (R283). -/
def execWriteGo (tag : Tag) (s : State) : Host.Outcome State Fault Refusal := run (fun c => c.writeGo tag) s

/-- DELAYED_MERGE_START: no earlier command shares a bay any more (R289); reads start while HCLK runs (R14). -/
def Card.delayedStart (c : Card) (t : Tag) : Card :=
  match c.cmdOf t with
  | some (.write w) =>
    if w.delayed ∧ c.power.hclk ∧ !c.earlierShares w.order w.sector w.count then
      let w := { w with delayed := false }
      let c := c.setWrite t w
      match w.stage with
      | .waitGo => c
      | _ => (c.issueMerges t w).advanceWrite t
    else c
  | _ => c

/-- DELAYED_MERGE_START (R289). -/
def execDelayedMergeStart (tag : Tag) (s : State) : Host.Outcome State Fault Refusal :=
  run (fun c => c.delayedStart tag) s

/-- DISCARD.Z after step 8 (R261, R299 to R301). -/
def Card.doDiscardZ (c : Card) (f : Frame) : Card :=
  match c.writeRefusal opDiscardZ f with
  | some st => c.finish f.tag st 0 false
  | none =>
    let w := c.newWrite f true
    let c := (c.setWrite f.tag w).pumpAll
    if w.delayed then c else (c.issueMerges f.tag w).advanceWrite f.tag

/-- DISCARD.Z (R299 to R301). -/
def execDiscardZ (f : Frame) (s : State) : Host.Outcome State Fault Refusal :=
  run (fun c => c.receive opDiscardZ f .timed (fun c => c.doDiscardZ f)) s

/-- Mark a bay as covered by DISCARD.H (R302). -/
def Card.markH (c : Card) (b : Nat) : Card :=
  { c with views := { c.views with map := KV.put c.views.map b { c.entry b with hmark := true } } }

/-- DISCARD.H after step 8 (R261, R302, R303). -/
def Card.doDiscardH (c : Card) (f : Frame) : Card :=
  match c.writeRefusal opDiscardH f with
  | some st => c.finish f.tag st 0 false
  | none => ((wholeBays f.sector.toNat f.count.toNat).foldl Card.markH c).finish f.tag stOk 0 false

/-- DISCARD.H (R302 to R306). -/
def execDiscardH (f : Frame) (s : State) : Host.Outcome State Fault Refusal :=
  run (fun c => c.receive opDiscardH f .timed (fun c => c.doDiscardH f)) s

/-- The transfer whose GO is outstanding on a tag (R191). -/
def Card.openXfer (c : Card) (t : Tag) : Option (WriteWork × Xfer) :=
  match c.cmdOf t with
  | some (.write w) => match w.stage, w.xfer with
    | .data, some x => some (w, x)
    | _, _ => none
  | _ => none

/-- Lane `k` of a transfer counts as failed; the first cause stays (R195, R198). -/
def Xfer.fail (x : Xfer) (k : Nat) (cause : Byte) : Xfer :=
  { x with failed := x.failed ||| (1#4 <<< k), cause := some (x.cause.getD cause) }

/-- Lane `k`'s frames, in the order received: index and payload. -/
def Xfer.lane (x : Xfer) (k : Nat) : List (Nat × List Byte) :=
  (x.frames.filter (fun y => y.lane == k)).map (fun y => (y.index, y.payload))

/-- The frame indices the striping rule sends on lane `k` (R188, R190). -/
def laneIndices (bytes n k : Nat) : List Nat := (List.range ((bytes + 639) / 640)).filter (fun i => i % n == k)

/-- A lane's trailer against the frames received and the command (R193, R195): the cause of its failure. Every frame the
striping rule sends on the lane is there, and the count is that of the frames received and of the command's. -/
def Xfer.check (x : Xfer) (n k : Nat) (issue : Bool) (t : Trailer) : Option Byte :=
  let fs := x.lane k
  let want := laneIndices x.bytes n k
  if !(want.all (fs.map Prod.fst).contains) ∨ t.count.toNat ≠ fs.length ∨ t.count.toNat ≠ want.length ∨
      laneCount t.laneCode ≠ some n ∨ t.issue ≠ issue ∨ t.length.toNat ≠ x.bytes then some 0x03
  else if t.crc ≠ crc32c (fs.flatMap Prod.snd) then some 0x01
  else none

/-- What the receiver makes of a codeword: whether it is uncorrectable, the symbols corrected, the header, the payload
descrambled, and the lane's descrambler after it. -/
structure RxFrame where
  bad : Bool
  corrected : Nat
  header : BitVec 20
  payload : List Byte
  next : Nat
  deriving DecidableEq, Repr

/-- The kind a header names is `k`'s. -/
def RxFrame.isKind (x : RxFrame) (k : LaneKind) : Bool := x.header.toNat % 4 == k.code
/-- The tag a header names. -/
def RxFrame.tag (x : RxFrame) : Tag := (x.header >>> 2).setWidth 6
/-- The frame index a header names. -/
def RxFrame.index (x : RxFrame) : Nat := x.header.toNat / 256

/-- The 544 symbols of a codeword as numbers. -/
def symbolsOf (w : LaneWord) : List Nat := ((w.syms ++ List.replicate 544 0).take 544).map BitVec.toNat

/-- A codeword through the decoder and the lane's descrambler (R174, R175, R177). Where it is uncorrectable its symbols
stand as received, its header too (log entry 60). -/
def Card.decodeWord (c : Card) (w : LaneWord) : RxFrame :=
  let r := rsDecode (symbolsOf w)
  let v := (r.map Prod.fst).getD (symbolsOf w)
  let d := descramble (KV.getD c.link.rxScramble w.lane.toNat 0) (wordPayload v)
  { bad := r.isNone, corrected := (r.map Prod.snd).getD 0, header := wordHeader v, payload := leBytes 640 d.1,
    next := d.2 }

/-- A lane-frame has gone through a lane's receiver: counts, and whether it counts as failed (R174, R177, R178, R182,
R218; BC-64 to BC-75). -/
def Card.laneDecode (c : Card) (lane : BitVec 2) (x : RxFrame) (idle : Bool) : Card × Bool :=
  let k := lane.toNat
  let l := c.link
  let before := l.lastBad.getLsbD k
  let bit : BitVec 4 := 1#4 <<< k
  let c : Card := { c with link := { l with
    lastBad := if x.bad then l.lastBad ||| bit else l.lastBad &&& ~~~bit
    badWords := if x.bad then KV.put l.badWords k (KV.getD l.badWords k 0 + 1) else l.badWords
    rxScramble := KV.put l.rxScramble k x.next } }
  let c := if x.bad then c.bump ((if idle then 72 else 68) + k) 1 else c.bump (64 + k) x.corrected
  (c, x.bad || before)

/-- Frames arrive on a lane in use of a trained link (R181). -/
def Card.laneOpen (c : Card) (lane : BitVec 2) : Bool :=
  c.linkUp && c.power.hclk && decide (lane.toNat < c.link.lanes)

/-- A codeword of the kind its row names, on a lane in use; one that is uncorrectable is taken as what its row names. -/
def Card.hearsWord (c : Card) (w : LaneWord) (k : LaneKind) : Bool :=
  c.laneOpen w.lane && ((c.decodeWord w).bad || (c.decodeWord w).isKind k)

/-- A data frame joins its transfer. One that comes after its lane's trailer makes that trailer's count disagree with the
frames received (R195). -/
def Xfer.take (x : Xfer) (k : Nat) (f : RxFrame) : Xfer :=
  let y := { x with frames := x.frames ++ [{ lane := k, index := f.index, payload := f.payload }] }
  if (KV.find x.trailers k).isSome then y.fail k 0x03 else y

/-- DATA_FRAME (R191, R195). -/
def Card.dataFrame (c : Card) (w : LaneWord) : Card :=
  if !c.hearsWord w .data then c
  else
    let f := c.decodeWord w
    let (c, failed) := c.laneDecode w.lane f false
    match c.openXfer f.tag with
    | none => c.bump 6 1
    | some (k, x) =>
      let x := if failed then x.fail w.lane.toNat 0x02 else x.take w.lane.toNat f
      c.setWrite f.tag { k with xfer := some x }

/-- DATA_FRAME (R191). -/
def execDataFrame (w : LaneWord) (s : State) : Host.Outcome State Fault Refusal := run (fun c => c.dataFrame w) s

/-- The payload of frame `i` of a transfer, as received on the lane the striping rule gives it (R188). -/
def Xfer.frame (x : Xfer) (n i : Nat) : List Byte :=
  ((x.frames.find? (fun y => y.index == i && y.lane == i % n)).map RxData.payload).getD []

/-- The transfer's bytes, its frames put together in index order, padding dropped (R188, R190). -/
def Xfer.joined (x : Xfer) (n : Nat) : List Byte :=
  ((List.range ((x.bytes + 639) / 640)).flatMap (x.frame n)).take x.bytes

/-- Every lane's trailer has arrived: LANE-CHECK, or the data goes on (R196, R197). -/
def Card.endXfer (c : Card) (t : Tag) (w : WriteWork) (x : Xfer) : Card :=
  if x.failed ≠ 0 then c.finish t stLaneCheck (laneCheckInfo x.failed (x.cause.getD 0).toNat) false
  else (c.setWrite t { w with stage := .merging, xfer := none, data := x.joined c.link.lanes }).advanceWrite t

/-- The fields of a trailer's payload (R193). -/
def trailerOf (b : List Byte) : Trailer :=
  let f := b.getD 6 0
  { crc := BitVec.ofNat 32 (leNat (b.take 4)), count := BitVec.ofNat 16 (leNat ((b.drop 4).take 2)),
    lane := f.setWidth 2, laneCode := (f >>> 2).setWidth 3, issue := f.getLsbD 5,
    length := BitVec.ofNat 32 (leNat ((b.drop 8).take 4)) }

/-- TRAILER_FRAME (R193, R195 to R197). -/
def Card.trailerFrame (c : Card) (w : LaneWord) : Card :=
  if !c.hearsWord w .trailer then c
  else
    let f := c.decodeWord w
    let (c, failed) := c.laneDecode w.lane f false
    match c.openXfer f.tag, c.tagEntry f.tag with
    | some (k, x), some e =>
      let l := w.lane.toNat
      let t := trailerOf f.payload
      let x := { x with trailers := KV.put x.trailers l t }
      let x := if failed then x.fail l 0x02
        else match x.check c.link.lanes l e.issue t with
          | some cause => x.fail l cause
          | none => x
      if (List.range c.link.lanes).all (fun i => (KV.find x.trailers i).isSome) then c.endXfer f.tag k x
      else c.setWrite f.tag { k with xfer := some x }
    | _, _ => c

/-- TRAILER_FRAME (R195). -/
def execTrailerFrame (w : LaneWord) (s : State) : Host.Outcome State Fault Refusal := run (fun c => c.trailerFrame w) s

/-- TRAILER_TIMEOUT: LANE-CHECK, cause 0x06, with every lane whose trailer is missing (R199). Its 10 ms are HCLK cycles,
which do not run out with HCLK absent (R15). -/
def Card.trailerTimeout (c : Card) (t : Tag) : Card :=
  match c.openXfer t with
  | some (_, x) =>
    if c.power.hclk then
      let missing : BitVec 4 := (List.range c.link.lanes).foldl (fun m k =>
        if (KV.find x.trailers k).isNone then m ||| (1#4 <<< k) else m) 0
      c.finish t stLaneCheck (laneCheckInfo (missing ||| x.failed) 6) false
    else c
  | none => c

/-- TRAILER_TIMEOUT (R199). -/
def execTrailerTimeout (tag : Tag) (s : State) : Host.Outcome State Fault Refusal :=
  run (fun c => c.trailerTimeout tag) s

/-- IDLE_FRAME: discarded after decoding, and counted where uncorrectable (R174, R182; BC-64 to BC-67, BC-72 to BC-75). -/
def Card.idleFrame (c : Card) (w : LaneWord) : Card :=
  if c.hearsWord w .idle then (c.laneDecode w.lane (c.decodeWord w) true).1 else c

/-- IDLE_FRAME (R182). -/
def execIdleFrame (lane : BitVec 2) (syms : List (BitVec 10)) (s : State) : Host.Outcome State Fault Refusal :=
  run (fun c => c.idleFrame { lane := lane, syms := syms }) s

end Sys2Proof.Machine
end

