-- ==== Sys2Proof/Machine/Alcoves.lean ====
section
/-! DEFINITION. The alcove device: headers, loadability, records, the ledger, the DRAM copy of them, and what one
operation on the device does (R337 to R339, R543 to R561, R602). -/

namespace Sys2Proof.Machine

open Sys2Proof

/-- An alcove's bytes below the record slots. -/
def Alcove.mem (a : Alcove) : AlcoveId → Mem
  | .a => a.memA
  | .b => a.memB

/-- Replace an alcove's bytes. -/
def Alcove.setMem (a : Alcove) (i : AlcoveId) (m : Mem) : Alcove :=
  match i with
  | .a => { a with memA := m }
  | .b => { a with memB := m }

/-- A record slot. -/
def Alcove.slot (a : Alcove) : AlcoveId → Bool → RecSlot
  | .a, false => a.a0
  | .a, true => a.a1
  | .b, false => a.b0
  | .b, true => a.b1

/-- Replace a record slot. -/
def Alcove.setSlot (a : Alcove) (i : AlcoveId) (s : Bool) (r : RecSlot) : Alcove :=
  match i, s with
  | .a, false => { a with a0 := r }
  | .a, true => { a with a1 := r }
  | .b, false => { a with b0 := r }
  | .b, true => { a with b1 := r }

/-- A ledger. -/
def Alcove.ledger (a : Alcove) : AlcoveId → KV LedgerCell
  | .a => a.ledgerA
  | .b => a.ledgerB

/-- Replace a ledger. -/
def Alcove.setLedger (a : Alcove) (i : AlcoveId) (l : KV LedgerCell) : Alcove :=
  match i with
  | .a => { a with ledgerA := l }
  | .b => { a with ledgerB := l }

/-- "ZKALCOVE" (R546). -/
def alcoveMagic : List Byte := [0x5A, 0x4B, 0x41, 0x4C, 0x43, 0x4F, 0x56, 0x45]

/-- A little-endian field of an alcove. -/
def Mem.field (m : Mem) (a n : Nat) : Nat := leNat (Mem.bytes m a n)

/-- The sequence number and its complement agree, and it is neither all zeros nor all ones (R546, R548). -/
def Mem.seqOk (m : Mem) : Bool :=
  let s := m.field 8 4
  decide (s + m.field 12 4 = 2 ^ 32 - 1 ∧ s ≠ 0 ∧ s ≠ 2 ^ 32 - 1)

/-- Both lengths are in range (R546). -/
def Mem.lengthsOk (m : Mem) : Bool :=
  decide (1 ≤ m.field 20 4 ∧ m.field 20 4 ≤ 4194304 ∧ 1 ≤ m.field 28 4 ∧ m.field 28 4 ≤ 1048576)

/-- Both section CRCs check (R546 to R548). -/
def Mem.sectionsOk (m : Mem) : Bool :=
  decide ((crc32 (Mem.bytes m 0x10000 (m.field 20 4))).toNat = m.field 24 4 ∧
    (crc32 (Mem.bytes m 0x410000 (m.field 28 4))).toNat = m.field 32 4)

/-- An alcove is loadable (R548). -/
def Mem.loadable (m : Mem) : Bool :=
  decide (Mem.bytes m 0 8 = alcoveMagic) && m.seqOk &&
    decide ((crc32 (Mem.bytes m 0 8 ++ Mem.bytes m 16 44)).toNat = m.field 60 4) && m.lengthsOk && m.sectionsOk

/-- The alcove the loader tries first: the higher sequence number among those whose sequence field checks, A where
they are equal (R549). -/
def Alcove.first (a : Alcove) : AlcoveId :=
  match a.memA.seqOk, a.memB.seqOk with
  | false, true => .b
  | true, true => if a.memA.field 8 4 < a.memB.field 8 4 then .b else .a
  | _, _ => .a

/-- The valid copies with their places (R551). -/
def Alcove.copies (a : Alcove) : List ((AlcoveId × Bool) × Record) :=
  [(.a, false), (.a, true), (.b, false), (.b, true)].filterMap (fun p => match a.slot p.1 p.2 with
    | .copy r => some (p, r)
    | _ => none)

/-- The valid copy with the highest generation, alcove A before B (R551), void where any valid copy of its generation
is (R552). -/
def Alcove.selectRecord (a : Alcove) : Option ((AlcoveId × Bool) × Record) :=
  let best := a.copies.foldl (fun (m : Option ((AlcoveId × Bool) × Record)) x => match m with
    | none => some x
    | some y => if y.2.generation < x.2.generation then some x else some y) none
  best.map (fun x => (x.1, { x.2 with
    void := a.copies.any (fun y => y.2.generation == x.2.generation && y.2.void) }))

/-- Entry `i` of the ledger: A's copy when valid, else B's (R556). -/
def Alcove.entryAt (a : Alcove) (i : Nat) : Option LedgerEntry :=
  match KV.find a.ledgerA i, KV.find a.ledgerB i with
  | some (.entry e), _ => some e
  | _, some (.entry e) => some e
  | _, _ => none

/-- The ledger's indices in use, ascending. -/
def Alcove.ledgerIndices (a : Alcove) : List Nat :=
  sortBy (fun x y => decide (x ≤ y)) (a.ledgerA.map Prod.fst ++ a.ledgerB.map Prod.fst).dedup

/-- The entries in use: those of the record's epoch or a later one, in index order (R556). -/
def Alcove.entriesInUse (a : Alcove) (epoch : Nat) : List LedgerEntry :=
  (a.ledgerIndices.filterMap a.entryAt).filter (fun e => decide (epoch ≤ e.epoch))

/-- One ledger entry applied to the wing table, the retired blocks and p (R404, R556, R557). -/
def Conf.applyEntry (f : Conf) (e : LedgerEntry) : Conf :=
  if e.cause = .protection then { f with p := max f.p e.protect }
  else
    let hit := f.table.find? (fun x => x.1 % 16 == e.hall && dieRow (x.1 / 16) == e.die && x.2 == some e.block)
    let own := 16 * (e.die * Config.wingSlots + e.block) + e.hall
    let table := match hit with
      | some x => KV.put f.table x.1 e.replacement
      | none => if e.block < Config.wingSlots ∧ (KV.find f.table own).isNone then KV.put f.table own e.replacement
          else f.table
    { f with table := table, retired := KV.put f.retired (blockKey e.hall e.die e.block) () }

/-- In an alcove, the slot that does not hold generation `g` (R563, R565). -/
def Alcove.freeOf (a : Alcove) (g : Nat) (i : AlcoveId) : Bool :=
  match a.slot i false with
  | .copy r => r.generation == g
  | _ => false

/-- The DRAM copy of a record with the ledger applied (R404, R542, R553, R556, R557). -/
def Alcove.buildConf (a : Alcove) (sel : Option (AlcoveId × Bool)) (r : Record) : Conf :=
  let f : Conf := { selected := sel, record := r, p := r.p, key := if r.void then none else r.key,
                    table := r.table, retired := r.retired, freeA := a.freeOf r.generation .a,
                    freeB := a.freeOf r.generation .b, ledger := a.ledgerIndices.map (fun i => (i, a.entryAt i)),
                    unlogged := 0 }
  (a.entriesInUse r.epoch).foldl Conf.applyEntry f

/-- What LOADING copies: the selected record, or the shipped one; none where neither is valid (R551, R602). -/
def Alcove.loadConf (a : Alcove) : Option Conf :=
  match a.selectRecord with
  | some (p, r) => some (a.buildConf (some p) r)
  | none => match a.shipped with
    | .copy r => some (a.buildConf none r)
    | _ => none

/-- The slot of an alcove that does not hold the selected generation, by the copy in DRAM. -/
def Conf.free (f : Conf) : AlcoveId → Bool
  | .a => f.freeA
  | .b => f.freeB

/-- A record has been written into slot `s` of an alcove: the other slot is the one to rewrite next. -/
def Conf.wrote (f : Conf) (i : AlcoveId) (s : Bool) : Conf :=
  match i with
  | .a => { f with freeA := !s }
  | .b => { f with freeB := !s }

/-- Section codes of EV-40. -/
def alcoveSection (offset : Nat) : Nat :=
  if offset < 0x10000 then 1 else if offset < 0x410000 then 2 else if offset < 0x510000 then 3
  else if offset < 0x910000 then 4 else 5

/-- Offset of a record slot (R545). -/
def slotOffset (s : Bool) : Nat := if s then 0x710000 else 0x510000

/-- Where an operation acts, and whether it is an erase (EV-40). -/
def AlcoveOp.place : AlcoveOp → AlcoveId × Nat × Bool
  | .voidWord i s => (i, slotOffset s + 8, false)
  | .eraseSlot i s => (i, slotOffset s, true)
  | .programRecord i s _ => (i, slotOffset s, false)
  | .eraseHead i s => (i, slotOffset s, true)
  | .eraseLedger i => (i, 0x910000, true)
  | .append i n _ => (i, 0x910000 + 32 * n, false)
  | .eraseSector i o => (i, o, true)
  | .programBytes i o _ => (i, o, false)
  | .programSeq i _ => (i, 8, false)

/-- Eight bytes of the sequence field with its complement (R546). -/
def seqField (s : BitVec 32) : List Byte := leBytes 4 s.toNat ++ leBytes 4 (~~~s).toNat

/-- A slot after its head has been programmed over: only the void word may change a copy. -/
def RecSlot.voided : RecSlot → RecSlot
  | .copy r => .copy { r with void := true }
  | s => s

/-- Bytes the device left where it failed to program (log entry 13). -/
def Card.junk (c : Card) (n : Nat) : List Byte := (List.range n).map (fun i => Config.freeByte (c.freeCount + i))

/-- A commit cut short or failed leaves a sequence field that fails its complement check: free values but for that (R11,
R548). -/
def cutField (l : List Byte) : List Byte :=
  let b := l.getD 0 0
  l.take 4 ++ [if l.getD 4 0 = ~~~b then b else l.getD 4 0] ++ l.drop 5

/-- The device has done an operation (`ok`), or has failed it: then an erase leaves things as they were, a programmed
record or entry does not read back valid, and programmed bytes are free values, a sequence field's such that it does not check
(R11, R543; log entry 13). -/
def Card.doAlcove (c : Card) (o : AlcoveOp) (ok : Bool) : Card :=
  let a := c.alcove
  match o with
  | .voidWord i s => if ok then { c with alcove := a.setSlot i s (a.slot i s).voided } else c
  | .eraseSlot i s => if ok then { c with alcove := a.setSlot i s .erased } else c
  | .programRecord i s r => { c with alcove := a.setSlot i s (if ok then .copy r else .broken) }
  | .eraseHead i s => if ok then { c with alcove := a.setSlot i s .broken } else c
  | .eraseLedger i => if ok then { c with alcove := a.setLedger i [] } else c
  | .append i n e =>
    { c with alcove := a.setLedger i (KV.put (a.ledger i) n (if ok then .entry e else .broken)) }
  | .eraseSector i o => if ok then { c with alcove := a.setMem i (Mem.erase (a.mem i) o 65536) } else c
  | .programBytes i o bs =>
    if ok then { c with alcove := a.setMem i (Mem.program (a.mem i) o bs) }
    else { c with alcove := a.setMem i (Mem.force (a.mem i) o (c.junk bs.length)), freeCount := c.freeCount + bs.length }
  | .programSeq i s =>
    if ok then { c with alcove := a.setMem i (Mem.program (a.mem i) 8 (seqField s)) }
    else { c with alcove := a.setMem i (Mem.force (a.mem i) 8 (cutField (c.junk 8))), freeCount := c.freeCount + 8 }

/-- A removal or power loss cuts an operation short: a void word whose program has started counts as programmed (R567);
anything else is left as after a failure (log entry 13). -/
def Card.cutOp (c : Card) (o : AlcoveOp) : Card :=
  match o with
  | .voidWord _ _ => c.doAlcove o true
  | _ => c.doAlcove o false

/-- An operation that is done again where the device fails it: the void word, without which the old generation would stand
(R8, R562), the erase that destroys an old copy (R564, R565), and the ledger's, which FORMAT's OK follows (R563; log entry
13). -/
def AlcoveOp.repeats : AlcoveOp → Bool
  | .voidWord _ _ | .eraseHead _ _ | .eraseLedger _ => true
  | _ => false

/-- The trace of an operation on the device (EV-40), and of a ledger append once both alcoves have it (EV-41). -/
def Card.traceAlcove (c : Card) (o : AlcoveOp) : Card :=
  let (i, off, er) := o.place
  let c := c.ev 40 ([BitVec.ofNat 8 i.code, BitVec.ofNat 8 (alcoveSection off), if er then 1 else 2] ++ leBytes 4 off)
  match o with
  | .append .b n e =>
    let good (l : KV LedgerCell) : Bool := match KV.find l n with
      | some (.entry x) => x == e
      | _ => false
    c.ev 41 (leBytes 2 n ++ [BitVec.ofNat 8 e.cause.code,
      (if good c.alcove.ledgerA then 1 else 0) ||| (if good c.alcove.ledgerB then 2 else 0)])
  | _ => c

/-- The target of ALCOVE LOAD and ALCOVE SWAP: the alcove not in use; in FAULT the one with the lower valid sequence
number, or A where neither header checks (R336, R337). -/
def Alcove.target (a : Alcove) : AlcoveId :=
  match a.inUse with
  | some i => i.other
  | none => match a.memA.seqOk, a.memB.seqOk with
    | false, true => .b
    | true, true => if a.memB.field 8 4 < a.memA.field 8 4 then .b else .a
    | _, _ => .a

end Sys2Proof.Machine
end

