-- ==== Sys2Proof/Machine/Dock.lean ====
section
/-! DEFINITION. FORMAT, SANITIZE, ALCOVE LOAD and ALCOVE SWAP, and the completion of an operation on the alcove device
(R166, R328 to R340, R558 to R566, R610). -/

namespace Sys2Proof.Machine

open Sys2Proof

/-- Replace the dock command at work. -/
def Card.setService (c : Card) (x : Option (Tag × Service)) : Card :=
  { c with alcove := { c.alcove with service := x } }

/-- Queue operations on the alcove device. -/
def Card.addOps (c : Card) (os : List AlcoveOp) : Card :=
  { c with alcove := { c.alcove with ops := c.alcove.ops ++ os } }

/-- DRAM's map and what goes with it are dropped (R35, R166, R167): views, losses' live copies, open wings, images,
jobs, flights in progress; suspended erases are aborted, and what is queued completes ABORTED (R32, R435). Media stay as
they are. -/
def Card.dropMap (c : Card) : Card :=
  let c := c.abortErases.abortQueued
  { c with
    views := c.views.gone
    media := { c.media with opens := [], homeless := [], drawn := [], vest := c.media.vest.filter (fun x =>
      c.halls.dies.any (fun d => d.2.op == some (.program x.1))) }
    halls := { c.halls with
      queues := [], back := [], jobs := [], moves := [], erases := []
      resets := c.halls.resets.map (fun x => (x.1, { x.2 with again := [], redrive := [] })) }
    flights := { c.flights with held := none, marks := [], due := [], acts := [], records := [], absent := [] }
    maint := { c.maint with held := [], running := [], victim := none, emptying := none, young := none, visit := none }
    twin := { c.twin with waits := [], heard := [], burst := none } }

/-- A dock operation or FORCE CLOSE accepted in CLOSED discards the map and leaves the card READY-UNMOUNTED (R139,
R166). -/
def Card.leaveClosed (c : Card) : Card := if c.phase = .closed then c.dropMap.enter .readyUnmounted else c

/-- No die is fenced and none has hung yet (R511, R513). -/
def Card.unfence (c : Card) : Card :=
  { c with halls := { c.halls with dies := c.halls.dies.map (fun x => (x.1, { x.2 with hangs := 0, fenced := false })) } }

/-- In alcove `i`, the slot to be rewritten: the one that does not hold the selected generation, by the copy in DRAM (R543,
R563, R565). -/
def Card.freeSlot (c : Card) (i : AlcoveId) : Bool := (c.alcove.conf.map (fun f => f.free i)).getD false

/-- The void word of the selected copy is to be programmed (R562). -/
def Card.voidOps (c : Card) : List AlcoveOp :=
  match c.alcove.conf.bind Conf.selected with
  | some (i, s) => [.voidWord i s]
  | none => []

/-- The void word is still to be programmed: nothing of step 2 has begun. -/
def Card.voiding (c : Card) : Bool := c.alcove.ops.any (fun o => match o with | .voidWord _ _ => true | _ => false)

/-- The hold of C2H lane 0 for FORMAT or SANITIZE ends, then the command's final response (R329). -/
def Card.endService (c : Card) (t : Tag) (st : Status) (info : BitVec 24) : Card :=
  (c.setService none).endHold.finish t st info false

/-- The generation that has been voided supplies no profile and no key from now on (R552, R562). -/
def Card.voidConf (c : Card) : Card :=
  { c with alcove := { c.alcove with conf := c.alcove.conf.map (fun f =>
    { f with record := { f.record with void := true }, key := none }) } }

/-- FORMAT after its PRF read: refused, or accepted (R332, R333, R562, R563). -/
def Card.formatGo (c : Card) (t : Tag) : Card :=
  if isProfile c.straps.vals.prf.level then
    let c := c.leaveClosed.unfence.askHold
    let ops := c.voidOps ++ [.eraseSlot .a (c.freeSlot .a), .eraseSlot .b (c.freeSlot .b)]
    (c.voidConf.addOps ops).setService (some (t, .formatErase [] false))
  else (c.setService none).finish t stFormatRefused 0 false

/-- FORMAT after step 8: the PRF read comes first, a strap read whose first pass covers all seven contacts (R112, R332,
R601). -/
def Card.doFormat (c : Card) (f : Frame) : Card :=
  let r : StrapReading := { kind := .format, pass := 0, todo := allStraps, got := .unread }
  ({ c with straps := { c.straps with reading := some r } }).setService (some (f.tag, .formatRead))

/-- FORMAT (R332 to R334, R562 to R564, R610). -/
def execFormat (f : Frame) (s : State) : Host.Outcome State Fault Refusal :=
  run (fun c => c.receive opFormat f .dockOp (fun c => c.doFormat f)) s

/-- SANITIZE's record: the selected one with the next generation, no profile, no capacity, no key (R565). -/
def Record.sanitized (r : Record) : Record :=
  { r with generation := r.generation + 1, void := false, profile := none, capacity := 0, key := none }

/-- SANITIZE after step 8 (R335, R565). -/
def Card.doSanitize (c : Card) (f : Frame) : Card :=
  match c.record with
  | some r =>
    let c := c.leaveClosed.unfence.askHold
    let sa := c.freeSlot .a
    let sb := c.freeSlot .b
    let ops := c.voidOps ++ [.eraseSlot .a sa, .programRecord .a sa r.sanitized, .eraseHead .a (!sa),
      .eraseSlot .b sb, .programRecord .b sb r.sanitized, .eraseHead .b (!sb)]
    (c.voidConf.addOps ops).setService (some (f.tag, .sanitizeRecord none r.sanitized))
  | none => c.finish f.tag stAlcoveBad 0 false

/-- SANITIZE (R335, R336, R565, R566). -/
def execSanitize (f : Frame) (s : State) : Host.Outcome State Fault Refusal :=
  run (fun c => c.receive opSanitize f .dockOp (fun c => c.doSanitize f)) s

/-- What an ALCOVE LOAD may not touch or name (R337, R558). -/
def loadRange (offset len : Nat) (erase : Bool) : Bool :=
  decide (offset % 4 = 0 ∧ offset + len ≤ Config.alcoveBytes ∧ (offset + len ≤ 8 ∨ 16 ≤ offset) ∧
    offset + len ≤ Config.recordOffset) &&
  (!erase || decide (offset % 65536 = 0 ∧ offset + 65536 ≤ Config.recordOffset))

/-- ALCOVE LOAD after step 8 (R337, R558). -/
def Card.doLoad (c : Card) (f : Frame) : Card :=
  let bs := f.ext.getD []
  let off := f.sector.toNat
  let er := f.flags.getLsbD 0
  if loadRange off bs.length er then
    let c := c.leaveClosed
    let i := c.alcove.target
    (c.addOps ((if er then [.eraseSector i off] else []) ++ [.programBytes i off bs])).setService
      (some (f.tag, .load i off bs))
  else c.finish f.tag stRange 0 false

/-- ALCOVE LOAD (R337, R338, R558). -/
def execAlcoveLoad (f : Frame) (s : State) : Host.Outcome State Fault Refusal :=
  run (fun c => c.receive opAlcoveLoad f .dockOp (fun c => c.doLoad f)) s

/-- The sequence number a swap gives the target (R339, R560); none where it would be all ones outside FAULT. -/
def Card.swapSeq (c : Card) : Option (BitVec 32) :=
  if c.phase = .fault then
    let s (m : Mem) : Nat := if m.seqOk then m.field 8 4 else 0
    some (BitVec.ofNat 32 (max (s c.alcove.memA) (s c.alcove.memB) + 1))
  else if c.alcove.seqInUse + 1 = 0xFFFFFFFF then none
  else some (c.alcove.seqInUse + 1)

/-- The ledger has an index left (R555). -/
def Card.ledgerRoom (c : Card) : Bool :=
  decide (c.ledgerNext < Config.ledgerEntries)

/-- p is raised to a protection request (R557, R561). -/
def Conf.raise (want : Nat) (f : Conf) : Conf := { f with p := max f.p want }

/-- ALCOVE SWAP reads its target and commits it or answers, once the device is idle (R339, R543, R559 to R561). One that
answers ALCOVE-BAD in CLOSED counts as not accepted: the card stays CLOSED with its map (R166; log entry 104). -/
def Card.swapNow (c : Card) (t : Tag) : Card :=
  let c := c.setService none
  let i := c.alcove.target
  let m := c.alcove.mem i
  if Mem.bytes m 0 8 = alcoveMagic ∧ m.lengthsOk ∧ m.sectionsOk then
    match c.swapSeq with
    | none => c.finish t stAlcoveBad 0 false
    | some n =>
      if Mem.bytes m 8 8 = seqField n then c.leaveClosed.finish t stOk (n.setWidth 24) false
      else if Mem.bytes m 8 8 ≠ List.replicate 8 Mem.blank then c.finish t stAlcoveBad 0 false
      else
        let want := (m.read 36).toNat
        let p := (c.alcove.conf.map Conf.p).getD 0
        if p < want then
          if c.ledgerRoom then
            let e : LedgerEntry :=
              { hall := 0, die := 0, block := 0, replacement := some 0, cause := .protection, seq := c.media.seq,
                epoch := c.epoch, protect := want }
            let c := c.leaveClosed.appendLedger e
            let c := { c with alcove := { c.alcove with conf := c.alcove.conf.map (Conf.raise want) } }
            (c.addOps [.programSeq i n]).setService (some (t, .swap i n))
          else c.finish t stAlcoveBad 0 false
        else (c.leaveClosed.addOps [.programSeq i n]).setService (some (t, .swap i n))
  else c.finish t stAlcoveBad 0 false

/-- ALCOVE SWAP after step 8: it waits for an operation on the device in progress (R543). -/
def Card.doSwap (c : Card) (f : Frame) : Card :=
  let c := c.setService (some (f.tag, .swapCheck))
  if c.alcove.ops.isEmpty then c.swapNow f.tag else c

/-- ALCOVE SWAP (R339, R340, R559 to R561). -/
def execAlcoveSwap (f : Frame) (s : State) : Host.Outcome State Fault Refusal :=
  run (fun c => c.receive opAlcoveSwap f .dockOp (fun c => c.doSwap f)) s

/-- The record FORMAT writes (R563 step 3); the media key, where one is needed, is the free value at the state's
counter. -/
def Card.formatRecord (c : Card) (f : Conf) : Record :=
  let l := c.straps.vals.prf.level
  { generation := f.record.generation + 1, void := false, epoch := f.record.epoch + 1, profile := some l, p := 0,
    key := if encrypts l then some (Config.freeKey c.freeCount) else none, capacity := classBays l,
    serial := f.record.serial, spares := f.record.spares, retired := f.retired, table := f.table }

/-- What DRAM knew of the flash after every wing has been erased (R333, R524, R525, R564). -/
def Card.wipe (c : Card) : Card :=
  { c with
    media := { c.media with wings := [], opens := [], lastWing := none, vest := [], homeless := [], drawn := [] }
    losses := { store := [], bounds := [], gone := [] }
    flights := { c.flights with last := none, before := none, canRoll := false, held := none, marks := [], due := [],
                                acts := [], records := [], absent := [], voided := 0, digest := 0, history := [], moved := false } }

/-- A response with a payload on DCO (R256). -/
def Card.sendExt (c : Card) (kind : BitVec 2) (t : Tag) (info : BitVec 24) (payload : List Byte) : Card :=
  if c.power.dock then
    let r : Resp := { kind := kind, code := t, status := stOk, flags := c.flags false, info := info, seq := c.ports.seqDco }
    ({ c with ports := { c.ports with seqDco := c.ports.seqDco + 1 } }).send (.ext r payload)
  else c

/-- The parts of an extended answer: INTERIMs, then the final one, which ends the command (R257, R336). Part number and P are
one byte each: more than 255 parts are counted modulo 256 (log entry 105). -/
def Card.sendParts (c : Card) (t : Tag) (parts : List (List Byte)) : Card :=
  let n := parts.length
  let c := (parts.dropLast.zipIdx).foldl (fun c x => c.sendExt 1 t (info3 x.2 n 0) x.1) c
  let info := info3 (n - 1) n 0
  match c.tagEntry t with
  | some e =>
    let c := (c.sendExt 0 t info (parts.getLastD [])).traceFinal e.port t stOk info false
    c.putTag t { e with state := .completed stOk info }
  | none => c

/-- A list in pieces of at most `n`. -/
def pieces {α : Type} (n fuel : Nat) (l : List α) : List (List α) :=
  match fuel with
  | 0 => [l]
  | k + 1 => if l.length ≤ n then [l] else l.take n :: pieces n k (l.drop n)

/-- A block that refused, as SANITIZE lists it, with whether the ledger holds an entry of it (R336, R542). -/
def Card.refusedEntry (c : Card) (b : BlockRef) : List Byte :=
  let logged := ((c.alcove.conf.map Conf.ledger).getD []).any (fun x => x.2.any (fun e =>
    e.cause != .protection && e.hall == b.hall.toNat && e.die == b.die.toNat && e.block == b.block.toNat))
  [BitVec.ofNat 8 (b.hall.toNat + 16 * b.die.toNat)] ++ leBytes 2 b.block.toNat ++ [if logged then 1 else 0]

/-- SANITIZE's final response (R336). -/
def Card.endSanitize (c : Card) (t : Tag) (refused : List BlockRef) : Card :=
  let c := c.wipe
  if refused.isEmpty then c.endService t stOk 0
  else
    let parts := (pieces 129 refused.length refused).map (fun l => l.flatMap c.refusedEntry)
    ((c.setService none).endHold).sendParts t parts

/-- FORMAT or SANITIZE has written its record: the DRAM copy holds it with the place of the first copy that read back valid,
none where neither did, when the voided one stays (R334, R335, R542). -/
def Conf.committed (f : Conf) (good : Option (AlcoveId × Bool)) (r : Record) : Conf :=
  match good with
  | some p => { f with selected := some p, record := r, key := none }
  | none => { f with selected := none, key := none }

/-- The DRAM copy changes. -/
def Card.withConf (c : Card) (g : Conf → Conf) : Card :=
  { c with alcove := { c.alcove with conf := c.alcove.conf.map g } }

/-- The dock command goes on once the device has done everything queued (R543, R563, R565). -/
def Card.serviceStep (c : Card) : Card :=
  if !c.alcove.ops.isEmpty then c
  else match c.alcove.service, c.alcove.conf with
    | some (t, .formatErase _ true), some f =>
      let r := c.formatRecord f
      let sa := c.freeSlot .a
      let sb := c.freeSlot .b
      (c.nextFree.addOps [.programRecord .a sa r, .eraseHead .a (!sa), .programRecord .b sb r, .eraseHead .b (!sb)]).setService
        (some (t, .formatRecord none r))
    | some (t, .formatRecord good r), _ => match good with
      | some p => (c.addOps [.eraseLedger .a, .eraseLedger .b]).setService (some (t, .formatLedger p r))
      | none => (c.wipe.withConf (fun f => f.committed none r)).endService t stAlcoveBad 0
    | some (t, .formatLedger p r), _ =>
      let c := c.wipe.withConf (fun f => { f.committed (some p) r with
        p := r.p, key := r.key, table := r.table, retired := r.retired, ledger := [], unlogged := 0 })
      let c := { c with maint := { c.maint with worn := c.isWorn } }
      c.endService t stOk 0
    | some (t, .sanitizeRecord good r), _ =>
      (c.withConf (fun f => f.committed good r)).setService (some (t, .sanitizeErase [] []))
    | some (t, .swapCheck), _ => c.swapNow t
    | _, _ => c

/-- The device reads a record back: the first copy that is valid is remembered, and the slot to rewrite next. Where alcove A's
is not, its old copy's erase leaves B's as the only one, which is voided first (R8, R567; log entry 13). -/
def Card.recordBack (c : Card) (good : Option (AlcoveId × Bool)) (i : AlcoveId) (s : Bool) (r : Record) :
    Card × Option (AlcoveId × Bool) :=
  if c.alcove.slot i s = .copy r then (c.withConf (fun f => f.wrote i s), good.or (some (i, s)))
  else if i = .a then
    ({ c with alcove := { c.alcove with ops := .voidWord .b (!c.freeSlot .b) :: c.alcove.ops } }, good)
  else (c, good)

/-- What an operation's end means to the command it serves (R338, R339, R563). -/
def Card.serviceOp (c : Card) (o : AlcoveOp) : Card :=
  match c.alcove.service, o with
  | some (t, .load i off bs), .programBytes _ _ _ =>
    let st := if Mem.bytes (c.alcove.mem i) off bs.length = bs then stOk else stAlcoveBad
    (c.setService none).finish t st 0 false
  | some (t, .swap i n), .programSeq _ _ =>
    if Mem.bytes (c.alcove.mem i) 8 8 = seqField n then (c.setService none).finish t stOk (n.setWidth 24) false
    else (c.setService none).finish t stAlcoveBad 0 false
  | some (t, .formatRecord good r), .programRecord i s _ =>
    let (c, good) := c.recordBack good i s r
    c.setService (some (t, .formatRecord good r))
  | some (t, .sanitizeRecord good r), .programRecord i s _ =>
    let (c, good) := c.recordBack good i s r
    c.setService (some (t, .sanitizeRecord good r))
  | _, _ => c

/-- ALCOVE_OPERATION_COMPLETE: the first queued operation ends; one that may not fail is done again (R543, R562). The card
takes the device's status while HCLK runs (R14). -/
def Card.alcoveComplete (c : Card) (ok : Bool) : Card :=
  match c.alcove.ops with
  | [] => c
  | o :: r =>
    if !c.power.hclk then c
    else
      let c := c.doAlcove o ok
      if !ok && o.repeats then c.traceAlcove o
      else
        let c := { c with alcove := { c.alcove with ops := r } }
        ((c.traceAlcove o).serviceOp o).serviceStep

/-- ALCOVE_OPERATION_COMPLETE (R543). -/
def execAlcoveOperationComplete (ok : Bool) (s : State) : Host.Outcome State Fault Refusal :=
  run (fun c => c.alcoveComplete ok) s

/-- Block `b` of die `n` has reported its erase to FORMAT or SANITIZE: a refusal is traced (EV-19, R588). -/
def Card.traceRefusal (c : Card) (n b : Nat) (ok : Bool) : Card := if ok then c else c.traceCode n 4 .eraseFail b 0

/-- FORMAT retires a block of the wing table that refused its erase, under the coming epoch (R563 step 2). -/
def Card.formatRefusal (c : Card) (h d b : Nat) : Card :=
  (c.traceRefusal (dieNo h d) b false).retire h d b .erase (c.epoch + 1)

/-- The first wing slot of a die, from `n` on, whose wing has a block in the die's hall (R404). -/
def Card.nextSlot (c : Card) (h d n fuel : Nat) : Option Nat :=
  match fuel with
  | 0 => none
  | k + 1 =>
    if Config.wingSlots ≤ n then none
    else if (c.blockOf (d * Config.wingSlots + n) h).isSome then some n
    else c.nextSlot h d (n + 1) k

/-- One block of a die erased by FORMAT: that of wing slot `n` (R563 step 2). -/
def Card.formatBlock (c : Card) (h d n : Nat) (ok : Bool) : Card :=
  let w := d * Config.wingSlots + n
  match c.blockOf w h with
  | some b => if ok then c.eraseHall w h else (c.formatRefusal h d b).eraseHall w h
  | none => c

/-- A die on which an erase of FORMAT or SANITIZE runs or can be started: it holds no wing's erase, and executes nothing (R439,
R605). -/
def Die.forService (d : Die) : Bool := d.erase.isNone && d.op.isNone

/-- A die's next block in FORMAT's erase: from the slot it has come to on. -/
def Card.formatNext (c : Card) (p : KV Nat) (h d : Nat) : Option Nat :=
  c.nextSlot h d (KV.getD p (dieNo h d) 0) Config.wingSlots

/-- A block erased by SANITIZE: where it serves a wing its pages read as erased (R565 step 4). -/
def Card.sanitizeBlock (c : Card) (h d b : Nat) : Card :=
  match c.wingOfBlock h d b with
  | some w => c.eraseHall w h
  | none => c

/-- Every block has been erased but those that refused (R563 step 2, R565 step 4, R566). -/
def Card.eraseAllBut (c : Card) (refused : List BlockRef) : Card :=
  let kept (h d b : Nat) : Bool := refused.any (fun r => r.hall.toNat == h && r.die.toNat == d && r.block.toNat == b)
  let keys := refused.map (fun r => blockKey r.hall.toNat r.die.toNat r.block.toNat)
  let c := c.clearPages (fun k => !((c.blockOf (keyWing k) (keyHall k)).any (kept (keyHall k) (dieRow (keyWing k)))))
  { c with media := { c.media with pointers := c.media.pointers.filter (fun x => keys.contains x.1)
                                   measured := c.media.measured.filter (fun x => keys.contains x.1) } }

/-- FORMAT under a fenced die: an erase that was running has ended, and the last of them ends the command (R610). -/
def Card.fencedErase (c : Card) (t : Tag) (n : Nat) (p : KV Nat) (running : List Nat) : Card :=
  if running.isEmpty then c.endService t stMediaIncomplete (info3 (n / 16 + 16 * (n % 16)) 0 0)
  else c.setService (some (t, .formatFenced n p running))

/-- A die of FORMAT reports its erase under a fenced die (R610). -/
def Card.fencedReport (c : Card) (p : KV Nat) (n : Nat) (ok : Bool) : Card :=
  match c.formatNext p (n / 16) (n % 16) with
  | some k => c.formatBlock (n / 16) (n % 16) k ok
  | none => c

/-- The block that FORMAT or SANITIZE has a die erase now. -/
def Card.serviceBlock (c : Card) (n : Nat) : Option Nat :=
  match c.alcove.service with
  | some (_, .formatErase p false) | some (_, .formatFenced _ p _) =>
    (c.formatNext p (n / 16) (n % 16)).bind (fun k => c.blockOf (n % 16 * Config.wingSlots + k) (n / 16))
  | some (_, .sanitizeErase p _) =>
    let k := KV.getD p n 0
    if k < Config.blocksPerDie then some k else none
  | _ => none

/-- The erases of FORMAT and SANITIZE (R563 step 2, R565 step 4, R610; log entry 11). -/
def Card.serviceErase (c : Card) (r : EraseReport) : Card :=
  if c.voiding then c
  else match c.alcove.service, r with
    | some (t, .formatErase p false), .die h d ok =>
      let n := dieNo h.toNat d.toNat
      match c.formatNext p h.toNat d.toNat with
      | some k =>
        if (c.die n).forService then
          (c.setService (some (t, .formatErase (KV.put p n (k + 1)) false))).formatBlock h.toNat d.toNat k ok
        else c
      | none => c
    | some (t, .formatErase p false), .bulk l =>
      if c.halls.dies.all (fun x => x.2.forService) then
        let c := l.foldl (fun c b => c.formatRefusal b.hall.toNat b.die.toNat b.block.toNat) c
        let c := c.eraseAllBut []
        (c.setService (some (t, .formatErase p true))).serviceStep
      else c
    | some (t, .formatFenced m p run), .die h d ok =>
      let n := dieNo h.toNat d.toNat
      if run.contains n then (c.fencedReport p n ok).fencedErase t m p (run.filter (fun x => x != n)) else c
    | some (t, .formatFenced m p run), .bulk l =>
      let bad (n : Nat) : Bool := (c.serviceBlock n).any (fun b => l.any (fun r =>
        dieNo r.hall.toNat r.die.toNat == n && r.block.toNat == b))
      (run.foldl (fun x n => x.fencedReport p n (!bad n)) c).fencedErase t m p []
    | some (t, .sanitizeErase p l), .die h d ok =>
      let n := KV.getD p (dieNo h.toNat d.toNat) 0
      if n < Config.blocksPerDie ∧ (c.die (dieNo h.toNat d.toNat)).forService then
        let b : BlockRef := { hall := h, die := d, block := BitVec.ofNat 12 n }
        let c := if ok then c.sanitizeBlock h.toNat d.toNat n else c.traceRefusal (dieNo h.toNat d.toNat) n false
        c.setService (some (t, .sanitizeErase (KV.put p (dieNo h.toNat d.toNat) (n + 1)) (if ok then l else l ++ [b])))
      else c
    | some (t, .sanitizeErase _ l), .bulk more =>
      if c.halls.dies.all (fun x => x.2.forService) then
        let c := more.foldl (fun c b => c.traceRefusal (dieNo b.hall.toNat b.die.toNat) b.block.toNat false) c
        (c.eraseAllBut (l ++ more)).endSanitize t (l ++ more)
      else c
    | _, _ => c

/-- The dies whose FORMAT erase runs while die `m`'s hall is reset and the die fenced: those of other halls that have blocks
left (R508, R610). -/
def Card.formatRunning (c : Card) (p : KV Nat) (m : Nat) : List Nat :=
  (List.range 256).filter (fun n => n / 16 != m / 16 && !c.resetting (n / 16) && !(c.die n).fenced && (c.die n).forService &&
    (c.formatNext p (n / 16) (n % 16)).isSome)

/-- A die is fenced while FORMAT or SANITIZE runs (R335, R610). -/
def Card.serviceFenced (c : Card) (h d : Nat) : Card :=
  match c.alcove.service with
  | some (t, .formatErase p false) => c.fencedErase t (dieNo h d) p (c.formatRunning p (dieNo h d))
  | some (t, .sanitizeErase p l) =>
    let n := KV.getD p (dieNo h d) 0
    let left := (List.range (Config.blocksPerDie - n)).map (fun i =>
      ({ hall := BitVec.ofNat 4 h, die := BitVec.ofNat 4 d, block := BitVec.ofNat 12 (n + i) } : BlockRef))
    c.setService (some (t, .sanitizeErase (KV.put p (dieNo h d) Config.blocksPerDie) (l ++ left)))
  | _ => c

/-- FORMAT or SANITIZE is erasing blocks. -/
def Card.serviceErasing (c : Card) : Bool :=
  !c.voiding && (match c.alcove.service with
    | some (_, .formatErase _ false) => true
    | some (_, .formatFenced _ _ _) => true
    | some (_, .sanitizeErase _ _) => true
    | _ => false)

end Sys2Proof.Machine
end

