-- ==== Sys2Proof/Machine/Dies.lean ====
section
/-! DEFINITION. What the dies report: programs, reads, erases, suspensions, hangs and hall resets, and what the work
that waits for them then does (R430, R432 to R440, R473, R486, R507 to R513, R608, R609). -/

namespace Sys2Proof.Machine

open Sys2Proof

/-- Replace place `i` of a list of pieces by what its read gave. -/
def setPiece (ps : List Piece) (i : Nat) (v : Fetched) (weak : Bool) : List Piece :=
  (ps.zipIdx).map (fun x => if x.2 = i then { x.1 with val := v, weak := weak } else x.1)

/-- What a read gave: the bay, or a loss. -/
def Card.outcome (c : Card) (k : Nat) (bad : Bool) : Fetched :=
  if bad then .lost else match c.bayAt k with
    | some b => .got b
    | none => .lost

/-- Every codeword of a read was beyond recovery: nothing of the bay is known, its metadata neither (R497; log entry 99). -/
def ReadJob.blind (j : ReadJob) : Bool := j.beyondHelp == 0xFFFF

/-- A loss found by a read, recorded with its source (R497). -/
def Card.lossIf (c : Card) (j : ReadJob) (s : LossSource) : Card := if j.kidFailed then c.addLoss j.key s j.blind else c

/-- Where no wing of the pass is left to be visited, it is over and a new one begins (R471; EV-35). -/
def Card.renewPass (c : Card) : Card :=
  if c.passLeft.isEmpty then (if c.maint.pass.isEmpty then c.newPass else c.passOver) else c

/-- A wing of the pass has been visited; with the last one a new pass begins (R471). -/
def Card.visited (c : Card) (w : Nat) : Card :=
  (c.setWing w { c.wing w with visited := true }).renewPass

/-- A patrol visit has found a bay to be rewritten (R473); the visit is cut off where the window has no time left for it
(R449, R472). -/
def Card.patrolRewrite (c : Card) (k : Nat) : Card :=
  if !(c.bayAt k).any (fun b => c.isValid { b with key := k }) then c
  else if c.grants 3 Config.relocTreads && !c.quietNow then c.startMove k .patrol
  else c.cutVisit

/-- One position of a patrol visit has been read (R472, R473). A wing whose positions have all been read is visited. -/
def Card.patrolResult (c : Card) (j : ReadJob) (bad : Bool) : Card :=
  let w := keyWing j.key
  let c := c.lossIf j .service
  let c := if bad then c
    else if 3 ≤ j.step then (c.markRefresh w 4).patrolRewrite j.key
    else if j.weak then c.markRefresh w 4 else c
  match c.maint.visit with
  | some (v, n, found) =>
    if v ≠ w then c
    else if n ≤ 1 then
      ({ c with maint := { c.maint with visit := none } }).visited w
    else { c with maint := { c.maint with visit := some (v, n - 1, found || bad || j.weak) } }
  | none => c

/-- A bay read back to complete its gallery has its image in the vestibule until the gallery is left (R155, R427, R609). -/
def Card.keepRead (c : Card) (k : Nat) (bad : Bool) : Card :=
  match c.bayAt k with
  | some b =>
    if bad || (c.openOf (keyWing k)).isNone then c
    else { c with media := { c.media with vest := KV.put c.media.vest k b } }
  | none => c

/-- A read job has ended: what it served goes on. -/
def Card.deliver (c : Card) (j : ReadJob) : Card :=
  let bad := j.kidFailed
  let v := c.outcome j.key bad
  match j.purpose with
  | .cmd t i => match c.cmdOf t with
    | some (.read w) =>
      let w := { w with pieces := setPiece w.pieces i v false }
      ((c.lossIf j .read).setCmd t (.read w)).finishRead t w
    | _ => c
  | .segment t i => match c.cmdOf t with
    | some (.stream s) =>
      (c.lossIf j .read).setCmd t (.stream { s with cur := { s.cur with pieces := setPiece s.cur.pieces i v false } })
    | _ => c
  | .verify t i => match c.cmdOf t with
    | some (.verify w) =>
      let w := { w with pieces := setPiece w.pieces i v j.weak }
      let c := if bad || j.weak then c.markRefresh (keyWing j.key) 3 else c
      (c.setCmd t (.verify w)).finishVerify t w
    | _ => c
  | .merge t i => match c.cmdOf t with
    | some (.write w) =>
      ((c.lossIf j .merge).setWrite t { w with merges := setPiece w.merges i v false }).advanceWrite t
    | _ => c
  | .move id => if bad then c.moveLost id j.blind else c.moveGot id
  | .patrol => c.patrolResult j bad
  | .completion => ((c.lossIf j .completion).keepRead j.key bad).tryParity (keyWing j.key)
  | .rebuild _ => c

/-- Every read job that has ended is collected. -/
def Card.collectJobs (c : Card) : Card :=
  let c := c.collectKids
  c.halls.jobs.foldl (fun c x => match x.2.purpose with
    | .rebuild _ => c
    | _ => if x.2.ended then (c.dropJob x.1).deliver x.2 else c) c

/-- Everything that waits goes on as far as it can: reads that have ended, images without a position, inline reclaim,
WRITEs and DISCARD.Zs, landings and rollbacks. -/
def Card.settle (c : Card) : Card :=
  let c := c.collectJobs.rehome
  let c := (c.writeWorks.map Prod.fst).foldl Card.inlineStep c
  let c := (c.writeWorks.map Prod.fst).foldl Card.advanceWrite c
  c.stepActs

/-- The die is done with what it executed. -/
def Card.freeDie (c : Card) (n : Nat) : Card := c.setDie n { c.die n with op := none }

/-- After a completion the die takes its next descriptor, the hall's queue its next one (R432, R433). -/
def Card.nextOn (c : Card) (n : Nat) : Card := ((c.pump n).requeue (n / 16)).settle

/-- A command's bay at position `k` is programmed. -/
def Card.markDone (c : Card) (k : Nat) : Card :=
  c.writeWorks.foldl (fun c x =>
    if x.2.bays.any (fun b => b.key == k) then
      c.setWrite x.1 { x.2 with bays := x.2.bays.map (fun b => if b.key = k then { b with done := true } else b) }
    else c) c

/-- The landing or rollback whose bay has position `k`; the card holds none outside MOUNTED (R143). -/
def Card.actAt (c : Card) (k : Nat) : Option Action :=
  if c.phase = .mounted then c.flights.acts.find? (fun a => a.stage == .issued k || a.stage == .assigned k) else none

/-- The MARK bay is programmed (EV-16). -/
def Card.traceMark (c : Card) (b : Bay) : Card :=
  match b.body with
  | .mark v t => c.ev 16 (leBytes 4 v.toNat ++ leBytes 4 t.toNat)
  | _ => c

/-- The bay `b` is programmed at position `k`: its gallery advances and whatever waited for it goes on (R430). -/
def Card.programmed (c : Card) (k : Nat) (b : Bay) : Card :=
  let c := c.traceMark b
  let c := match c.moveAt k with
    | some (id, m) => c.moveDone id m k
    | none => c.markDone k
  let c := match c.actAt k with
    | some a => if a.rollback then c.rolledBack a b else c.landed a b
    | none => c
  c.advanceGallery k b.kind

/-- A landing or rollback whose bay's position is lost past the cut-off fails; its bay is not re-driven (R382, R395). -/
def Card.actBayLost (c : Card) (a : Action) (k : Nat) (b : Bay) (bad : Bool) : Card :=
  let w := keyWing k
  let c := (c.loseHall k b.seq).release [k]
  let c := if bad then
      (match c.blockOf w (keyHall k) with
        | some blk => c.retire (keyHall k) (dieRow w) blk .program c.epoch
        | none => c).closeShort w 1
    else c
  let c := c.tryParity w
  if a.rollback then c.failRollback a else c.failLanding a

/-- The program at position `k` is lost to its bay, which is re-driven (R428, R608, R609); the bay of a landing or rollback
only before its cut-off, and a copy whose program failed will be named as voided should it fail (R382, R395). With its wing no
longer held open, as after FORCE CLOSE, nothing waits for the bay (R24). -/
def Card.lostAt (c : Card) (k cause : Nat) (bad : Bool) : Card :=
  if (c.openOf (keyWing k)).isNone then c.release [k]
  else match c.actAt k, KV.find c.media.vest k with
    | some a, some b =>
      let a := { a with failed := a.failed || bad }
      let c := c.setAct a
      if c.inTime a then c.programLost k cause bad else c.actBayLost a k b bad
    | _, _ => c.programLost k cause bad

/-- The page is below the block's write pointer (REPROGRAM), or above it (ORDER), or as it should be (R436). -/
def Card.pageCode (c : Card) (k : Nat) : Option DescCode :=
  let p := c.writePointer (keyWing k) (keyHall k)
  if keyGallery k < p then some .reprogram else if p < keyGallery k then some .order else none

/-- The block of a position is programmed up to it: the write pointer moves on (R436). -/
def Card.pastPage (c : Card) (k : Nat) : Card := c.setPointer (keyWing k) (keyHall k) (keyGallery k + 1)

/-- A program that a landing or rollback makes under R379 or R392, which no pacing delays (R384, R594). -/
def Card.paceExempt (c : Card) (b : Bay) : Bool :=
  match b.kind with
  | .landing | .rollback => true
  | .filler | .parity | .summary | .discard => c.flights.acts.any (fun a => !a.rollback && a.stage == .completing &&
      (c.rangeImages c.flights.base a.closed).any (fun x => x.key / 16 == b.key / 16))
  | _ => false

/-- A program that pacing delayed adds one to BC-95 (R594). -/
def Card.countPaced (c : Card) (b : Bay) (paced : Bool) : Card := if paced && !c.paceExempt b then c.bump 95 1 else c

/-- What a page holds whose program failed: a DATA or record bay may decode (R382), no other does (R608, R609). -/
def Bay.afterFail (b : Bay) : Cell := if b.kind.redriven then .bay b else .torn

/-- A PROGRAM has completed on a die (R435, R437, R456, R475, R594); one of a page that is not its block's next is not executed
(R436). -/
def Card.programEnd (c : Card) (k : Nat) (b : Bay) (r : ProgReport) : Card :=
  let c := c.countPaced b r.paced
  match c.pageCode k with
  | some code => ((c.complete (.program k) code).bump 84 1).lostAt k 3 false
  | none =>
    let c := ((c.countPulses k r.pulses.toNat).pastPage k).writeCell k (if r.ok then .bay b else b.afterFail)
    let c := c.complete (.program k) (if r.ok then .ok else .programFail)
    if !r.ok then c.lostAt k 1 true
    else if (c.openOf (keyWing k)).isNone then c.release [k]
    else c.programmed k b

/-- A die has ended a program: its next work follows. -/
def Card.programTaken (c : Card) (h d : Nat) (r : ProgReport) : Card :=
  let n := dieNo h d
  match (c.die n).op with
  | some (.program k) => match KV.find c.media.vest k with
    | some b => ((c.freeDie n).programEnd k b r).nextOn n
    | none => ((c.freeDie n).complete (.program k) (if r.ok then .ok else .programFail)).nextOn n
  | _ => c

/-- With the card unpowered, a program that runs on to its end on warning time or hold-up leaves its page and nothing else
(R24, R61, R78). -/
def Card.programDark (c : Card) (n : Nat) (r : ProgReport) : Card :=
  match (c.die n).op with
  | some (.program k) => match KV.find c.media.vest k with
    | some b => (c.freeDie n).writeCell k (if r.ok then .bay b else b.afterFail)
    | none => c.freeDie n
  | _ => c

/-- The card takes what a die has finished once it is clocked: a report made while HCLK is absent waits on the die (R15,
R24). -/
def Card.dieReport (c : Card) (n : Nat) (x : DieReport) (f : Card → Card) : Card :=
  if c.power.hclk then f c
  else if (c.die n).late.isNone then c.setDie n { c.die n with late := some x }
  else c

/-- PROGRAM_COMPLETE (R435). -/
def Card.programComplete (c : Card) (h d : Nat) (r : ProgReport) : Card :=
  if c.phase = .absent then c.programDark (dieNo h d) r
  else c.dieReport (dieNo h d) (.prog r) (fun c => c.programTaken h d r)

/-- PROGRAM_COMPLETE (R435). -/
def execProgramComplete (hall die : BitVec 4) (r : ProgReport) (s : State) : Host.Outcome State Fault Refusal :=
  run (fun c => c.programComplete hall.toNat die.toNat r) s

/-- The completion code of a read (R435). -/
def readCode (r : ReadReport) (mask : BitVec 16) : DescCode :=
  if r.erased then .erased else if r.fails &&& mask ≠ 0 then .undecoded else if r.soft &&& mask ≠ 0 then .soft else .ok

/-- A die has ended a read (R435, R468, R486). -/
def Card.readTaken (c : Card) (h d : Nat) (r : ReadReport) : Card :=
  let n := dieNo h d
  match (c.die n).op with
  | some (.read id k margin mask shift) =>
    let c := ((c.freeDie n).complete (.read id k margin mask shift) (readCode r mask)).countRead (keyWing k)
    let c := match KV.find c.halls.jobs id with
      | some j => c.stepJob id j r
      | none => c
    c.nextOn n
  | _ => c

/-- READ_COMPLETE (R435, R468, R486). -/
def Card.readComplete (c : Card) (h d : Nat) (r : ReadReport) : Card :=
  c.dieReport (dieNo h d) (.read r) (fun c => c.readTaken h d r)

/-- READ_COMPLETE (R486). -/
def execReadComplete (hall die : BitVec 4) (r : ReadReport) (s : State) : Host.Outcome State Fault Refusal :=
  run (fun c => c.readComplete hall.toNat die.toNat r) s

/-- One ERASE of a wing has completed (R435, R438, R475, R480); a SUSPEND that came too late for it has nothing left to do. -/
def Card.eraseEnd (c : Card) (h d : Nat) (e : DieErase) (ok : Bool) : Card :=
  let n := dieNo h d
  let c := if e.stage = .suspending then c.complete (.suspend n) .ok else c
  let c := (c.setDie n { c.die n with erase := none }).complete (.erase e.wing h) (if ok then .ok else .eraseFail)
  let c := if ok then c.eraseHall e.wing h
    else
      match c.blockOf e.wing h with
      | some b => c.retire h d b .erase c.epoch
      | none => c
  match KV.find c.halls.erases e.wing with
  | some x =>
    let x := { x with left := x.left.filter (· != h), failed := x.failed || !ok }
    if x.left.isEmpty then (c.endErase e.wing x.failed).inlineErased e.wing x.owner
    else { c with halls := { c.halls with erases := KV.put c.halls.erases e.wing x } }
  | none => c

/-- A die has ended an ERASE (R438). -/
def Card.eraseTaken (c : Card) (h d : Nat) (ok : Bool) : Card :=
  match (c.die (dieNo h d)).erase with
  | some e => if e.stage = .suspended then c else (c.eraseEnd h d e ok).nextOn (dieNo h d)
  | none => c

/-- ERASE_COMPLETE: a wing's erase that the die holds has ended, else one of FORMAT's or SANITIZE's (R438, R605). -/
def Card.eraseComplete (c : Card) (r : EraseReport) : Card :=
  let service : Card := if c.serviceErasing && c.power.hclk then c.serviceErase r else c
  match r with
  | .die h d ok =>
    if (c.die (dieNo h.toNat d.toNat)).erase.isSome then
      c.dieReport (dieNo h.toNat d.toNat) (.erase ok) (fun c => c.eraseTaken h.toNat d.toNat ok)
    else service
  | .bulk _ => service

/-- ERASE_COMPLETE (R438). -/
def execEraseComplete (r : EraseReport) (s : State) : Host.Outcome State Fault Refusal :=
  run (fun c => c.eraseComplete r) s

/-- A die has suspended its erase (SUSPENDED): what waited is executed (R435, R439). -/
def Card.suspendTaken (c : Card) (h d : Nat) : Card :=
  let n := dieNo h d
  match (c.die n).erase with
  | some e =>
    if e.stage = .suspending then ((c.setStage n .suspended).complete (.suspend n) .suspended).pump n
    else c
  | none => c

/-- ERASE_SUSPEND_COMPLETE (R439): the erase is left suspended. -/
def Card.suspendComplete (c : Card) (h d : Nat) : Card :=
  c.dieReport (dieNo h d) .suspended (fun c => c.suspendTaken h d)

/-- What a die finished while HCLK was absent is taken (R15, R38). -/
def Card.takeLate (c : Card) (n : Nat) : Card :=
  match (c.die n).late with
  | none => c
  | some x =>
    let c := c.setDie n { c.die n with late := none }
    match x with
    | .prog r => c.programTaken (n / 16) (n % 16) r
    | .read r => c.readTaken (n / 16) (n % 16) r
    | .erase ok => c.eraseTaken (n / 16) (n % 16) ok
    | .suspended => c.suspendTaken (n / 16) (n % 16)

/-- Everything the dies finished meanwhile is taken, and what can start starts: HCLK is back. -/
def Card.takeAllLate (c : Card) : Card :=
  ((c.halls.dies.map Prod.fst).foldl Card.takeLate c).pumpAll

/-- ERASE_SUSPEND_COMPLETE (R439). -/
def execEraseSuspendComplete (hall die : BitVec 4) (s : State) : Host.Outcome State Fault Refusal :=
  run (fun c => c.suspendComplete hall.toNat die.toNat) s

/-- EXCLUSIVE_READ_WAIT_EXPIRY: a read has waited 4,000 µs behind an erase, which do not run out without HCLK (R15, R439). -/
def Card.readWaitExpiry (c : Card) (h d : Nat) : Card :=
  let n := dieNo h d
  match (c.die n).erase, c.firstFor n (c.queue h) with
  | some e, some (.read _ _ _ _ _) =>
    if e.stage = .running ∧ c.power.hclk then c.issue (.suspend n) else c
  | _, _ => c

/-- EXCLUSIVE_READ_WAIT_EXPIRY (R439). -/
def execExclusiveReadWaitExpiry (hall die : BitVec 4) (s : State) : Host.Outcome State Fault Refusal :=
  run (fun c => c.readWaitExpiry hall.toNat die.toNat) s

/-- DESCRIPTOR_QUEUED (R433). -/
def execDescriptorQueued (hall : BitVec 4) (s : State) : Host.Outcome State Fault Refusal :=
  run (fun c => if c.power.hclk then c.requeue hall.toNat else c) s

/-- A program that has begun ends with its page not completed: the page is abandoned (R508 step 3); where it is not its block's
next, nothing was executed (R436). -/
def Card.tearPage (c : Card) (k : Nat) : Card := if (c.pageCode k).isNone then (c.writeCell k .torn).pastPage k else c

/-- A PROGRAM completes HUNG or ABORTED; whether pacing had delayed it is left open (R435, R594; log entry 106). -/
def Card.completeCut (c : Card) (k : Nat) (code : DescCode) : Card :=
  match KV.find c.media.vest k with
  | some b => ((c.countPaced b (Config.freePaced c.freeCount)).nextFree).complete (.program k) code
  | none => c.complete (.program k) code

/-- What a hall reset does to one die: its program is aborted and its page abandoned, its read will be issued again, its erase
is aborted, all by RESET-DIE (R508 steps 2 to 5). -/
def Card.resetDie (c : Card) (x : HallReset) (h d : Nat) : Card × HallReset :=
  let n := dieNo h d
  let die := c.die n
  let (c, x) := match die.op with
    | some (.program k) => ((c.completeCut k .aborted).tearPage k, { x with redrive := x.redrive ++ [k] })
    | some r => (c, { x with again := x.again ++ [r] })
    | none => (c, x)
  let c := match die.erase with
    | some e => c.cutErase e.wing [h]
    | none => c
  (c.issue (.resetDie n), x)

/-- The hall is reset: the bay of a landing or rollback queued for it is issued no longer (R507, R508; EV-22, BC-82). -/
def Card.beginReset (c : Card) (h d : Nat) (again : List Desc) : Card :=
  let c := (c.bump 82 1).ev 22 [BitVec.ofNat 8 h, BitVec.ofNat 8 d]
  let (c, x) := allHalls.foldl (fun (y : Card × HallReset) i => y.1.resetDie y.2 h i)
    (c, { hung := d, again := again, redrive := [] })
  { c with
    halls := { c.halls with resets := KV.put c.halls.resets h x }
    flights := { c.flights with acts := c.flights.acts.map (fun a => match a.stage with
      | .issued k => if keyHall k = h then { a with stage := .assigned k } else a
      | _ => a) } }

/-- An anneal ends; the die accepts descriptors again (R463; EV-33). Cut short, it leaves the die hot (R464, R465). -/
def Card.endAnneal (c : Card) (n p0 p1 retired : Nat) (done : Bool) : Card :=
  let c := { c with maint := { c.maint with anneals := c.maint.anneals.filter (fun a => a.die != n) } }
  let c := c.setDie n { c.die n with heat := if done then .cold else .hot }
  c.ev 33 [BitVec.ofNat 8 (n / 16 + 16 * (n % 16)), BitVec.ofNat 8 p0, BitVec.ofNat 8 p1, if done then 1 else 0,
    BitVec.ofNat 8 retired]

/-- The anneal of a die is cut short (R464). -/
def Card.cutAnneal (c : Card) (n : Nat) : Card :=
  match c.maint.anneals.find? (fun a => a.die == n) with
  | some a => c.endAnneal n a.p0 0 0 false
  | none => c

/-- Work queued for a die that has been fenced goes elsewhere: its positions count as missing, its programs go to other
positions, its reads to step 4, its erases are dropped, and its anneal ends (R511, R512). -/
def Card.clearFenced (c : Card) (n : Nat) : Card :=
  let h := n / 16
  let ws := (c.halls.erases.filter (fun x => dieRow x.1 == n % 16 && x.2.left.contains h)).map Prod.fst
  let c := ((c.missHall n).divertReads n).keepDescs (fun d => match d with
    | .program k => keyDie k != n
    | _ => true)
  let c := (c.media.vest.filter (fun x => keyDie x.1 == n && (c.cellAt x.1).isNone && !c.awaitsHome x.1)).foldl
    (fun c x => c.lostAt x.1 2 false) c
  (ws.foldl (fun c w => c.cutErase w [h]) c).cutAnneal n

/-- The die is fenced (R511; EV-24). -/
def Card.fence (c : Card) (h d : Nat) : Card :=
  let n := dieNo h d
  let c := c.setDie n { c.die n with fenced := true }
  (c.notice ntHallFenced (info3 h d 0)).ev 24 [BitVec.ofNat 8 (h + 16 * d)]

/-- What hangs on a die: a descriptor of the hall's queue, FORMAT's or SANITIZE's erase of a block, a read of the mount scan, or
the second probe of an anneal (R435, R462, R507). -/
inductive HungWork where
  | desc (d : Desc)
  | service (block : Nat)
  | scan
  | probe
  deriving DecidableEq, Repr

/-- The block whose erase for FORMAT or SANITIZE a die executes (log entry 11). -/
def Card.serviceRuns (c : Card) (n : Nat) : Option Nat :=
  let runs := c.serviceErasing && !(c.die n).fenced && (c.die n).forService && (match c.alcove.service with
    | some (_, .formatFenced _ _ run) => run.contains n
    | _ => true)
  if runs then c.serviceBlock n else none

/-- What a die executes, none where it executes nothing. -/
def Card.hungWork (c : Card) (h d : Nat) : Option HungWork :=
  let n := dieNo h d
  let runs := match (c.die n).erase with
    | some e => if e.stage = EraseStage.suspended then none else some (Desc.erase e.wing h)
    | none => none
  match (c.die n).op, runs, c.serviceRuns n with
  | some o, _, _ => some (.desc o)
  | none, some o, _ => some (.desc o)
  | none, none, some b => some (.service b)
  | none, none, none =>
    if c.phase = Phase.mounting ∧ c.straps.reading = none then some .scan
    else if (c.die n).heat = HeatStage.cooling then some .probe else none

/-- What hung completes HUNG (R435). The block and page of a scan's read or of a probe are open (log entry 106). -/
def Card.completeHung (c : Card) (n : Nat) (w : HungWork) : Card :=
  let p := Config.hungPlace c.freeCount
  match w with
  | .desc (.program k) => c.completeCut k .hung
  | .desc d => c.complete d .hung
  | .service b => c.traceCode n 4 .hung b 0
  | .scan => ((c.bump (32 + n / 16) 1).traceCode n 1 .hung p.1.toNat p.2.toNat).nextFree
  | .probe =>
    if Config.hungProbe c.freeCount then ((c.bump (16 + n / 16) 1).traceCode n 3 .hung p.1.toNat p.2.toNat).nextFree
    else (c.traceCode n 4 .hung p.1.toNat 0).nextFree

/-- The die executes what hung no longer. -/
def Card.stopHung (c : Card) (n : Nat) (w : HungWork) : Card :=
  match w with
  | .desc (.erase _ _) => c.setDie n { c.die n with erase := none }
  | .desc _ => c.setDie n { c.die n with op := none }
  | _ => c

/-- The hung descriptor is issued once more after the reset (R508 step 6); a program of a wing no longer held open, as after
FORCE CLOSE, for which nothing waits, is not (R24). -/
def Card.hungAgain (c : Card) (w : HungWork) : List Desc :=
  match w with
  | .desc (.program k) => if (c.openOf (keyWing k)).isSome then [.program k] else []
  | .desc d => [d]
  | _ => []

/-- A hung descriptor that is not issued again (R511, R512). -/
def Card.dropHung (c : Card) (w : HungWork) : Card :=
  match w with
  | .desc (.program k) => (c.tearPage k).lostAt k 2 false
  | .desc d => c.divertRead d
  | _ => c

/-- The erases that other dies of a hall in reset execute for FORMAT or SANITIZE complete ABORTED (R508 step 4); they are
issued again, but under a fenced die (R610). -/
def Card.serviceReset (c : Card) (h d : Nat) : Card :=
  let c := (allHalls.filter (· != d)).foldl (fun c i => match c.serviceRuns (dieNo h i) with
    | some b => c.traceCode (dieNo h i) 4 .aborted b 0
    | none => c) c
  match c.alcove.service with
  | some (t, .formatFenced m p run) => c.fencedErase t m p (run.filter (fun n => n / 16 != h))
  | _ => c

/-- DESCRIPTOR_HUNG (R507, R508, R511). An unpowered card resets nothing (R61). -/
def Card.descriptorHung (c : Card) (h d : Nat) : Card :=
  let n := dieNo h d
  if c.phase == .absent || !c.power.hclk || (c.die n).fenced || c.resetting h then c
  else match c.hungWork h d with
    | none => c
    | some w =>
      let second := decide (1 ≤ (c.die n).hangs)
      let c := (c.completeHung n w).stopHung n w
      let c := c.setDie n { c.die n with hangs := (c.die n).hangs + 1 }
      if second then
        (((((c.fence h d).serviceReset h d).beginReset h d []).dropHung w).clearFenced n |>.serviceFenced h d).settle
      else
        let again := c.hungAgain w
        let c := (c.serviceReset h d).beginReset h d again
        (if again.isEmpty then c.dropHung w else c).settle

/-- DESCRIPTOR_HUNG (R507). -/
def execDescriptorHung (hall die : BitVec 4) (s : State) : Host.Outcome State Fault Refusal :=
  run (fun c => c.descriptorHung hall.toNat die.toNat) s

/-- What a hall's reset leaves waiting enters its queue in its order, as far as that has places; the rest is held back (R433,
R508 step 6). -/
def Card.refill (c : Card) (h : Nat) (ds : List Desc) : Card :=
  (c.setQueue h (ds.take Config.hallQueue)).setBack h (ds.drop Config.hallQueue)

/-- HALL_RESET_END: aborted programs are re-driven, the hung and the queued descriptors are issued again, but for the bay of a
landing or rollback past its cut-off (R380, R507, R508; EV-23). -/
def Card.resetEnd (c : Card) (h micros : Nat) : Card :=
  if !c.power.hclk || !c.resetting h then c
  else
    let c := c.keepDescs (fun d => !(d.hall == h && c.lateDesc d))
    match KV.find c.halls.resets h with
    | none => c
    | some x =>
      let c := { c with halls := { c.halls with resets := KV.drop c.halls.resets h } }
      let c := allHalls.foldl (fun c d => c.complete (.resetDie (dieNo h d)) .ok) c
      let n := (x.again ++ c.queue h).length
      let c := c.refill h (x.again ++ c.queue h ++ c.backList h)
      let c := x.redrive.foldl (fun c k => c.lostAt k 2 false) c
      let c := (allHalls.filter (fun d => c.dieShut (dieNo h d))).foldl (fun c d => c.divertReads (dieNo h d)) c
      let c := c.ev 23 ([BitVec.ofNat 8 h, BitVec.ofNat 8 x.redrive.length, BitVec.ofNat 8 n] ++ leBytes 2 micros)
      ((allHalls.foldl (fun c d => c.pump (dieNo h d)) c).noteActs).settle

/-- HALL_RESET_END (R507). -/
def execHallResetEnd (hall : BitVec 4) (micros : BitVec 16) (s : State) : Host.Outcome State Fault Refusal :=
  run (fun c => c.resetEnd hall.toNat micros.toNat) s

end Sys2Proof.Machine
end

