-- ==== Sys2Proof/Machine/Maint.lean ====
section
/-! DEFINITION. What the card does in a service window: erases, reclaim, refresh, static levelling, patrol, anneal; and
thermal stages (R444 to R451, R459 to R474, R593). -/

namespace Sys2Proof.Machine

open Sys2Proof

/-- A running service window grants kind `k`, at least `need` treads of it remain, and no quiet window forbids the work (R23,
R449). -/
def Card.windowAllows (c : Card) (k need : Nat) : Bool :=
  c.phase == .mounted && c.power.hclk && c.grants k need && !c.quietNow

/-- Wing erases begin, at most four at once (R450). -/
def Card.eraseMore (c : Card) (n : Nat) : Card :=
  match n with
  | 0 => c
  | k + 1 => match c.eraseOrder with
    | w :: _ => (c.startErase w .window).eraseMore k
    | [] => c

/-- WINDOW_ERASE_START: suspended erases resume, then wings awaiting erase are erased (R450, R605). -/
def Card.windowErase (c : Card) : Card :=
  if c.windowAllows 1 Config.eraseTreads then
    (c.halls.dies.foldl (fun c x => match x.2.erase with
      | some e => if e.stage = .suspended then c.pump x.1 else c
      | none => c) c).eraseMore Config.windowErases
  else c

/-- WINDOW_ERASE_START (R450). -/
def execWindowEraseStart (s : State) : Host.Outcome State Fault Refusal := run Card.windowErase s

/-- The erase kind is granted and has a wing it could erase now (R451). -/
def Card.eraseFirst (c : Card) : Bool := c.windowAllows 1 Config.eraseTreads && !c.eraseOrder.isEmpty

/-- Empty a wing by one bay: relocate its next movable bay, or leave it awaiting erase when none is valid (R447,
R448). -/
def Card.emptyOne (c : Card) (w : Nat) (why : MoveWhy) : Card :=
  match c.movable w with
  | k :: _ => c.startMove k why
  | [] => c.emptied w

/-- The wing the reclaim kind is emptying, or a new victim (R444, R450; EV-30). -/
def Card.reclaimVictim (c : Card) : Card × Option Nat :=
  let keep := c.maint.emptying.any (fun w => (c.wing w).state == .closed && !c.excluded w &&
    !(c.validIn w).isEmpty)
  if keep then (c, c.maint.emptying)
  else
    let v := c.chooseVictim
    let c := { c with maint := { c.maint with emptying := v } }
    match v with
    | some w => (c.traceVictim w false, some w)
    | none => (c, none)

/-- Closed wings to refresh: the marked ones, oldest mark first, then those with a block on a fenced die (R470). -/
def Card.refreshOrder (c : Card) : List Nat :=
  let closed := c.media.wings.filter (fun x => x.2.state == .closed)
  (sortBy (fun a b => decide ((a.2.mark.getD 0) ≤ (b.2.mark.getD 0)))
    (closed.filter (fun x => x.2.mark.isSome))).map Prod.fst ++
  (closed.filter (fun x => x.2.mark.isNone && c.onFenced x.1)).map Prod.fst

/-- The first such wing with something to do. -/
def Card.refreshNext (c : Card) : Option Nat :=
  c.refreshOrder.find? (fun w => !(c.movable w).isEmpty || (c.validIn w).isEmpty)

/-- REFRESH_RELOCATION: in the next such wing (R470), after what the erase kind has to do (R451). -/
def Card.refreshOne (c : Card) : Card :=
  if c.windowAllows 4 Config.relocTreads && !c.eraseFirst then
    match c.refreshNext with
    | some w => c.emptyOne w .refresh
    | none => c
  else c

/-- REFRESH_RELOCATION (R470). -/
def execRefreshRelocation (s : State) : Host.Outcome State Fault Refusal := run Card.refreshOne s

/-- A kind that comes before reclaim has work to do: erase, refresh (R451). -/
def Card.reclaimYields (c : Card) : Bool :=
  c.eraseFirst || (c.windowAllows 4 Config.relocTreads && c.refreshNext.isSome)

/-- The reclaim kind is to reclaim (R450). -/
def Card.reclaims (c : Card) : Bool :=
  c.windowAllows 0 Config.relocTreads && decide (c.freeErased + c.waitingErase < Config.reclaimBelow)

/-- RECLAIM_RELOCATION (R447, R450), after erase and refresh (R451). -/
def Card.reclaimOne (c : Card) : Card :=
  if c.reclaims && !c.reclaimYields then
    match c.reclaimVictim with
    | (c, some w) => c.emptyOne w .reclaim
    | (c, none) => c
  else c

/-- RECLAIM_RELOCATION (R447). -/
def execReclaimRelocation (s : State) : Host.Outcome State Fault Refusal := run Card.reclaimOne s

/-- A kind that comes before static level has work to do: erase, refresh, reclaim (R451). -/
def Card.levelYields (c : Card) : Bool :=
  c.reclaimYields || (c.reclaims && (match c.reclaimVictim.2 with
    | some w => !(c.movable w).isEmpty || (c.validIn w).isEmpty
    | none => false))

/-- Some wing of a die row has no entry of its own: the row's class is its class (R458). -/
def Card.rowUnlisted (c : Card) (row : Nat) : Bool :=
  (List.range Config.wingSlots).any (fun i =>
    (KV.find c.media.wings (row * Config.wingSlots + i)).isNone && !c.isWithdrawn (row * Config.wingSlots + i))

/-- The highest class among wings in service (R466). -/
def Card.topClass (c : Card) : Nat :=
  max ((c.media.wings.filter (fun x => !c.isWithdrawn x.1)).foldl (fun m x => max m x.2.cls) 0)
    ((c.media.rowClass.filter (fun x => c.rowUnlisted x.1)).foldl (fun m x => max m x.2) 0)

/-- The young wing: the cold wing of lowest class, ties to the oldest close sequence (R466). -/
def Card.youngWing (c : Card) : Option Nat :=
  let cold := c.media.wings.filter (fun x => x.2.state == .closed && decide (x.2.closeSeq + 2 ^ 24 ≤ c.media.seq))
  (sortBy (fun a b =>
    decide (a.2.cls < b.2.cls ∨ (a.2.cls = b.2.cls ∧ a.2.closeSeq ≤ b.2.closeSeq))) cold).head?.map Prod.fst

/-- The young wing is to be moved: the classes lie far enough apart, and a free erased wing of class high enough can be
opened, which is the wing returned (R412, R466, R467). -/
def Card.moveTarget (c : Card) (y : Nat) : Option Nat :=
  if (c.wing y).cls + 3 ≤ c.topClass ∧ c.media.opens.length < 4 then
    match bestOf higherClass c.openable with
    | some (w, k) => if (c.wing y).cls + 2 ≤ k then some w else none
    | none => none
  else none

/-- The wing a move opened takes no more than that move's bays (R604); it is full or closed short. -/
def Card.targetFull (c : Card) (t : Nat) : Bool :=
  match c.openOf t with
  | some o => (c.nextGallery o).isNone
  | none => true

/-- The move under way: its young wing still holds a bay to be moved, and the wing it opened has room (R467). -/
def Card.moveOn (c : Card) : Option Nat :=
  match c.maint.young with
  | some (y, t) =>
    if (c.wing y).state = .closed ∧ !(c.validIn y).isEmpty ∧ !c.targetFull t then some y else none
  | none => none

/-- Go on with the static-levelling move under way, or begin the next: each opens its own wing (R466, R467). -/
def Card.levelWing (c : Card) : Card × Option Nat :=
  match c.moveOn with
  | some y => (c, some y)
  | none =>
    let c := c.leaveTarget
    match c.youngWing with
    | some y => match c.moveTarget y with
      | some t =>
        let c := c.openWing t true
        ({ c with maint := { c.maint with young := some (y, t) } }, some y)
      | none => (c, none)
    | none => (c, none)

/-- STATIC_LEVEL_MOVE (R466, R467), after erase, refresh and reclaim (R451). -/
def Card.levelOne (c : Card) : Card :=
  if c.windowAllows 2 Config.relocTreads && !c.levelYields then
    match c.levelWing with
    | (c, some y) => c.emptyOne y .staticLevel
    | (c, none) => c
  else c

/-- STATIC_LEVEL_MOVE (R467). -/
def execStaticLevelMove (s : State) : Host.Outcome State Fault Refusal := run Card.levelOne s

/-- Programmed positions of a wing (R472). -/
def Card.positionsOf (c : Card) (w : Nat) : List Nat :=
  (c.bays.filter (fun b => keyWing b.key == w)).map Bay.key

/-- PATROL_VISIT: every programmed position of the next wing is read at stricter thresholds (R471, R472). -/
def Card.patrolOne (c : Card) : Card :=
  if c.windowAllows 3 Config.marginTreads && c.maint.visit.isNone then
    let c := c.renewPass
    match c.passLeft with
    | [] => c
    | w :: _ =>
      let ps := c.positionsOf w
      if ps.isEmpty then c.visited w
      else
        let c := { c with maint := { c.maint with visit := some (w, ps.length, false) } }
        (ps.foldl (fun c k => c.startJob k .patrol true) c).settle
  else c

/-- PATROL_VISIT (R472). -/
def execPatrolVisit (s : State) : Host.Outcome State Fault Refusal := run Card.patrolOne s

/-- The conditions on a die and its row for an anneal (R460). -/
def Card.mayAnneal (c : Card) (n : Nat) : Bool :=
  let row := n % 16
  let die := c.die n
  !(c.media.opens.any (fun o => dieRow o.wing == row)) &&
    !(allHalls.any (fun h => (c.die (dieNo h row)).fenced)) &&
    die.erase.isNone && die.heat == .cold && !die.fenced && !c.resetting (n / 16) &&
    decide (c.maint.anneals.length < 4) &&
    !(c.maint.anneals.any (fun a => a.die / 16 == n / 16 || a.die % 16 == row))

/-- Dies due for anneal, the highest class first, ties to the lowest number (R459, R460). -/
def Card.dueDies (c : Card) : List Nat :=
  let due := (List.range 256).filterMap (fun n => (c.dieClass n).bind (fun k => if 5 ≤ k then some (n, k) else none))
  (sortBy (fun a b => decide (b.2 ≤ a.2)) due).map Prod.fst

/-- A kind that comes before anneal has work to do: erase, refresh, reclaim, static level (R451). -/
def Card.annealYields (c : Card) : Bool :=
  c.levelYields || (c.windowAllows 2 Config.relocTreads &&
    (match c.moveOn with
      | some y => !(c.movable y).isEmpty
      | none => c.youngWing.any (fun y => (c.moveTarget y).isSome)))

/-- A probe of a die has ended: its one page's PROGRAM counts with its hall's (R462 steps 1 and 4, R587; log entry 106). -/
def Card.countProbe (c : Card) (n : Nat) : Card := c.bump (16 + n / 16) 1

/-- ANNEAL_START: the probe gives p0 and HEAT is issued; the die's waiting reads go to step 4 (R434, R451, R460, R462 steps 1
and 2, R463). -/
def Card.annealStart (c : Card) (pulses : Nat) : Card :=
  if c.windowAllows 6 Config.annealTreads && decide (c.maint.hottest ≤ 560) && !c.annealYields then
    match c.dueDies.find? c.mayAnneal with
    | some n =>
      let a : Anneal := { die := n, p0 := programClass pulses }
      let c := { c with maint := { c.maint with anneals := c.maint.anneals ++ [a] } }
      (((c.countProbe n).issue (.heat n)).divertReads n).settle
    | none => c
  else c

/-- ANNEAL_START (R460, R462). -/
def execAnnealStart (pulses : Byte) (s : State) : Host.Outcome State Fault Refusal :=
  run (fun c => c.annealStart pulses.toNat) s

/-- HEAT_COMPLETE: the heater is switched off and the die cools (R435, R462 step 3). Its 250 ms do not run out without HCLK
(R15). -/
def Card.heatComplete (c : Card) (n : Nat) : Card :=
  if (c.die n).heat = .heating ∧ c.power.hclk then
    (c.setDie n { c.die n with heat := .cooling }).complete (.heat n) .ok
  else c

/-- HEAT_COMPLETE (R462). -/
def execHeatComplete (hall die : BitVec 4) (s : State) : Host.Outcome State Fault Refusal :=
  run (fun c => c.heatComplete (dieNo hall.toNat die.toNat)) s

/-- Every block class of a die that is not 0, its unlisted blocks included. -/
def Card.dieBlocks (c : Card) (n : Nat) : KV Nat :=
  let lo := n * Config.blocksPerDie
  let d := KV.getD c.media.rowClass (n % 16) 0
  if d = 0 then c.media.blockClass.filter (fun x => decide (lo ≤ x.1 ∧ x.1 < lo + Config.blocksPerDie))
  else (List.range Config.blocksPerDie).map (fun b => (lo + b, KV.getD c.media.blockClass (lo + b) d))

/-- A wing's class is recomputed; one that no entry lists gets one where its class differs from its die row's (R457, R458). -/
def Card.reclassAny (c : Card) (w : Nat) : Card :=
  if c.wingClass w = (c.wing w).cls then c else c.reclass w

/-- Step 5: every block class of the die falls by p0 - p1, the classes of the row's wings are recomputed, the die class becomes
undefined, and blocks in service still at class 6 or higher are retired (R462, R475; BC-87). -/
def Card.annealEnd (c : Card) (n p0 p1 : Nat) : Card :=
  let low : KV Nat := (c.dieBlocks n).map (fun x => (x.1, x.2 - (p0 - p1)))
  let classes : KV Nat := low.foldl (fun m x => KV.put m x.1 x.2) c.media.blockClass
  let c : Card := { c with media := { c.media with
    blockClass := classes
    dieClasses := KV.drop c.media.dieClasses n } }
  let c : Card := ((List.range Config.wingSlots).map (· + n % 16 * Config.wingSlots)).foldl Card.reclassAny c
  let gone (k : Nat) : Bool := (c.alcove.conf.any (fun f => (KV.find f.retired k).isSome))
  let worn := (low.filter (fun x => decide (6 ≤ x.2) && !gone x.1)).map (fun x => x.1 % Config.blocksPerDie)
  let c := worn.foldl (fun (c : Card) (b : Nat) =>
    let c := match c.wingOfBlock (n / 16) (n % 16) b with
      | some w => if (c.wing w).state = WingState.closed then c.setWing w { c.wing w with short := true } else c
      | none => c
    c.retire (n / 16) (n % 16) b .anneal c.epoch) c
  let c := (c.bump 87 1).endAnneal n p0 p1 worn.length true
  { c with maint := { c.maint with annealCount := c.maint.annealCount + 1 } }

/-- ANNEAL_PROBE: the junction is below 80 °C and the second probe gives p1 (R462 steps 4 and 5). -/
def Card.annealProbe (c : Card) (n pulses : Nat) : Card :=
  match c.maint.anneals.find? (fun a => a.die == n) with
  | some a =>
    if (c.die n).heat = .cooling ∧ c.power.hclk then
      (((c.countProbe n).annealEnd n a.p0 (programClass pulses)).pump n).settle
    else c
  | none => c

/-- ANNEAL_PROBE (R462). -/
def execAnnealProbe (hall die : BitVec 4) (pulses : Byte) (s : State) : Host.Outcome State Fault Refusal :=
  run (fun c => c.annealProbe (dieNo hall.toNat die.toNat) pulses.toNat) s

/-- HEATER_TIMEOUT: the heater is off after 300 ms. With HCLK absent the anneal goes on from step 3 when the clock
returns; otherwise it has been cut short (R464). -/
def Card.heaterTimeout (c : Card) (n : Nat) : Card :=
  if (c.die n).heat = .heating then
    if c.power.hclk then (c.cutAnneal n).pump n
    else c.setDie n { c.die n with heat := .cooling }
  else c

/-- HEATER_TIMEOUT (R464). -/
def execHeaterTimeout (hall die : BitVec 4) (s : State) : Host.Outcome State Fault Refusal :=
  run (fun c => c.heaterTimeout (dieNo hall.toNat die.toNat)) s

/-- Heaters go off and anneals are cut short (R464, R32). -/
def Card.cutAnneals (c : Card) : Card :=
  c.maint.anneals.foldl (fun c a => c.cutAnneal a.die) c

/-- The pacing stage that follows stage `s` at a junction of `t` eighths of a degree (R593). -/
def nextStage (s : Nat) (t : Int) : Nat :=
  if 736 ≤ t then 2
  else if t ≤ 656 then 0
  else match s with
    | 0 => if 680 ≤ t then 1 else 0
    | 1 => 1
    | _ => if t ≤ 712 then 1 else 2

/-- The highest of some junctions, or the value held where none is given. -/
def hottestOf (l : List Int) (held : Int) : Int :=
  match l with
  | [] => held
  | t :: r => r.foldl max t

/-- A junction below 80 °C, in eighths of a degree (R462, R465). -/
def isCool (t : Int) : Bool := decide (t < 640)

/-- The die counts for H, HOT and pacing at this junction: it is not between step 2 of its anneal and a junction below 80 °C
(R465). -/
def HeatStage.counts (h : HeatStage) (t : Int) : Bool :=
  match h with
  | .cold => true
  | .heating => false
  | .cooling | .hot => isCool t

/-- A die whose anneal was cut short has cooled down (R465). -/
def Card.noteCool (c : Card) (x : DieTemp) : Card :=
  let n := dieNo x.hall.toNat x.die.toNat
  if (c.die n).heat = .hot ∧ isCool x.temp.toInt then c.setDie n { c.die n with heat := .cold } else c

/-- THERMAL_STAGE_CHANGE: the junctions are read; a die from step 2 of its anneal until its junction is below 80 °C does not
count for H, HOT and pacing (R251, R465, R593; EV-37). -/
def Card.thermal (c : Card) (dies : List DieTemp) (controller : Int) : Card :=
  let counts (x : DieTemp) : Bool := (c.die (dieNo x.hall.toNat x.die.toNat)).heat.counts x.temp.toInt
  let hottest := hottestOf ((dies.filter counts).map (fun x => x.temp.toInt)) c.maint.hottest
  let all := hottestOf (dies.map (fun x => x.temp.toInt)) c.maint.hottestAll
  let s := nextStage c.maint.stage hottest
  let h := decide (1 ≤ s)
  let old := c.maint.h
  let c := dies.foldl Card.noteCool c
  let c := { c with maint := { c.maint with hottest := hottest, hottestAll := all, controller := controller,
                                            stage := s, h := h } }
  if h = old then c
  else c.ev 37 ([if h then 1 else 0] ++ leBytes 2 (BitVec.ofInt 16 hottest).toNat)

/-- THERMAL_STAGE_CHANGE (R593). -/
def execThermalStageChange (die : DieTemp) (others : List DieTemp) (controller : BitVec 16) (s : State) :
    Host.Outcome State Fault Refusal :=
  run (fun c => c.thermal (die :: others) controller.toInt) s

end Sys2Proof.Machine
end

