-- ==== Sys2Proof/Machine/Link.lean ====
section
/-! DEFINITION. Training, retraining, alignment markers and the hold on C2H lane 0 (R183 to R185, R201 to R223, R606,
R607). -/

namespace Sys2Proof.Machine

open Sys2Proof

/-- All lanes in use (R220). -/
def Card.lanesInUse (c : Card) : BitVec 4 := laneMask c.link.lanes

/-- The mask and cause a WRITE's transfer ends with when a retrain or an HCLK absence ends it: what it had failed by
before then, else every lane in use and cause 0x05 (R220). Skew beyond 64 slots makes the card retrain (R218), so that its
transfers end with cause 0x05 too; no rule sends R198's cause 0x04 (log entry 75). -/
def Card.writeCut (c : Card) (w : WriteWork) : BitVec 4 × Byte :=
  match w.stage, w.xfer with
  | .data, some x => if x.failed ≠ 0 then (x.failed, x.cause.getD 0x05) else (c.lanesInUse, 0x05)
  | _, _ => (c.lanesInUse, 0x05)

/-- How a command in progress is ended by a retrain, with the Z flag its LANE-CHECK carries: a WRITE from its GO on and a
stream that has sent a segment have a transfer in progress; a READ, VERIFY or stream whose data has not started ends with
mask 0 (R220, R221, R251, R279): R221 names the READ alone, and the others follow it (log entry 107). A LAND-AFTER WRITE whose
landing has ended is not cut: R222 would have it absent from a flight that stands (log entry 34). -/
def Card.cutOf (c : Card) (k : Cmd) : Option (BitVec 4 × Byte × Bool) :=
  match k with
  | .read _ | .verify _ => some (0, 0x05, false)
  | .stream s => some (if s.sent = 0 then 0 else c.lanesInUse, 0x05, s.zeros)
  | .write w =>
    if w.discard then none
    else match w.stage with
      | .waitGo | .landed _ => none
      | _ => some ((c.writeCut w).1, (c.writeCut w).2, false)
  | _ => none

/-- The transfers a retrain ends, by ascending tag. -/
def Card.cuts (c : Card) : List OwedCheck :=
  c.outstanding.filterMap (fun t => match c.cmdOf t with
    | some k => (c.cutOf k).map (fun x => { tag := t, mask := x.1, cause := x.2.1, z := x.2.2 })
    | none => none)

/-- A WRITE leaves nothing of itself in the working view or in its flight's records (R222, R287). -/
def Card.withdraw (c : Card) (w : WriteWork) : Card :=
  let mine (x : Change) : Bool := x.ord == w.ord && w.bays.any (fun b => x.loc.isAt b.key)
  { c with
    views := { c.views with changes := c.views.changes.filter (fun x => !mine x) }.rework false
    flights := { c.flights with
      records := c.flights.records.filter (fun r => !(r.ord == w.ord && r.order == w.order)) } }

/-- The landing a LAND-AFTER WRITE executed lands nothing (R296): it fails, and a LANDING bay already issued is to be
named as voided (R382; log entry 34). -/
def Card.cutLanding (c : Card) (t : Tag) : Card :=
  match c.flights.acts.find? (fun a => a.src == .landAfter t) with
  | some a => c.failLanding { a with src := .sync 0, failed := a.failed || (match a.stage with | .issued _ => true | _ => false) }
  | none => c

/-- What a cut WRITE leaves: its bays land with no flight, nothing of itself in the view, and no landing (R222, R287,
R296). -/
def Card.cutWrite (c : Card) (t : Tag) (k : Option Cmd) : Card :=
  match k with
  | some (.write w) => let c := c.disown w; if w.applied then (c.withdraw w).cutLanding t else c
  | _ => c

/-- End a transfer with LANE-CHECK now (R220). -/
def Card.cutNow (c : Card) (x : OwedCheck) : Card :=
  let k := c.cmdOf x.tag
  (c.finish x.tag stLaneCheck (laneCheckInfo x.mask x.cause.toNat) x.z).cutWrite x.tag k

/-- What an outstanding command is from its cut on: a WRITE's sectors and its order stay known while its LANE-CHECK is owed
(R289, R315). -/
def Cmd.afterCut : Cmd → Cmd
  | .write w => .cut w
  | _ => .timed

/-- End a transfer after an HCLK absence: its LANE-CHECK is owed until the host has retrained the link, and its tag
stays outstanding with nothing left to do (R38, R220). -/
def Card.cutLater (c : Card) (x : OwedCheck) : Card :=
  let k := c.cmdOf x.tag
  let c := ((c.setCmd x.tag ((k.map Cmd.afterCut).getD .timed)).dropWork x.tag).cutWrite x.tag k
  { c with link := { c.link with owed := c.link.owed ++ [x] } }

/-- A retrain begins (R217, R218, R220 to R222; EV-10, BC-81). -/
def Card.beginRetrain (c : Card) (cause : Byte) (lanes : BitVec 4) (request : Bool) : Card :=
  let c := (c.bump 81 1).ev 10 [cause, lanes.setWidth 8]
  let xs := c.cuts
  (xs.foldl Card.cutNow (c.enterTraining request)).stepActs

/-- The card has ended LOADING: the hold ends, the resync pattern on C2H lane 0, then training frames (R136, R215;
EV-11). -/
def Card.firstTraining (c : Card) : Card :=
  let c : Card := { c with link := { c.link with hold := false } }
  ((c.send .resync).ev 11 [0x00]).enterTraining false

/-- Training frames on the H2C lanes are taken: the host still sends them, from the link's going down to its first marker,
HCLK runs and C2H lane 0 is not held low (R203, R207, R216). -/
def Card.trainable (c : Card) : Bool :=
  (match c.link.mode with
    | .training | .accepted _ => true
    | _ => false) && !c.link.hold && c.power.hclk

/-- A request from H2C lane 0 with a sequence other than the last one acted on; `body` says what it does and whether it
is accepted (R203, R607). Before any request has been acted on, every sequence differs (log entry 73). -/
def Card.request (c : Card) (seq : BitVec 4) (body : Card → Card × Bool) : Card :=
  if c.trainable ∧ c.link.reqSeq ≠ some seq then
    let (c, ok) := body c
    { c with link := { c.link with reqSeq := some seq, reqResult := if ok then .accepted else .refused } }
  else c

/-- TRAINING_HOLD: accepted; nothing changes (R607). -/
def execTrainingHold (seq : BitVec 4) (s : State) : Host.Outcome State Fault Refusal :=
  run (fun c => c.request seq (fun c => (c, true))) s

/-- A C2H lane's preset (R202). -/
def Link.preset (l : Link) (lane : BitVec 2) : BitVec 3 :=
  match lane.toNat with
  | 0 => l.preset0
  | 1 => l.preset1
  | 2 => l.preset2
  | _ => l.preset3

/-- Set a C2H lane's preset. -/
def Link.setPreset (l : Link) (lane : BitVec 2) (p : BitVec 3) : Link :=
  match lane.toNat with
  | 0 => { l with preset0 := p }
  | 1 => { l with preset1 := p }
  | 2 => { l with preset2 := p }
  | _ => { l with preset3 := p }

/-- SET_PRESET: refused for a lane at or above the cap (R205, R607). -/
def execSetPreset (seq : BitVec 4) (lane : BitVec 2) (preset : BitVec 3) (s : State) : Host.Outcome State Fault Refusal :=
  run (fun c => c.request seq (fun c =>
    if lane.toNat < c.laneCap then ({ c with link := c.link.setPreset lane preset }, true) else (c, false))) s

/-- The lane count a READY may bring up: 1, 2 or 4, within the cap, every H2C lane below it trained (R206). -/
def Card.readyCount (c : Card) (laneCode : BitVec 3) : Option Nat :=
  match laneCount laneCode with
  | some n => if n ≤ c.laneCap ∧ laneMask n &&& ~~~c.link.trained = 0 then some n else none
  | none => none

/-- A READY with lane count `n` is accepted: training frames, then a marker on lanes 0 to n - 1 (R207, R223; EV-09). -/
def Card.goReady (c : Card) (n : Nat) : Card :=
  let l := c.link
  let c := c.ev 9 ([BitVec.ofNat 8 n] ++ [l.preset0, l.preset1, l.preset2, l.preset3].map (fun p => p.setWidth 8))
  let c : Card := { c with link := { l with mode := .accepted n, lanes := n, retrainReq := false, txMarker := 1 } }
  (c.send (.training c.laneCap false)).send (.marker n 0)

/-- READY (R206, R207). -/
def execReady (seq : BitVec 4) (laneCode : BitVec 3) (s : State) : Host.Outcome State Fault Refusal :=
  run (fun c => c.request seq (fun c => match c.readyCount laneCode with
    | some n => (c.goReady n, true)
    | none => (c, false))) s

/-- RESERVED_TRAINING_REQUEST: refused where the code is reserved; 0x0 to 0x2 are requests of their own (R607). -/
def execReservedTrainingRequest (seq code : BitVec 4) (s : State) : Host.Outcome State Fault Refusal :=
  run (fun c => if code.toNat < 3 then c else c.request seq (fun c => (c, false))) s

/-- A lane reports its receiver margin, at least 1 (R606). -/
def Card.setMargin (c : Card) (lane : BitVec 2) (margin : Byte) : Card :=
  { c with link := { c.link with
      margins := KV.put c.link.margins lane.toNat (if margin = 0 then 1 else margin) } }

/-- LANE_TRAINED: the lane counts as trained and reports its margin (R204, R606). -/
def Card.laneTrained (c : Card) (lane : BitVec 2) (margin : Byte) : Card :=
  if c.trainable then
    let c := c.setMargin lane margin
    { c with link := { c.link with trained := c.link.trained ||| (1#4 <<< lane.toNat) } }
  else c

/-- LANE_TRAINED (R204). -/
def execLaneTrained (lane : BitVec 2) (margin : Byte) (s : State) : Host.Outcome State Fault Refusal :=
  run (fun c => c.laneTrained lane margin) s

/-- The LANE-CHECKs owed since an HCLK absence are sent, and the STOPs of the streams they end are answered; a landing that
waited for them goes on (R38, R220, R277, R379). -/
def Card.payOwed (c : Card) : Card :=
  let xs := c.link.owed
  let c : Card := { c with link := { c.link with owed := [] } }
  (xs.foldl (fun c x => c.finish x.tag stLaneCheck (laneCheckInfo x.mask x.cause.toNat) x.z) c).answerStops.stepActs

/-- FIRST_H2C_MARKER: lane-frames are received from here on; LINK-TRAINING ends (R207, R210). -/
def Card.firstMarker (c : Card) : Card :=
  match c.link.mode with
  | .accepted _ =>
    if c.power.hclk then
      let c : Card := { c with link := { c.link with mode := .up, hostTrains := false } }
      let c := if c.phase = .linkTraining then c.enter .readyUnmounted else c
      c.payOwed
    else c
  | _ => c

/-- FIRST_H2C_MARKER (R210). -/
def execFirstH2cMarker (s : State) : Host.Outcome State Fault Refusal := run Card.firstMarker s

/-- H2C_MARKER_TIMEOUT: back to training frames with retrain requested (R209). The card enters training thereby, so that
it reports no result until it acts on a request (R607; log entry 74). -/
def Card.markerTimeout (c : Card) : Card :=
  match c.link.mode with
  | .accepted _ =>
    if c.power.hclk then
      ({ c with link := { c.link with mode := .training, reqResult := .none, retrainReq := true } }).send
        (.training c.laneCap true)
    else c
  | _ => c

/-- H2C_MARKER_TIMEOUT (R209). -/
def execH2cMarkerTimeout (s : State) : Host.Outcome State Fault Refusal := run Card.markerTimeout s

/-- Training frames sent while C2H lane 0 is held low wait for the hold's end, when the retrain begins (R216). -/
def Card.holdRetrain (c : Card) (cause : Byte) (lanes : BitVec 4) (request : Bool) : Card :=
  { c with link := { c.link with hostTrains := true, retrainReq := c.link.retrainReq || request
                                 holdCause := c.link.holdCause.or (some (cause, lanes)) } }

/-- HOST_RETRAIN: training frames on H2C lane 0 of a trained link; ignored while C2H lane 0 is held low (R216, R217). -/
def Card.hostRetrain (c : Card) : Card :=
  if c.linkUp ∧ c.power.hclk then
    if c.link.hold then c.holdRetrain 0x01 0 false
    else c.beginRetrain 0x01 0 false
  else c

/-- HOST_RETRAIN (R217). -/
def execHostRetrain (s : State) : Host.Outcome State Fault Refusal := run Card.hostRetrain s

/-- The EV-10 code of a cause. -/
def retrainCode (k : RetrainCause) : Byte :=
  match k with
  | .markers => 0x02
  | .codewords => 0x03
  | .skew => 0x04

/-- How far two lanes' markers of one count lie apart, in codeword slots; 0 for markers of different counts (R185). -/
def slotsApart (a b : BitVec 16 × BitVec 32) : Nat :=
  if a.1 = b.1 then min (a.2 - b.2).toNat (b.2 - a.2).toNat else 0

/-- The lanes in use of which `p` holds, as a mask. -/
def Card.lanesWith (c : Card) (p : Nat → Bool) : BitVec 4 :=
  (List.range c.link.lanes).foldl (fun m k => if p k then m ||| (1#4 <<< k) else m) 0

/-- The lanes whose last marker lies more than 64 slots from another lane's of the same count (R185, R218). -/
def Card.skewedLanes (c : Card) : BitVec 4 :=
  c.lanesWith (fun k => match KV.find c.link.rxMarkers k with
    | some a => (List.range c.link.lanes).any (fun j => match KV.find c.link.rxMarkers j with
      | some b => decide (64 < slotsApart a b)
      | none => false)
    | none => false)

/-- The lanes for which a condition of R218 holds: the codewords and the skew as the card has counted them; missing
markers, which only time shows, as the event reports them. -/
def Card.retrainLanes (c : Card) (k : RetrainCause) (lanes : BitVec 4) : BitVec 4 :=
  match k with
  | .markers => lanes &&& c.lanesInUse
  | .codewords => c.lanesWith (fun i => decide (32 ≤ KV.getD c.link.badWords i 0))
  | .skew => c.skewedLanes

/-- CARD_RETRAIN_REQUEST: one of R218's conditions holds (R218, R219). While C2H lane 0 is held low the training frames
wait for the hold's end. -/
def Card.cardRetrain (c : Card) (k : RetrainCause) (lanes : BitVec 4) : Card :=
  let l := c.retrainLanes k lanes
  if c.linkUp ∧ c.power.hclk ∧ l ≠ 0 then
    if c.link.hold then c.holdRetrain (retrainCode k) l true
    else c.beginRetrain (retrainCode k) l true
  else c

/-- CARD_RETRAIN_REQUEST (R218). -/
def execCardRetrainRequest (cause : RetrainCause) (lanes : BitVec 4) (s : State) : Host.Outcome State Fault Refusal :=
  run (fun c => c.cardRetrain cause lanes) s

/-- The card sends lane-frames: from its own marker after READY on (R207). -/
def Card.sendsFrames (c : Card) : Bool :=
  c.power.hclk && (match c.link.mode with
    | .accepted _ | .up => true
    | _ => false)

/-- MARKER_SEND: a marker with the next count on every lane in use; the count wraps (R183, R184). -/
def Card.markerSend (c : Card) : Card :=
  if c.sendsFrames then
    ({ c with link := { c.link with txMarker := c.link.txMarker + 1 } }).send (.marker c.link.lanes c.link.txMarker)
  else c

/-- MARKER_SEND (R183). -/
def execMarkerSend (s : State) : Host.Outcome State Fault Refusal := run Card.markerSend s

/-- MARKER_RECEIVED: the lane's marker count and the slot it arrived in, by which the lanes are deskewed, and its
margin, updated every marker interval; the interval's count of uncorrectable codewords starts anew (R181, R185, R218,
R606). -/
def Card.markerReceived (c : Card) (lane : BitVec 2) (count : BitVec 16) (slot : BitVec 32) (margin : Byte) : Card :=
  if c.laneOpen lane then
    let c := c.setMargin lane margin
    { c with link := { c.link with rxMarkers := KV.put c.link.rxMarkers lane.toNat (count, slot)
                                   badWords := KV.drop c.link.badWords lane.toNat } }
  else c

/-- MARKER_RECEIVED (R185). -/
def execMarkerReceived (lane : BitVec 2) (mark : SeenMarker) (margin : Byte) (s : State) :
    Host.Outcome State Fault Refusal :=
  run (fun c => c.markerReceived lane mark.count mark.slot margin) s

/-- HOLD_BEGIN: C2H lane 0 is held low from a slot boundary on, for an activity that holds it (R136, R211, R212; EV-11). A
link that is training then trains once the hold ends (R216). -/
def Card.holdBegin (c : Card) : Card :=
  if c.link.holdDue ∧ c.holds ∧ !c.link.hold ∧ c.link.mode ≠ .down ∧ c.power.hclk then
    c.startHold (c.link.hostTrains || c.link.mode != .up)
  else c

/-- HOLD_BEGIN (R212). -/
def execHoldBegin (s : State) : Host.Outcome State Fault Refusal := run Card.holdBegin s

end Sys2Proof.Machine
end

