-- ==== Sys2Proof/Machine/Power.lean ====
section
/-! DEFINITION. Presence, supply, HCLK, dock presence, strap reads and the ROM loader (R10, R33 to R40, R54 to R64, R76
to R82, R97 to R135, R136 to R148, R549 to R552, R602). -/

namespace Sys2Proof.Machine

open Sys2Proof

/-- Set the power group. -/
def Card.setPower (c : Card) (p : Power) : Card := { c with power := p }

/-- PDC_MATE: PDC reads low and its 2 ms count starts (R59). -/
def execPdcMate (s : State) : Host.Outcome State Fault Refusal :=
  run (fun c => c.setPower { c.power with pdcLow := true }) s

/-- SOFT_START_BEGIN: PDC has been low for 2 ms; not after a final break nor before VM is back (R59, R64, R76, R79). -/
def Card.softStartBegin (c : Card) : Card :=
  if c.phase = .absent ∧ c.power.pdcLow ∧ !c.power.broken ∧ !c.power.vmLow then
    c.setPower { c.power with softStarting := true }
  else c

/-- SOFT_START_BEGIN (R76). -/
def execSoftStartBegin (s : State) : Host.Outcome State Fault Refusal := run Card.softStartBegin s

/-- The positions whose program runs on a die. -/
def Card.runningPrograms (c : Card) : List Nat :=
  c.halls.dies.filterMap (fun x => match x.2.op with
    | some (.program k) => some k
    | _ => none)

/-- Programs that were running when the power went have run to completion (R24, R78). -/
def Card.drainPrograms (c : Card) : Card :=
  c.runningPrograms.foldl (fun c k => match KV.find c.media.vest k with
    | some b => c.writeCell k (.bay b)
    | none => c) c

/-- Dies whose anneal was cut short and whose junction has not been read below 80 °C since: nothing else of a die outlasts the
power (R465; log entry 111). -/
def hotDies (l : KV Die) : KV Die :=
  (l.filter (fun x => x.2.heat == .hot)).map (fun x => (x.1, { Die.idle with heat := .hot }))

/-- What a power-up starts from: flash, the alcove device, the junctions and the pins; nothing of DRAM (R79, R251, R341, R572,
R585, R593). -/
def Card.afresh (c : Card) : Card :=
  let stage := nextStage 0 c.maint.hottest
  { Card.reset with
    power := { c.power with softStarting := false, hclkTripped := false, strapSources := true, dock := false, lnd := false }
    media := { Card.reset.media with cells := c.media.cells }
    halls := { Card.reset.halls with dies := hotDies c.halls.dies }
    maint := { Card.reset.maint with hottest := c.maint.hottest, hottestAll := c.maint.hottestAll,
                                     controller := c.maint.controller, stage := stage, h := decide (1 ≤ stage) }
    alcove := { c.alcove with inUse := none, seqInUse := 0, version := 0, chip := [], trying := none, ops := [], conf := none,
                              service := none }
    out := c.out
    freeCount := c.freeCount }

/-- With HCLK, a POWERED-UNCLOCKED card holds C2H lane 0 low (R136, R211). -/
def Card.holdUnclocked (c : Card) : Card :=
  if c.phase = .poweredUnclocked ∧ c.power.hclk ∧ !c.link.hold then c.startHold false else c

/-- SOFT_START_END: strap sources on, tread counter 0, counters 0, POWERED-UNCLOCKED (R99, R136, R139, R341, R585). -/
def Card.softStartEnd (c : Card) : Card :=
  if c.phase = .absent ∧ c.power.softStarting then (c.drainPrograms.afresh.enter .poweredUnclocked).holdUnclocked
  else c

/-- SOFT_START_END (R99). -/
def execSoftStartEnd (s : State) : Host.Outcome State Fault Refusal := run Card.softStartEnd s

/-- POWER_UP_STRAP_READ: the power-up strap read starts (R110, R601). -/
def Card.startPowerRead (c : Card) : Card :=
  if c.phase = .poweredUnclocked ∧ c.power.hclk ∧ c.power.strapSources ∧ c.straps.reading.isNone then
    let r : StrapReading := { kind := .powerUp, pass := 0, todo := allStraps, got := .unread }
    { c with straps := { c.straps with reading := some r } }
  else c

/-- POWER_UP_STRAP_READ (R110). -/
def execPowerUpStrapRead (s : State) : Host.Outcome State Fault Refusal := run Card.startPowerRead s

/-- The level a strap voltage in tenths of a millivolt decodes as; on a threshold the higher level (R108). -/
def strapLevel (v : Nat) : BitVec 4 :=
  if v < 200 then 0 else if v < 490 then 1 else if v < 728 then 2 else if v < 1057 then 3 else if v < 1495 then 4
  else if v < 2067 then 5 else if v < 2824 then 6 else if v < 3811 then 7 else if v < 5087 then 8
  else if v < 6790 then 9 else if v < 9047 then 10 else if v < 12055 then 11 else if v < 16073 then 12
  else if v < 21437 then 13 else if v < 27000 then 14 else 15

/-- The voltage page 5 reports for a contact's conversions: their common value in whole millivolts, else a value the
spec leaves open (R116; log entry 14). -/
def strapVolts (cs : List Nat) : Nat :=
  match cs with
  | v :: r => if r.all (fun x => x == v) ∧ v % 10 = 0 then v / 10 else Config.strapMillivolts cs
  | [] => Config.strapMillivolts []

/-- What one pass tells of a contact: its level where its eight conversions decode alike (R601). -/
def strapDecode (cs : List Nat) : Option (BitVec 4) :=
  match cs with
  | v :: r => if r.length = 7 ∧ r.all (fun x => strapLevel x == strapLevel v) then some (strapLevel v) else none
  | [] => none

/-- One contact of a pass. -/
def passOf (p : StrapPass) (i : StrapId) : List Nat :=
  match i with
  | .prf => p.prf | .wpw => p.wpw | .adh => p.adh | .adm => p.adm | .adl => p.adl | .twn => p.twn | .lns => p.lns

/-- A pass over one contact: stable, or after the third repeat level 15 and unstable, or still to be read (R113). -/
def passContact (p : StrapPass) (r : StrapReading) (i : StrapId) : StrapReading :=
  let cs := passOf p i
  match strapDecode cs with
  | some l => { r with got := r.got.put i { level := l, mv := strapVolts cs, unstable := false },
                       todo := r.todo.filter (fun x => x != i) }
  | none =>
    if r.pass < 3 then r
    else { r with got := r.got.put i { level := 15, mv := strapVolts cs, unstable := true },
                  todo := r.todo.filter (fun x => x != i) }

/-- The mask of unstable straps, PRF at bit 0 (EV-08). -/
def unstableMask (s : StrapSet) : Nat :=
  (allStraps.zipIdx).foldl (fun m x => if (s.get x.1).unstable then m + 2 ^ x.2 else m) 0

/-- An address strap was unstable (R113). -/
def addrUnstable (s : StrapSet) : Bool := s.adh.unstable || s.adm.unstable || s.adl.unstable

/-- The slot address of latched levels (R113, R126). -/
def slotOf (s : StrapSet) : BitVec 12 :=
  if addrUnstable s then 0xFFF
  else BitVec.ofNat 12 (s.adh.level.toNat * 256 + s.adm.level.toNat * 16 + s.adl.level.toNat)

/-- The group: slot address [11:8] (R127). -/
def groupOf (s : StrapSet) : BitVec 4 := BitVec.ofNat 4 ((slotOf s).toNat / 256)

/-- The role TWN asks for (R131). -/
def roleOf (l : BitVec 4) : Role :=
  if l = 1 then .twinA else if l = 2 then .twinB else .solo

/-- Latch a read; the event of its end (R115, R116; EV-08). A FORMAT read reports every contact, and nothing but PRF takes
effect from it (R112, R117, R601). -/
def Card.latch (c : Card) (k : ReadKind) (v : StrapSet) : Card :=
  let st := c.straps
  let st : Straps := match k with
    | .format => { st with vals := v, lastRead := some k, reading := none }
    | _ => { st with vals := v, lastRead := some k, reading := none, slot := slotOf v, group := groupOf v,
                     twn := v.twn.level, lns := v.lns.level }
  ({ c with straps := st }).ev 8 ([BitVec.ofNat 8 k.code] ++ leBytes 2 st.slot.toNat ++
    [BitVec.ofNat 8 (unstableMask v)])

/-- After the power-up read of a POWERED-UNCLOCKED card the loader starts with the first alcove (R139, R549). -/
def Card.startLoading (c : Card) : Card :=
  if c.phase ≠ .poweredUnclocked then c
  else ({ c with alcove := { c.alcove with trying := some (c.alcove.first, false) } }).enter .loading

/-- After a MOUNT read: the slot for the mount, the twin role, the protection map; the partner last heard is still the one to
compare with (R117, R123, R129, R133, R535, R537). DPRES is looked at as the read's last pass ends (log entry 83). -/
def Card.takeMountRead (c : Card) : Card :=
  let want := roleOf c.straps.twn
  let role := if c.power.dock then want else .solo
  let st : Straps := { c.straps with mountSlot := c.straps.slot, role := role, roleRefused := want != role }
  let tw : Twin := { c.twin with pair := if role = .solo then 0 else 2, linkUp := false, fresh := role != .solo, heard := [],
                                 burst := none, replayDue := role != .solo, waits := [], lastCompared := 0,
                                 firstDiverged := 0 }
  let c : Card := { c with straps := st, twin := tw }
  { c with views := { c.views with prot := c.protNow } }

/-- A strap read has ended. -/
def Card.endRead (c : Card) (k : ReadKind) (v : StrapSet) : Card :=
  let c := c.latch k v
  match k with
  | .powerUp => c.startLoading
  | .mount => c.takeMountRead
  | .format => match c.alcove.service with
    | some (t, .formatRead) => c.formatGo t
    | _ => c

/-- STRAP_READ_PASS_END (R113, R601). -/
def Card.strapPass (c : Card) (p : StrapPass) : Card :=
  match c.straps.reading with
  | some r =>
    if c.power.hclk then
      let r := r.todo.foldl (passContact p) r
      if r.todo.isEmpty then c.endRead r.kind r.got
      else { c with straps := { c.straps with reading := some { r with pass := r.pass + 1 } } }
    else c
  | none => c

/-- STRAP_READ_PASS_END (R601). -/
def execStrapReadPassEnd (p : StrapPass) (s : State) : Host.Outcome State Fault Refusal :=
  run (fun c => c.strapPass p) s

/-- No alcove or no record could be loaded: FAULT, under the ROM loader (R139, R141, R549, R602). -/
def Card.loadFault (c : Card) : Card := (c.enter .fault).firstTraining

/-- The microcode and the media tables of an alcove, as LOADING copies them on chip (R542, R545, R546). -/
def Mem.sections (m : Mem) : Mem :=
  m.filter (fun x => decide ((0x10000 ≤ x.1 ∧ x.1 < 0x10000 + m.field 20 4) ∨ (0x410000 ≤ x.1 ∧ x.1 < 0x410000 + m.field 28 4)))

/-- ALCOVE_COPY_COMPLETE (R542, R549, R551, R602). -/
def Card.copyComplete (c : Card) : Card :=
  if c.phase = .loading ∧ c.power.hclk then
    match c.alcove.trying with
    | some (i, second) =>
      let m := c.alcove.mem i
      let conf := c.alcove.loadConf
      if m.loadable then
        if conf.isSome then
          let a : Alcove := { c.alcove with inUse := some i, seqInUse := BitVec.ofNat 32 (m.field 8 4),
                                            version := BitVec.ofNat 32 (m.field 40 4), chip := m.sections, trying := none,
                                            conf := conf }
          (({ c with alcove := a }).enter .linkTraining).firstTraining
        else ({ c with alcove := { c.alcove with trying := none } }).loadFault
      else if second then ({ c with alcove := { c.alcove with trying := none, conf := conf } }).loadFault
      else { c with alcove := { c.alcove with trying := some (i.other, true) } }
    | none => c
  else c

/-- ALCOVE_COPY_COMPLETE (R549). -/
def execAlcoveCopyComplete (s : State) : Host.Outcome State Fault Refusal := run Card.copyComplete s

/-- The operation on the alcove device that a power loss cuts short (R11, R552, R567). -/
def Card.cutAlcove (c : Card) : Card :=
  match c.alcove.ops with
  | o :: _ => c.cutOp o
  | [] => c

/-- Every die's erase is reset and its heater off, the die still hot; programs run on, reads are forgotten (R10, R24, R63, R464,
R465). What the pages
of a block hold whose erase is so reset the spec does not say: they stay as they were (log entry 82). -/
def Die.cut (d : Die) : Die :=
  { op := match d.op with
      | some (.program k) => some (.program k)
      | _ => none
    erase := none, hangs := 0, fenced := false, heat := if d.heat = .cold then .cold else .hot, late := none }

/-- What a die had finished before the power went, and the card had not yet seen, stands on the media (R24; log entry
86). -/
def Card.keepLate (c : Card) (n : Nat) : Card :=
  match (c.die n).late, (c.die n).erase with
  | some (.prog r), _ => c.programDark n r
  | some (.erase true), some e => c.eraseHall e.wing (n / 16)
  | _, _ => c

/-- A PROGRAM of a page that is not its block's next is not executed: its die is idle (R436). -/
def Card.dropWrong (c : Card) : Card :=
  c.halls.dies.foldl (fun c x => match x.2.op with
    | some (.program k) => if (c.pageCode k).isSome then c.freeDie x.1 else c
    | _ => c) c

/-- The actions of R10 and R62, and everything DRAM held lost: ABSENT. -/
def Card.powerLoss (c : Card) : Card :=
  let c := ((c.halls.dies.map Prod.fst).foldl Card.keepLate c.dropWrong).cutAlcove.dropMap
  let c := c.enter .absent
  let p : Power := { c.power with softStarting := false, hclkTripped := false, strapSources := false, dock := false,
                                  lnd := false }
  { c with
    power := p
    straps := { c.straps with reading := none, role := .solo, roleRefused := false }
    link := Card.reset.link
    ports := Card.reset.ports
    flights := Card.reset.flights
    halls := { Card.reset.halls with dies := c.halls.dies.map (fun x => (x.1, x.2.cut)) }
    maint := { c.maint with anneals := [], pass := [], running := [], held := [] }
    losses := Card.reset.losses
    twin := Card.reset.twin
    treads := { c.treads with taking := none }
    alcove := { c.alcove with inUse := none, seqInUse := 0, version := 0, chip := [], trying := none, ops := [], conf := none,
                              service := none }
    bal := { c.bal with queue := [], slot := none } }

/-- The card has power: soft start runs or has ended. -/
def Card.powered (c : Card) : Bool := c.phase != .absent || c.power.softStarting

/-- PDC_BREAK: final for the insertion where the card has power; otherwise the 2 ms count is off (R59 to R64). -/
def Card.pdcBreak (c : Card) : Card :=
  let fin := c.powered
  let c := if c.phase = .absent then c else c.powerLoss
  c.setPower { c.power with pdcLow := false, softStarting := false, vmLow := false, broken := c.power.broken || fin }

/-- PDC_BREAK (R60, R61). -/
def execPdcBreak (s : State) : Host.Outcome State Fault Refusal := run Card.pdcBreak s

/-- VM_UNDERVOLTAGE_TRIP: as at a PDC break; with PDC mated, VM must then be back for 10 ms (R77 to R79). VM has been
removed, so a final break is over (R64). -/
def Card.vmTrip (c : Card) : Card :=
  let c := if c.phase = .absent then c else c.powerLoss
  c.setPower { c.power with softStarting := false, broken := false, vmLow := c.power.pdcLow }

/-- VM_UNDERVOLTAGE_TRIP (R77). -/
def execVmUndervoltageTrip (s : State) : Host.Outcome State Fault Refusal := run Card.vmTrip s

/-- VM_RESTORED: 10 ms at 11.0 V or more with PDC still mated, and a full power-up begins (R79). -/
def Card.vmRestored (c : Card) : Card :=
  if c.power.vmLow then
    c.setPower { c.power with vmLow := false, softStarting := c.power.pdcLow && !c.power.broken }
  else c

/-- VM_RESTORED (R79). -/
def execVmRestored (s : State) : Host.Outcome State Fault Refusal := run Card.vmRestored s

/-- HCLK_STOP: nothing the card counts goes on, and LND stays as it was (R15, R33, R82, R97). In POWERED-UNCLOCKED C2H
lane 0 goes to electrical idle (R136). -/
def Card.hclkStop (c : Card) : Card :=
  let c := c.setPower { c.power with hclk := false }
  if c.phase = .poweredUnclocked then { c with link := { c.link with hold := false } } else c

/-- HCLK_STOP (R33). -/
def execHclkStop (s : State) : Host.Outcome State Fault Refusal := run Card.hclkStop s

/-- A die once DRAM is lost: programs and running erases finish within it, and what it has finished of them is still to be
taken (log entry 86); a suspended erase is forgotten. -/
def Die.forget (d : Die) : Die :=
  let op : Option Desc := match d.op with
    | some (.program k) => some (.program k)
    | _ => none
  let erase : Option DieErase := match d.erase with
    | some e => if e.stage = .running then some e else none
    | none => none
  { d with
    op := op, erase := erase
    late := match d.late with
      | some (.prog r) => if op.isSome then some (.prog r) else none
      | some (.erase ok) => if erase.isSome then some (.erase ok) else none
      | _ => none }

/-- What an absence of more than 33 ms costs a MOUNTED or MOUNTING card: map, tag table and open flight, with no final
response (R35, R139). Of a MOUNT read cut short nothing is latched (log entry 84). -/
def Card.loseMap (c : Card) : Card :=
  let c := c.dropMap
  let c : Card := { c with
    ports := { c.ports with tags := [] }
    link := { c.link with owed := [], holdDue := false }
    straps := { c.straps with reading := none }
    halls := { c.halls with dies := c.halls.dies.map (fun x => (x.1, x.2.forget)) } }
  c.enter .readyUnmounted

/-- HCLK_ABSENCE_DETECTOR_TRIP: LND too is released only here (R35, R36, R97, R464). -/
def Card.absenceTrip (c : Card) : Card :=
  if c.phase = .absent ∨ c.power.hclk ∨ c.power.hclkTripped then c
  else
    let c := c.setPower { c.power with hclkTripped := true, lnd := false }
    let c := c.cutAnneals
    if c.phase = .mounted ∨ c.phase = .mounting then c.loseMap else c

/-- HCLK_ABSENCE_DETECTOR_TRIP (R35). -/
def execHclkAbsenceDetectorTrip (s : State) : Host.Outcome State Fault Refusal := run Card.absenceTrip s

/-- The link after an absence: it is retrained, and every transfer that was in progress is owed its LANE-CHECK (R38,
R220; EV-10, BC-81). The first training only resumes. -/
def Card.returnLink (c : Card) : Card :=
  if c.link.mode = .down then c
  else if c.phase = .linkTraining then c.enterTraining false
  else
    let c := if c.link.mode = .training then c else (c.bump 81 1).ev 10 [0x05, 0]
    let xs := c.cuts
    let c := if c.link.hold then { c with link := { c.link with hostTrains := true, holdCause := none } }
      else c.enterTraining false
    let c := (xs.foldl Card.cutLater c).stepActs
    if c.link.hold ∧ !c.holds then c.endHold else c

/-- HCLK_RETURN: what the dies finished meanwhile is taken after the transfers are cut (R15, R34, R38, R582). -/
def Card.hclkReturn (c : Card) : Card :=
  if c.power.hclk then c
  else
    let c := c.setPower { c.power with hclk := true, hclkTripped := false }
    if c.phase = .absent then c
    else
      let c : Card := { c with bal := { c.bal with slot := none, startDue := c.power.dock } }
      c.driveLnd.returnLink.holdUnclocked.takeAllLate

/-- HCLK_RETURN (R38). -/
def execHclkReturn (s : State) : Host.Outcome State Fault Refusal := run Card.hclkReturn s

/-- DPRES_QUALIFIED: the dock port, the twin link and the Balcony become present (R54, R55, R582). -/
def Card.dockOn (c : Card) : Card :=
  if c.phase ≠ .absent ∧ c.power.hclk ∧ !c.power.dock then
    { c with power := { c.power with dock := true }, bal := { c.bal with slot := none, startDue := true } }
  else c

/-- DPRES_QUALIFIED (R55). -/
def execDpresQualified (s : State) : Host.Outcome State Fault Refusal := run Card.dockOn s

/-- DPRES_OPEN: they become absent, and the trace queue is emptied (R54, R55, R583). -/
def Card.dockOff (c : Card) : Card :=
  { c with power := { c.power with dock := false }, bal := { c.bal with queue := [], slot := none, startDue := false } }

/-- DPRES_OPEN (R55). -/
def execDpresOpen (s : State) : Host.Outcome State Fault Refusal := run Card.dockOff s

end Sys2Proof.Machine
end

