-- ==== Sys2Proof/Machine/Scan.lean ====
section
/-! DEFINITION. The full mount scan: how each wing is decided, which bays are found, the map by the resolution rule, the
losses, the last landing (R152 to R155, R371, R372, R376, R415, R420 to R426, R458, R478, R503, R506). -/

namespace Sys2Proof.Machine

open Sys2Proof

/-- The bay at a position whose metadata the scan can read, directly or by the ladder, and whose position field names that
position (R417). -/
def Card.readable (c : Card) (r : ScanReport) (k : Nat) : Option Bay :=
  match c.cellAt k with
  | some (.bay b) => if r.noMeta.contains k || b.key != k then none else some b
  | _ => none

/-- A position reads as erased. -/
def Card.readsErased (c : Card) (k : Nat) : Bool := (c.cellAt k).isNone

/-- The positions of a wing that hold anything, ascending. -/
def Card.wingKeys (c : Card) (w : Nat) : List Nat :=
  (c.media.cells.filter (fun x => keyWing x.1 == w)).map Prod.fst

/-- The bays of a wing whose metadata can be read. -/
def Card.readableOf (c : Card) (r : ScanReport) (w : Nat) : List Bay := (c.wingKeys w).filterMap (c.readable r)

/-- The SUMMARY bay of a wing, in gallery 383, where it decodes (R152, R407). -/
def Card.summaryOf (c : Card) (r : ScanReport) (w : Nat) : Option Bay :=
  allHalls.findSome? (fun h => (c.readable r (posKey w 383 h)).bind (fun b =>
    if b.kind = .summary ∧ !r.lost.contains b.key then some b else none))

/-- What the scan decides of a wing (R152). -/
inductive WingScan where
  | free
  /-- closed, its bays taken from this summary bay -/
  | summarised (s : Bay)
  /-- page-scanned and closed: its summary position is neither erased nor decodable -/
  | paged
  /-- page-scanned and open -/
  | opened
  /-- not erased, no valid bay, queued for erase; whether its summary was unreadable -/
  | queued (unreadable : Bool)
  deriving DecidableEq, Repr

/-- The decision of R152 for one wing. -/
def Card.scanWing (c : Card) (r : ScanReport) (w : Nat) : WingScan :=
  match c.summaryOf r w with
  | some s => .summarised s
  | none =>
    let any := !(c.readableOf r w).isEmpty
    let gone := c.readsErased (posKey w 383 (summaryHall (c.missingOf w)))
    let g0 := (allHalls.filter (fun h => !(c.missingOf w).contains h)).all (fun h => c.readsErased (posKey w 0 h))
    if gone then (if g0 then .free else if any then .opened else .queued false)
    else if any then .paged else .queued true

/-- The wings that hold anything, ascending. -/
def Card.touched (c : Card) : List Nat := (c.media.cells.map (fun x => keyWing x.1)).dedup

/-- Retirements of blocks with the sequence counter then, by the wing that held the block: those of the ledger as the card holds
it (R478, R542, R556). -/
def Card.retirements (c : Card) : List (Nat × Nat × Nat) :=
  match c.alcove.conf with
  | none => []
  | some f =>
    let es := (f.ledger.filterMap Prod.snd).filter (fun e => decide (f.record.epoch ≤ e.epoch) && e.cause != .protection)
    let f0 : Conf := { f with table := f.record.table }
    (es.foldl (fun (x : Conf × List (Nat × Nat × Nat)) e =>
      let w := ({ c with alcove := { c.alcove with conf := some x.1 } }).wingOfBlock e.hall e.die e.block
      (x.1.applyEntry e, match w with
        | some w => x.2 ++ [(w, e.hall, e.seq)]
        | none => x.2)) (f0, [])).2

/-- A wing still served by a retired block: pages of its other halls carry sequences below the retirement's counter
(R478). -/
def Card.stillRetired (c : Card) (r : ScanReport) (w : Nat) : Bool :=
  c.retirements.any (fun x => x.1 == w &&
    (c.readableOf r w).any (fun b => keyHall b.key != x.2.1 && decide (b.seq < x.2.2)))

/-- The hall of a retirement holds only pages older than it, and no other hall holds any page: the wing has been erased since but
for the retired block, in whose place the replacement reads as erased (R478, R480). -/
def Card.replaced (c : Card) (r : ScanReport) (x : Nat × Nat × Nat) : Bool :=
  (c.readableOf r x.1).all (fun b => keyHall b.key == x.2.1 && decide (b.seq < x.2.2))

/-- From here on the replacements of retired blocks serve their halls, where the wing has been erased since (R478). -/
def Card.useReplacements (c : Card) (r : ScanReport) : Card :=
  (c.retirements.filter (c.replaced r)).foldl
    (fun c x => c.clearPages (fun k => keyWing k == x.1 && keyHall k == x.2.1)) c

/-- The decision with R478: such a wing is closed short. -/
def Card.scanOf (c : Card) (r : ScanReport) (w : Nat) : WingScan :=
  match c.scanWing r w with
  | .opened => if c.stillRetired r w then .paged else .opened
  | x => x

/-- The newest page of a wing whose metadata can be read: the last in the order of assignment (R410, R446, R458). -/
def Card.newest (c : Card) (r : ScanReport) (w : Nat) : Option Bay :=
  (c.readableOf r w).foldl (fun (m : Option Bay) b => match m with
    | some x => if c.assignOrder x.key ≤ c.assignOrder b.key then some b else m
    | none => some b) none

/-- The highest gallery of a wing that holds anything: the one at its write pointer. -/
def Card.lastGallery (c : Card) (w : Nat) : Nat := (c.wingKeys w).foldl (fun m k => max m (keyGallery k)) 0

/-- Programmed positions of a gallery whose metadata cannot be read: after a mount they count as missing for it (R155, R405,
R506). -/
def Card.blindHalls (c : Card) (r : ScanReport) (w g : Nat) : List Nat :=
  allHalls.filter (fun h =>
    let k := posKey w g h
    !c.readsErased k && (c.readable r k).isNone)

/-- A gallery's parity bay is on media. -/
def Card.hasParity (c : Card) (w g : Nat) : Bool :=
  allHalls.any (fun h => match c.cellAt (posKey w g h) with
    | some (.bay b) => b.kind == .parity
    | _ => false)

/-- An open wing as it is continued: at its incomplete last gallery, or at the one after a complete one (R155); closed
where nothing is left of it. -/
def Card.openAgain (c : Card) (r : ScanReport) (w : Nat) : Option OpenWing :=
  let g := c.lastGallery w
  if c.hasParity w g then
    if g = 383 then none
    else some { wing := w, gals := [.fresh (g + 1) (c.missingNow w)], move := false, short := false, failed := [],
                barred := [], stale := false, noSummary := false }
  else
    let hs := allHalls.filter (fun h => (c.readable r (posKey w g h)).isSome)
    let blind := c.blindHalls r w g
    let gal : Gallery := { g := g, missing := (c.missingNow w ++ blind).dedup, lost := blind, taken := hs, done := hs,
                           parityIssued := false }
    some { wing := w, gals := [gal], move := false, short := false, failed := [], barred := [], stale := true,
           noSummary := false }

/-- A bay as a summary lists it: none where the position was listed as failed or holds nothing. -/
def Card.summaryBays (c : Card) (s : Bay) : List Bay :=
  match s.body with
  | .summary _ es failed =>
    let w := keyWing s.key
    es.filterMap (fun e =>
      let k := posKey w e.gallery e.hall
      if failed.any (fun f => f.1 == k) then none
      else match c.cellAt k with
        | some (.bay b) => some { b with key := k }
        | _ => none)
  | _ => []

/-- The bays the scan finds in a wing (R152). -/
def Card.foundIn (c : Card) (r : ScanReport) (w : Nat) : List Bay :=
  match c.scanOf r w with
  | .free | .queued _ => []
  | .summarised s => c.summaryBays s
  | .paged | .opened => c.readableOf r w

/-- A LANDING, ROLLBACK or DISCARD bay: the scan reads its contents. -/
def Bay.isRecord (b : Bay) : Bool := b.kind == .landing || b.kind == .rollback || b.kind == .discard

/-- A record bay whose contents cannot be read. -/
def recordLost (r : ScanReport) (b : Bay) : Bool := b.isRecord && (r.noMeta.contains b.key || r.lost.contains b.key)

/-- Everything the scan finds, copies included. -/
def Card.foundAll (c : Card) (r : ScanReport) : List Bay := c.touched.flatMap (c.foundIn r)

/-- Of two equal copies the card takes one that can be read, then the one at the lower position (R425; log entry 21). -/
def preferred (r : ScanReport) (a b : Bay) : Bool :=
  if r.lost.contains a.key = r.lost.contains b.key then decide (a.key < b.key) else r.lost.contains b.key

/-- A bay of which another copy found is taken (R425). -/
def otherCopy (r : ScanReport) (bs : List Bay) (b : Bay) : Bool := bs.any (fun x => x.seq == b.seq && preferred r x b)

/-- The bays found, one copy of each; those whose contents are lost without them. -/
def Card.found (c : Card) (r : ScanReport) : List Bay :=
  let bs := c.foundAll r
  (bs.filter (fun b => !otherCopy r bs b)).map (fun b => if recordLost r b then { b with body := .filler } else b)

/-- A candidate for logical bays: ordinal, sequence (the highest for a range in a landing bay), the bays, the location
(R423). -/
structure Cand where
  ord : Nat
  /-- a range in a landing bay sits above every bay of its landing's range -/
  above : Bool
  seq : Nat
  bays : List Nat
  loc : Loc
  deriving DecidableEq, Repr

/-- The bays a discard range covers whole, within the capacity. -/
def Card.rangeBays (c : Card) (d : DRange) : List Nat :=
  let lo := (d.first + 15) / 16
  (List.range (min ((d.first + d.count) / 16) c.capacity - lo)).map (· + lo)

/-- The candidates a bay gives (R422, R423). -/
def Card.candsOf (c : Card) (bs : List Bay) (b : Bay) : List Cand :=
  match b.body with
  | .landing q =>
    if (voidedBy bs).contains b.seq || !ordLanded bs q.last then []
    else q.ranges.map (fun d => { ord := q.last, above := true, seq := b.seq, bays := c.rangeBays d, loc := .zeroed })
  | .discard ds =>
    if bayLanded bs b then
      ds.map (fun d => { ord := b.ord, above := false, seq := b.seq, bays := c.rangeBays d, loc := .zeroed })
    else []
  | _ =>
    if b.kind = .data ∧ bayLanded bs b ∧ b.addr < c.capacity then
      [{ ord := b.ord, above := false, seq := b.seq, bays := [b.addr], loc := .at b.key }]
    else []

/-- The order of candidates, ascending (R423). -/
def Cand.le (a b : Cand) : Bool :=
  decide (a.ord < b.ord) || (decide (a.ord = b.ord) &&
    ((!a.above && b.above) || (a.above == b.above && decide (a.seq ≤ b.seq))))

/-- All candidates in ascending order. -/
def Card.cands (c : Card) (bs : List Bay) : List Cand := sortBy Cand.le (bs.flatMap (c.candsOf bs))

/-- Each logical bay at its highest candidate (R424). -/
def resolveCands (cs : List Cand) : KV Loc :=
  cs.foldl (fun (m : KV Loc) x => x.bays.foldl (fun (m : KV Loc) b => KV.put m b x.loc) m) []

/-- LANDING bays that count, oldest first: complete, not voided, not rolled back (R422). -/
def landingsOf (bs : List Bay) : List (Bay × LandingRec) :=
  sortBy (fun x y => decide (x.1.seq ≤ y.1.seq)) (bs.filterMap (fun b => match b.body with
    | .landing q => if (voidedBy bs).contains b.seq || !ordLanded bs q.last then none else some (b, q)
    | _ => none))

/-- The newest ROLLBACK bay that counts: its sequence, and the flight it restored. -/
def lastRollback (bs : List Bay) : Option (Nat × Flight) :=
  bs.foldl (fun (m : Option (Nat × Flight)) b => match b.body with
    | .rollback q =>
      if (voidedBy bs).contains b.seq || m.any (fun x => decide (b.seq < x.1)) then m else some (b.seq, q.restored)
    | _ => m) none

/-- A landing bay as the card keeps it. -/
def landedOf (x : Bay × LandingRec) : Landed :=
  { flight := x.2.flight, tread := x.2.tread, prev := x.2.prev, first := x.2.first, last := x.2.last, seq := x.1.seq,
    digest := x.2.digest, slot := x.2.slot }

/-- The newest landing has been followed by no ROLLBACK. -/
def canRollBack (bs : List Bay) (l : Option Landed) : Bool :=
  l.any (fun l => !(lastRollback bs).any (fun x => decide (l.seq < x.1)))

/-- The last landed flight: that of the newest landing, or the one the ROLLBACK after it restored, whose landing bay may be
gone (R376, R394, R426; log entry 80). -/
def Card.scanLast (c : Card) (bs : List Bay) : Option Landed :=
  let newest := (landingsOf bs).getLast?.map landedOf
  match lastRollback bs with
  | some (s, p) =>
    if newest.any (fun l => decide (s < l.seq) || l.flight == p) then newest else c.lostLanding p
  | none => newest

/-- The flights as a full scan finds them; `ord` is the ordinal this MOUNT opens (R154, R371, R372, R376, R396, R524,
R525). -/
def Card.scanFlights (c : Card) (bs : List Bay) (ord : Nat) : Flights :=
  let ls := landingsOf bs
  let last := c.scanLast bs
  { openOrd := ord, nextOrd := ord + 1, base := ord, last := last, before := ls.dropLast.getLast?.map landedOf,
    canRoll := canRollBack bs last
    held := none, marks := [], due := [], acts := [], records := [], absent := [], voided := 0,
    digest := (last.map Landed.digest).getD 0,
    history := (last.map (fun (l : Landed) => ({ flight := l.flight, digest := l.digest, prev := l.prev } : Digest))).toList,
    moved := false }

/-- The map and undo table a full scan builds: both views at the last landed state (R153, R420, R424). -/
def Card.scanViews (c : Card) (bs : List Bay) (f : Flights) : Views :=
  let cs := c.cands bs
  let now := resolveCands cs
  let undo : KV Loc := match f.last, f.canRoll with
    | some l, true =>
      let mine := resolveCands (cs.filter (fun x => decide (l.first ≤ x.ord ∧ x.ord ≤ l.last)))
      let older := resolveCands (cs.filter (fun x => !decide (l.first ≤ x.ord ∧ x.ord ≤ l.last)))
      mine.map (fun x => (x.1, KV.getD older x.1 .none))
    | _, _ => []
  { c.views with
    valid := true, selfRefresh := false,
    map := now.map (fun x => (x.1, { working := x.2, landed := x.2, hmark := false })), undo := undo, changes := [] }

/-- The highest ordinal on media, with those landing and ROLLBACK bays name. -/
def Card.topOrd (c : Card) : Nat :=
  c.bays.foldl (fun m b => max (max m b.ord) (match b.body with
    | .landing q => q.last
    | .rollback q => q.closed
    | _ => 0)) 0

/-- The highest sequence on media. -/
def Card.topSeq (c : Card) : Nat := c.bays.foldl (fun m b => max m b.seq) 0

/-- The class a wing's bays are stamped with: its summary's, or its newest page's (R458). -/
def Card.scanClass (c : Card) (r : ScanReport) (w : Nat) : Nat :=
  match c.scanOf r w with
  | .summarised s => s.pclass
  | .paged | .opened => ((c.newest r w).map Bay.pclass).getD 0
  | _ => 0

/-- A wing's close sequence: its summary's, or that of the last bay programmed in it (R446). -/
def Card.scanClose (c : Card) (r : ScanReport) (w : Nat) : Nat :=
  match c.scanOf r w with
  | .summarised s => s.seq
  | _ => ((c.newest r w).map Bay.seq).getD 0

/-- A wing's state as a full scan leaves it; `i` orders the wings queued for erase. -/
def Card.scanEntry (c : Card) (r : ScanReport) (w i : Nat) : Option Wing :=
  let base : Wing := { Wing.fresh (c.scanClass r w) with closeSeq := c.scanClose r w, short := c.stillRetired r w }
  match c.scanOf r w with
  | .free => none
  | .summarised _ | .paged => some { base with state := .closed }
  | .opened => some { base with state := if (c.openAgain r w).isSome then .opened else .closed }
  | .queued _ => some { base with state := .waiting, waitOrder := i }

/-- The highest wing class found in each die row (R458). -/
def Card.scanRows (c : Card) (r : ScanReport) : KV Nat :=
  c.touched.foldl (fun (m : KV Nat) w =>
    let k := c.scanClass r w
    if KV.getD m (dieRow w) 0 < k then KV.put m (dieRow w) k else m) []

/-- Block classes: every block of a closed or open wing takes the wing's (R458). -/
def Card.scanBlocks (c : Card) (r : ScanReport) : KV Nat :=
  (c.touched.filter (fun w => match c.scanOf r w with
    | .free | .queued _ => false
    | _ => true)).foldl (fun (m : KV Nat) w =>
      allHalls.foldl (fun (m : KV Nat) h => match c.blockOf w h with
        | some b => KV.put m (blockKey h (dieRow w) b) (c.scanClass r w)
        | none => m) m) []

/-- The write pointers: each block's is above its highest page that is not erased (R436). -/
def Card.scanPointers (c : Card) : KV Nat :=
  c.media.cells.foldl (fun (m : KV Nat) x => match c.blockOf (keyWing x.1) (keyHall x.1) with
    | some b =>
      let k := blockKey (keyHall x.1) (dieRow (keyWing x.1)) b
      KV.put m k (max (KV.getD m k 0) (keyGallery x.1 + 1))
    | none => m) []

/-- The bays found of which the card takes another copy (R425). -/
def Card.scanCopies (c : Card) (r : ScanReport) : KV Unit :=
  let bs := c.foundAll r
  (bs.filter (otherCopy r bs)).foldl (fun (m : KV Unit) b => KV.put m b.key ()) []

/-- Media as a full scan leaves them (R154, R415, R458). -/
def Card.scanMedia (c : Card) (r : ScanReport) : Media :=
  let rows := c.scanRows r
  let ws : KV Wing := (c.touched.zipIdx).foldl (fun (m : KV Wing) x => match c.scanEntry r x.1 x.2 with
    | some v =>
      let v := if v.state = .waiting then { v with cls := KV.getD rows (dieRow x.1) 0 } else v
      KV.put m x.1 v
    | none => m) []
  { c.media with
    seq := max c.media.seq (c.topSeq + 1), wings := ws, blockClass := c.scanBlocks r, dieClasses := [], rowClass := rows
    opens := (c.touched.filter (fun w => c.scanOf r w == .opened)).filterMap (c.openAgain r)
    lastWing := none, homeless := [], superseded := c.scanCopies r, pointers := c.scanPointers
    measured := c.scanPointers.map (fun x => (x.1, ())), clock := c.touched.length }

/-- Wings page-scanned because their summary was unreadable (R156, R312). -/
def Card.pageScanned (c : Card) (r : ScanReport) : Nat :=
  (c.touched.filter (fun w => match c.scanWing r w with
    | .paged | .queued true => true
    | _ => false)).length

/-- The bound of a position whose metadata cannot be read: the sequence of the next readable position of its wing in
assignment order, or the wing's highest (R506). -/
def Card.boundOf (c : Card) (r : ScanReport) (k : Nat) : Nat :=
  let bs := c.readableOf r (keyWing k)
  let later := sortBy (fun a b => decide (c.assignOrder a.key ≤ c.assignOrder b.key))
    (bs.filter (fun b => decide (c.assignOrder k < c.assignOrder b.key)))
  match later with
  | b :: _ => b.seq
  | [] => bs.foldl (fun m b => max m b.seq) 0

/-- The entry of a programmed position whose metadata cannot be read (R506). -/
def Card.blindLoss (c : Card) (r : ScanReport) (k : Nat) : Loss :=
  { first := noSector, seq := c.boundOf r k, wing := keyWing k, hall := keyHall k, kind := 0, source := .scan,
    carried := none, reported := false, before := false, bound := true }

/-- The scan reads this bay's contents, and they are lost: a record bay's, or a SUMMARY bay's (R497, R506). -/
def scanLost (r : ScanReport) (b : Bay) : Bool := recordLost r b || (b.kind == .summary && r.lost.contains b.key)

/-- The positions of a wing that hold a program cut short or a bay without parity to rebuild it: those of the incomplete
gallery of a wing that was open (R506). -/
def Card.abandoned (c : Card) (r : ScanReport) (w k : Nat) : Bool :=
  c.scanWing r w == .opened && !c.hasParity w (c.lastGallery w) && keyGallery k == c.lastGallery w

/-- The losses the scan finds in a wing (R497, R506). -/
def Card.scanLosses (c : Card) (r : ScanReport) (w : Nat) : List Loss :=
  let found := ((c.foundIn r w).filter (scanLost r)).map (fun b => lossOf b .scan (r.noMeta.contains b.key))
  match c.scanOf r w with
  | .paged | .opened =>
    found ++ ((c.wingKeys w).filter (fun k => (c.readable r k).isNone && !c.abandoned r w k)).map (c.blindLoss r)
  | _ => found

/-- One entry of a landing bay's loss section joins the rebuilt store, or is found carried by a newer bay (R503). -/
def rejoin (l : List Loss) (f : Flight) (seq : Nat) (e : Loss) : List Loss :=
  let same (x : Loss) : Bool := x.seq == e.seq && x.wing == e.wing && x.hall == e.hall
  if l.any same then l.map (fun x => if same x then { x with carried := some (f, seq) } else x)
  else l ++ [{ e with carried := some (f, seq), reported := false, before := true }]

/-- The store as the landing bays found hold it, before liveness (R503). -/
def storeOf (bs : List Bay) : List Loss :=
  (sortBy (fun x y => decide (x.1.seq ≤ y.1.seq)) (bs.filterMap (fun b => match b.body with
    | .landing q => some (b, q)
    | _ => none))).foldl
      (fun l x => x.2.losses.foldl (fun l e => rejoin l x.2.flight x.1.seq e) l) []

/-- The slot recorded in the most recent landing bay (R169, R171). -/
def lastSlot (bs : List Bay) : Option (BitVec 12) :=
  let ls := sortBy (fun x y => decide (x.seq ≤ y.seq)) (bs.filter (fun b => b.kind == .landing))
  ls.getLast?.map Bay.slot

/-- The store rebuilt, live entries only, then the losses the scan found (R503, R506). -/
def Card.rebuildLosses (c : Card) (r : ScanReport) (bs : List Bay) : Card :=
  let all := storeOf bs
  let bounds := (all.filter Loss.bound).map Loss.seq
  let store := (all.filter c.lossLive).take Config.lossStore
  let c : Card := { c with losses := { store := store, bounds := bounds.dedup, gone := [] } }
  (c.touched.flatMap (c.scanLosses r)).foldl Card.storeLoss c

/-- The wings whose bays the scan's reads have met a condition of R492 in (R492). -/
def Card.scanMarks (c : Card) (r : ScanReport) : Card :=
  (r.marks.filter (fun k => (c.cellAt k).isSome)).foldl (fun c k => c.markRefresh (keyWing k) 2) c

/-- The scan's own reads count with the others: READs by hall, soft-decoded codewords, retries and rebuilds, by amounts the spec
leaves open (R587; log entry 108). -/
def Card.scanCounts (c : Card) : Card :=
  (((List.range 16).map (· + 32)) ++ [56, 57, 58]).foldl (fun x n => x.bump n (Config.scanCount c.freeCount n)) c.nextFree

/-- The full mount scan (R152 to R154). -/
def Card.fullScan (c : Card) (r : ScanReport) : Card :=
  let bs := c.found r
  let f := c.scanFlights bs (max c.flights.nextOrd (c.topOrd + 1))
  let f := { f with moved := match lastSlot bs with
    | some s => s != c.straps.mountSlot
    | none => false }
  let c' : Card := { c with flights := f, views := c.scanViews bs f, media := c.scanMedia r }
  let losses := ({ c with views := c'.views }).rebuildLosses r bs
  ({ c'.nextFree with losses := losses.losses, bal := losses.bal }).scanCounts.scanMarks r

end Sys2Proof.Machine
end

