-- ==== Sys2Proof/Machine/Mount.lean ====
section
/-! DEFINITION. The tread tick; MOUNT, the end of a mount, CLOSE and FORCE CLOSE (R17, R40, R145, R150 to R171, R248,
R312 to R314, R330, R331, R341). -/

namespace Sys2Proof.Machine

open Sys2Proof

/-- TREAD_TICK: the counter advances by one from the end of soft start on, while HCLK runs; it wraps (R17, R341,
R342). -/
def Card.tick (c : Card) : Card :=
  if c.phase ≠ .absent ∧ c.power.hclk then
    { c with treads := { c.treads with c := c.treads.c + 1, ticks := c.treads.ticks + 1 } }
  else c

/-- TREAD_TICK (R17, R341). -/
def execTreadTick (s : State) : Host.Outcome State Fault Refusal := run Card.tick s

/-- A MOUNT is accepted: MOUNTING, C2H lane 0 to be held, fences ended, the MOUNT strap read begun (R111, R136, R150,
R513, R601). -/
def Card.beginMount (c : Card) (t : Tag) : Card :=
  let fast := c.phase == .closed
  let r : StrapReading := { kind := .mount, pass := 0, todo := allStraps, got := .unread }
  let c := (((c.setCmd t (.mount fast)).enter .mounting).askHold).unfence
  { c with straps := { c.straps with reading := some r } }

/-- MOUNT after step 8: NOT-READY on a card without a profile (R145). -/
def Card.doMount (c : Card) (f : Frame) : Card :=
  if c.profile.isNone then c.finish f.tag stNotReady (info3 1 0 0) false else c.beginMount f.tag

/-- MOUNT (R145, R150, R157). -/
def execMount (f : Frame) (s : State) : Host.Outcome State Fault Refusal :=
  run (fun c => c.receive opMount f (.mount false) (fun c => c.doMount f)) s

/-- The fast remount: the map kept, read counts 0, a new flight opened and the base moved to it, the slot compared
with that of the MOUNT before CLOSE (R164, R169, R371, R372). -/
def Card.fastRemount (c : Card) : Card :=
  let c := c.closeFlight
  let ws : KV Wing := c.media.wings.map (fun x => (x.1, { x.2 with reads := 0 }))
  { c with
    views := { c.views with selfRefresh := false, valid := true }
    media := { c.media with wings := ws }
    flights := { c.flights with base := c.flights.openOrd, moved := c.straps.mountSlot != c.straps.closedSlot } }

/-- What a mount of either kind begins anew: patrol, watermarks, wear, the counts since the mount (R154, R471, R482). -/
def Card.startMounted (c : Card) : Card :=
  let c : Card := { c with maint := { c.maint with
    lastFree := 96, annealCount := 0, victim := none, emptying := none, young := none, visit := none, held := [],
    running := [] } }
  (c.newPass.evalMarks).decideWear

/-- A command that goes on past the emptying of the tag table at a mount's end (R248). -/
def TagEntry.stays (e : TagEntry) : Bool :=
  match e.state with
  | .outstanding (.inquire _) => true
  | _ => false

/-- The tag of the MOUNT in progress, its entry and whether it came from CLOSED. -/
def Card.mounting (c : Card) : Option (Tag × TagEntry × Bool) :=
  c.ports.tags.findSome? (fun x => match x.2.state with
    | .outstanding (.mount fc) => some (BitVec.ofNat 6 x.1, x.2, fc)
    | _ => none)

/-- The tag table is emptied when a MOUNT completes: entries freed but for INQUIREs that wait (R248). -/
def Card.emptyTags (c : Card) : Card :=
  { c with ports := { c.ports with tags := c.ports.tags.filter (fun x => x.2.stays) } }

/-- The hold ends with the resync pattern, the card is MOUNTED, and MOUNT's final response is sent and not recorded
(R138, R157, R248, R312). -/
def Card.endMount (c : Card) (t : Tag) (e : TagEntry) (fast : Bool) (u : Nat) : Card :=
  let c := (c.startMounted.endHold).enter .mounted
  (c.emptyTags.sendFinal e.port t stOk (info3 (if fast then 1 else 2) (min u 255) 0) false).pumpAll

/-- MOUNT_COMPLETE: the fast remount where the card was CLOSED and its canary checks, else the full scan (R150, R154,
R164), which waits for a hall in reset (R510). Where the canary fails nothing of what DRAM held is used (R165). -/
def Card.mountComplete (c : Card) (r : ScanReport) : Card :=
  if c.phase = .mounting ∧ c.power.hclk ∧ c.straps.reading.isNone then
    match c.mounting with
    | some (t, e, fc) =>
      if fc && c.views.selfRefresh && r.canary then c.fastRemount.endMount t e true 0
      else if !c.halls.resets.isEmpty then c
      else
        let c := c.dropMap.useReplacements r
        (c.fullScan r).endMount t e false (c.pageScanned r)
    | none => c
  else c

/-- MOUNT_COMPLETE (R154). -/
def execMountComplete (r : ScanReport) (s : State) : Host.Outcome State Fault Refusal :=
  run (fun c => c.mountComplete r) s

/-- A record belongs to a WRITE that has not sent its final response. -/
def Card.unanswered (c : Card) (r : WriteRec) : Bool :=
  c.writeWorks.any (fun x => x.2.ord == r.ord && x.2.order == r.order)

/-- The commands from the landing base on that have their final OK (R374). -/
def Card.openCmds (c : Card) : Nat :=
  (c.flights.records.filter (fun r => decide (c.flights.base ≤ r.ord) && !c.unanswered r)).length

/-- A programmed MARK bay that no landing has landed (R160 step 2, R357). -/
def Card.openMark (c : Card) : Bool := c.bays.any (fun b => b.kind == .mark && decide (c.flights.base ≤ b.ord))

/-- The open flight is empty: no command with its final OK and no programmed MARK bay (R160 step 2). -/
def Card.openEmpty (c : Card) : Bool := c.openCmds == 0 && !c.openMark

/-- Step 1 of CLOSE: windows ended, everything held dropped (R160). -/
def Card.dropScheduled (c : Card) : Card :=
  let c := c.dropWindows
  { c with flights := { c.flights with marks := [] } }

/-- Step 3 of CLOSE: the open flight is discarded; a new ordinal, and the base moves to it (R160, R163, R372). -/
def Card.discardFlight (c : Card) : Card :=
  let c := c.closeFlight
  { c with views := c.views.discardOpen
           flights := { c.flights with records := [], absent := [], base := c.flights.openOrd } }

/-- CLOSE cannot be taken: another tag outstanding, or a LAND or ROLLBACK held or in progress (R159). -/
def Card.closeBlocked (c : Card) (t : Tag) : Bool :=
  c.outstanding.any (fun x => x != t) || c.flights.held.isSome || !c.flights.acts.isEmpty

/-- F is ahead of the last landed flight, or there is none (R313, R376). -/
def Card.closeAhead (c : Card) (f : Flight) : Bool :=
  match c.flights.last with
  | some l => flightAhead f l.flight
  | none => true

/-- CLOSE after step 8 (R159, R160, R313, R314). With DISCARD = 1 an empty flight counts as discarded (log entry 110). -/
def Card.doClose (c : Card) (f : Frame) : Card :=
  if c.phase = .closed then c.finish f.tag stOk 0 false
  else if c.closeBlocked f.tag then c.finish f.tag stProtocol 0 false
  else if f.flags.getLsbD 0 then (c.dropScheduled.discardFlight).enterClosed f.tag 2
  else if c.openEmpty then c.dropScheduled.enterClosed f.tag 0
  else if !c.closeAhead f.arg then c.finish f.tag stFlightStale c.staleInfo false
  else c.dropScheduled.executeLanding f.arg 0 (.close f.tag)

/-- CLOSE (R159 to R162, R313, R314). -/
def execClose (f : Frame) (s : State) : Host.Outcome State Fault Refusal :=
  run (fun c => c.receive opClose f .close (fun c => c.doClose f)) s

/-- FORCE CLOSE ends this entry with ABORTED: every field tag, and a MOUNT or CLOSE on DCI (R167, R330). -/
def TagEntry.aborted (e : TagEntry) : Bool :=
  match e.state, e.port with
  | .outstanding _, .ci => true
  | .outstanding (.mount _), .dci => true
  | .outstanding .close, .dci => true
  | _, _ => false

/-- The tags FORCE CLOSE ends, in ascending order, which the spec leaves open (log entry 85). -/
def Card.abortTags (c : Card) : List Tag :=
  ((List.range 64).map (BitVec.ofNat 6)).filter (fun t => (c.tagEntry t).any TagEntry.aborted)

/-- A die with an erase in progress or suspended is reset; the erase completes ABORTED (R167, R435). What the pages of its block
hold the spec does not say: they stay as they were (log entry 82). -/
def Card.resetErase (c : Card) (n : Nat) : Card :=
  match (c.die n).erase with
  | some e =>
    ((c.setDie n { c.die n with erase := none }).complete (.erase e.wing (n / 16)) .aborted).complete (.resetDie n) .ok
  | none => c

/-- Every die with an erase in progress or suspended is reset (R167). -/
def Card.resetErases (c : Card) : Card := (c.halls.dies.map Prod.fst).foldl Card.resetErase c

/-- The entries FORCE CLOSE leaves: its own, and those of commands that go on (R248, R330). -/
def Card.keepTags (c : Card) (t : Tag) : Card :=
  { c with ports := { c.ports with tags := c.ports.tags.filter (fun x =>
    x.1 == t.toNat || (c.cmdOf (BitVec.ofNat 6 x.1)).isSome) } }

/-- A READ STREAM ended by FORCE CLOSE has returned a sector without data in a segment it sent (R251, R268). -/
def Card.abortZ (c : Card) (t : Tag) : Bool :=
  match c.cmdOf t with
  | some (.stream s) => s.zeros
  | _ => c.link.owed.any (fun x => x.tag == t && x.z)

/-- FORCE CLOSE in MOUNTING, MOUNTED or CLOSED (R167). Of a MOUNT strap read cut short nothing is latched (log entry 84). -/
def Card.forceClose (c : Card) (t : Tag) : Card :=
  let c := c.abortTags.foldl (fun c x => c.finish x stAborted 0 (c.abortZ x)) c
  let c := ((c.dropScheduled.dropMap).driveLnd).resetErases
  let c : Card := { c with
    straps := { c.straps with reading := none }
    link := { c.link with owed := [] }
    power := { c.power with lnd := false } }
  (((c.keepTags t).endHold).finish t stOk 0 false).enter .readyUnmounted

/-- FORCE CLOSE after step 8: no action in READY-UNMOUNTED (R142, R167). -/
def Card.doForceClose (c : Card) (f : Frame) : Card :=
  if c.phase = .readyUnmounted then c.finish f.tag stOk 0 false else c.forceClose f.tag

/-- FORCE CLOSE (R167, R330). -/
def execForceClose (f : Frame) (s : State) : Host.Outcome State Fault Refusal :=
  run (fun c => c.receive opForceClose f .dockOp (fun c => c.doForceClose f)) s

end Sys2Proof.Machine
end

