-- ==== Sys2Proof/Machine/Inquire.lean ====
section
/-! DEFINITION. INQUIRE and its eight pages (R323 to R327). -/

namespace Sys2Proof.Machine

open Sys2Proof

/-- The map and what goes with it have values (R142, R325). -/
def Card.hasMap (c : Card) : Bool := c.phase == .mounted || c.phase == .closed

/-- A number that has a value only with a map. -/
def Card.mapped0 (c : Card) (n : Nat) : Nat := if c.hasMap then n else 0

/-- "ZHOTIK" padded to 8 (R325). -/
def vendor : List Byte := [0x5A, 0x48, 0x4F, 0x54, 0x49, 0x4B, 0x20, 0x20]
/-- "SLF-1604-B" padded to 16 (R325). -/
def product : List Byte :=
  [0x53, 0x4C, 0x46, 0x2D, 0x31, 0x36, 0x30, 0x34, 0x2D, 0x42, 0x20, 0x20, 0x20, 0x20, 0x20, 0x20]

/-- Page 0: identity. -/
def Card.page0 (c : Card) : List (Nat × List Byte) :=
  let a := c.alcove
  [(0, vendor), (8, product), (24, [0x42]), (25, [BitVec.ofNat 8 ((a.inUse.map AlcoveId.code).getD 0)]),
   (26, leBytes 4 a.seqInUse.toNat), (30, leBytes 2 Config.romVersion.toNat), (32, leBytes 4 a.version.toNat),
   (36, ((c.record.map Record.serial).getD []).take 16)]

/-- p (R557). -/
def Card.permanent (c : Card) : Nat := (c.alcove.conf.map Conf.p).getD 0

/-- Page 1: geometry and format. -/
def Card.page1 (c : Card) : List (Nat × List Byte) :=
  [(0, [16, 16]), (2, leBytes 2 Config.blocksPerDie), (4, leBytes 2 Config.galleries), (6, leBytes 2 Config.wingSlots),
   (8, leBytes 4 Config.wings), (12, leBytes 4 251553120),
   (16, [match c.profile with | some l => l.setWidth 8 | none => 0xFF]), (17, leBytes 1 c.permanent),
   (20, leBytes 4 c.capacity), (24, leBytes 4 (16 * c.capacity)), (28, leBytes 4 c.narrowWings.length)]

/-- The held action as page 2 shows it: its code, flight and tread. -/
def Card.heldFields (c : Card) : List (Nat × List Byte) :=
  match c.flights.held with
  | some h => [(36, [if h.rollback then 2 else 1]), (37, leBytes 4 h.flight.toNat), (42, leBytes 6 h.tread.toNat)]
  | none => []

/-- The running window as page 2 shows it, the one running longest: its code and end tread. -/
def Card.windowFields (c : Card) : List (Nat × List Byte) :=
  match c.maint.running.head? with
  | some w => [(48, leBytes 1 w.code), (50, leBytes 6 w.stop.toNat)]
  | none => []

/-- Page 2: state, flights, treads, erased bays (R374, R376, R400). -/
def Card.page2 (c : Card) : List (Nat × List Byte) :=
  [(0, leBytes 1 c.phase.code), (4, leBytes 4 (c.mapped0 c.openCmds)), (8, leBytes 4 (c.mapped0 c.lastFlight.toNat)),
   (12, leBytes 6 (c.mapped0 ((c.flights.last.map (fun l => l.tread.toNat)).getD 0))),
   (18, leBytes 6 c.treads.c.toNat), (24, leBytes 4 (c.mapped0 c.freeErased)), (28, leBytes 4 (c.mapped0 c.waitingErase)),
   (32, leBytes 4 (c.mapped0 c.erasedReady))] ++ c.heldFields ++ c.windowFields ++
  [(56, leBytes 1 c.maint.held.length), (57, leBytes 1 c.link.lanes)]

/-- One entry of page 3 (R325, R497, R500, R503). -/
def Loss.entry (e : Loss) : List Byte :=
  leBytes 4 e.first.toNat ++ leBytes 4 ((e.carried.map (fun x => x.1.toNat)).getD 0) ++
    leBytes 1 e.source.code ++ [if e.reported || e.before then 1 else 0, e.kind.setWidth 8, 0]

/-- Page 3: the loss list (R499). -/
def Card.page3 (c : Card) : List (Nat × List Byte) :=
  [(0, leBytes 2 c.lossList.length), (2, [if Config.lossList < c.losses.store.length then 1 else 0]),
   (16, c.lossList.flatMap Loss.entry)]

/-- A role's code (page 4 byte 0). -/
def roleCode (r : Role) : Byte :=
  match r with
  | .solo => 0
  | .twinA => 1
  | .twinB => 2

/-- Page 4: the twin pair. -/
def Card.page4 (c : Card) : List (Nat × List Byte) :=
  [(0, [roleCode c.straps.role, c.twin.pair, if c.twin.linkUp then 1 else 0]),
   (4, leBytes 4 c.twin.lastCompared.toNat), (8, leBytes 4 c.twin.firstDiverged.toNat),
   (12, leBytes 1 (c.mapped0 c.flights.history.length))]

/-- One strap of page 5: level, unstable and reserved, voltage (R116). -/
def strapField (i : StrapId) (v : StrapVal) : List Byte :=
  [v.level.setWidth 8, (if v.unstable then 1 else 0) ||| (if reservedLevel i v.level then 2 else 0)] ++ leBytes 2 v.mv

/-- Page 5: the straps. -/
def Card.page5 (c : Card) : List (Nat × List Byte) :=
  (allStraps.zipIdx).map (fun x => (8 * x.2, strapField x.1 (c.straps.vals.get x.1))) ++
  [(56, leBytes 1 ((c.straps.lastRead.map ReadKind.code).getD 0)), (57, [if c.straps.roleRefused then 1 else 0]),
   (58, leBytes 2 c.straps.slot.toNat), (60, [if c.onSync then 0 else 1])]

/-- The spare pool of die `n`. -/
def Card.pool (c : Card) (n : Nat) : Nat := (c.spareBlocks (n / 16) (n % 16)).length

/-- The die whose pool is smallest as a fraction of its shipped pool, ties to the lowest number (R481). -/
def Card.poorestDie (c : Card) : Nat :=
  (List.range 256).foldl (fun best n => if c.pool n * c.shippedPool best < c.pool best * c.shippedPool n then n else best) 0

/-- Wings in class `k`: the listed ones, and the unlisted ones of the die rows of that class. -/
def Card.classCount (c : Card) (k : Nat) : Nat :=
  c.countWings (fun w => w.cls == k) +
    (allHalls.map (fun row =>
      if KV.getD c.media.rowClass row 0 = k then
        Config.wingSlots - (c.media.wings.filter (fun x => dieRow x.1 == row)).length
      else 0)).sum

/-- The closed wings of the patrol pass, and those of them visited (R471). -/
def Card.passClosed (c : Card) : List Nat := c.maint.pass.filter (fun w => (c.wing w).state == .closed)

/-- Page 6: pools, classes, patrol, anneals, ledger (R325). -/
def Card.page6 (c : Card) : List (Nat × List Byte) :=
  let d := c.poorestDie
  [(0, leBytes 2 (c.pool d)), (2, leBytes 2 (c.shippedPool d))] ++
  (List.range 8).map (fun k => (4 + 4 * k, leBytes 4 (c.classCount k))) ++
  [(36, leBytes 4 (c.passClosed.filter (fun w => (c.wing w).visited)).length), (40, leBytes 4 c.passClosed.length),
   (44, leBytes 4 c.maint.annealCount), (48, leBytes 4 c.ledgerKeys.length),
   (52, [(if c.maint.w then 1 else 0) ||| (if c.maint.worn then 2 else 0) ||| (if c.flagS then 4 else 0)])] ++
  (List.range 256).map (fun n => (64 + 2 * n, leBytes 2 (c.pool n)))

/-- Page 7: the protection map (R122 to R124). -/
def Card.page7 (c : Card) : List (Nat × List Byte) :=
  [(0, leBytes 2 (2 ^ c.views.prot - 1)), (2, [c.straps.vals.wpw.level.setWidth 8]), (3, leBytes 1 c.permanent),
   (4, leBytes 4 c.capacity)]

/-- A page as the card's state stands (R323, R325). -/
def Card.page (c : Card) (n : Nat) : List Byte :=
  pageOf (match n with
    | 0 => c.page0
    | 1 => c.page1
    | 2 => c.page2
    | 3 => c.page3
    | 4 => c.page4
    | 5 => c.page5
    | 6 => c.page6
    | 7 => c.page7
    | _ => [])

/-- After page 3 has been sent in full its entries are reported (R326). -/
def Card.afterPage (c : Card) (n : Nat) : Card := if n = 3 then c.reportLosses else c

/-- A page as one C2H transfer, then the final OK (R192, R323); the losses of page 3 are reported once that is sent, so that it
still shows them in P (R326; log entry 109). -/
def Card.sendPage (c : Card) (t : Tag) (n : Nat) : Card :=
  ((c.sendC2h t (c.page n)).finish t stOk 0 false).afterPage n

/-- INQUIRE after step 8: on DCI eight extended responses; on CI one transfer, which waits while C2H lane 0 is held low
(R221, R323, R327). -/
def Card.doInquire (c : Card) (f : Frame) : Card :=
  let n := f.arg.toNat
  match f.port with
  | .dci => (c.sendParts f.tag (pieces 516 8 (c.page n))).afterPage n
  | .ci => if c.link.hold then c else c.needLanes f.tag (fun c => c.sendPage f.tag n)

/-- INQUIRE (R323 to R327). -/
def execInquire (f : Frame) (s : State) : Host.Outcome State Fault Refusal :=
  run (fun c => c.receive opInquire f (.inquire f.arg.toNat) (fun c => c.doInquire f)) s

/-- INQUIRE_DEFERRED_TRANSFER: the hold is over and lane-frames are exchanged (R327). -/
def Card.deferredPage (c : Card) (t : Tag) : Card :=
  match c.cmdOf t with
  | some (.inquire n) => if !c.link.hold && c.linkUp && c.power.hclk then c.sendPage t n else c
  | _ => c

/-- INQUIRE_DEFERRED_TRANSFER (R327). -/
def execInquireDeferredTransfer (tag : Tag) (s : State) : Host.Outcome State Fault Refusal :=
  run (fun c => c.deferredPage tag) s

end Sys2Proof.Machine
end

