-- ==== Sys2Proof/Machine/Sync.lean ====
section
/-! DEFINITION. SYNC messages at their take point, discarded messages (R143, R144, R315 to R318, R344, R350 to R368). -/

namespace Sys2Proof.Machine

open Sys2Proof

/-- SET TREAD (R354). -/
def syncTypeSet : Byte := 0x01
/-- CHECK TREAD. -/
def syncTypeCheck : Byte := 0x02
/-- LAND. -/
def syncTypeLand : Byte := 0x10
/-- ROLLBACK. -/
def syncTypeRollback : Byte := 0x11
/-- SERVICE. -/
def syncTypeService : Byte := 0x12
/-- QUIET. -/
def syncTypeQuiet : Byte := 0x13
/-- MARK. -/
def syncTypeMark : Byte := 0x20

/-- Reason codes of EV-06 (R588). -/
def dropFraming : Byte := 0x01
/-- Idle timeout. -/
def dropIdle : Byte := 0x02
/-- CRC mismatch. -/
def dropCrc : Byte := 0x03
/-- A field. -/
def dropField : Byte := 0x04
/-- The state does not serve it. -/
def dropState : Byte := 0x05
/-- An action is already held. -/
def dropHeld : Byte := 0x06
/-- Window rule. -/
def dropWindow : Byte := 0x07
/-- Numbering. -/
def dropNumber : Byte := 0x08
/-- Lead above 2^24. -/
def dropLead : Byte := 0x09
/-- Past. -/
def dropPast : Byte := 0x0A
/-- Ninth MARK. -/
def dropNinth : Byte := 0x0B

/-- The receiver between messages, SY idle (R348, R351). -/
def SyRx.rest : SyRx := { idle := Config.syIdle, char := none, msg := none, since := 0 }

/-- What a sample of SY brings about: a message is discarded, its reason as EV-06 codes it, or 18 characters are there
(R352). -/
inductive SyEvent where
  | discard (reason : Byte) (bytes : List Byte)
  | message (bytes : List Byte)
  deriving DecidableEq, Repr

/-- The receiver while armed: a low sample is a start edge, a high one idle; a message whose next start edge does not come
within 48 cycles of a stop bit's sample 8 is discarded (R346, R348, R352; log entry 76). -/
def SyRx.armed (r : SyRx) (high : Bool) : SyRx × Option SyEvent :=
  let late := r.msg.isSome && decide (if high then Config.syGap ≤ r.since + 1 else Config.syGap < r.since + 1)
  let r' : SyRx := { r with since := r.since + 1, msg := if late then none else r.msg }
  (if high then { r' with idle := min Config.syIdle (r.idle + 1) }
    else { r' with idle := 0, char := some { cycle := 0, fromIdle := decide (Config.syIdle ≤ r.idle), bits := 0 } },
   if late then some (.discard dropIdle (r.msg.getD [])) else none)

/-- A character has been accepted: it starts a message where it is 0x7E after idle, or joins the one being collected
(R352). -/
def SyRx.accept (r : SyRx) (ch : SyChar) : SyRx × Option SyEvent :=
  let r : SyRx := { r with char := none, since := 0 }
  match r.msg with
  | none => ({ r with msg := if ch.fromIdle && ch.bits == 0x7E then some [ch.bits] else none }, none)
  | some bs =>
    if bs.length + 1 < 18 then ({ r with msg := some (bs ++ [ch.bits]) }, none)
    else ({ r with msg := none }, some (.message (bs ++ [ch.bits])))

/-- A character's stop bit reads low at its sample 8: a framing error, which discards the message being collected (R347,
R352; log entry 76). -/
def SyRx.framing (r : SyRx) : SyRx × Option SyEvent :=
  ({ r with char := none, msg := none, since := 0 }, r.msg.map (SyEvent.discard dropFraming))

/-- One sample of SY, in the HCLK cycle after the last one: bit b of a character is read at its sample 8, cycle 16 b + 7 from
the start edge; a start bit that reads high there is no start bit; from the stop bit's sample 9 on the receiver is armed
again (R346 to R348). -/
def SyRx.step (r : SyRx) (high : Bool) : SyRx × Option SyEvent :=
  match r.char with
  | none => r.armed high
  | some ch =>
    let n := ch.cycle + 1
    let r : SyRx := { r with since := r.since + 1 }
    let ch : SyChar := { ch with cycle := n }
    if n = 7 ∧ high then ({ r with char := none }, none)
    else if n = 151 then (if high then r.accept ch else r.framing)
    else if n % 16 = 7 ∧ n ≠ 7 then
      ({ r with char := some { ch with bits := if high then ch.bits ||| (1#8 <<< (n / 16 - 1)) else ch.bits } }, none)
    else ({ r with char := some ch }, none)

/-- SYNC is received: on array SYNC, from the end of the power-up read on, with HCLK (R344, R345). -/
def Card.hearsSync (c : Card) : Bool :=
  c.phase != .absent && c.phase != .poweredUnclocked && c.power.hclk && c.onSync

/-- The target kind and the bits that must be zero (R350, R352, R354). -/
def syncFieldsOk (type : Byte) (m : SyncMsg) : Bool :=
  m.kind != 3 && (m.kind != 1 || decide (m.addr.toNat < 16)) &&
    (if type = syncTypeSet ∨ type = syncTypeCheck then m.arg == 0
     else if type = syncTypeQuiet then decide (m.arg.toNat < 2 ^ 24)
     else true)

/-- A message is discarded (R352; BC-11, EV-06). -/
def Card.discardSync (c : Card) (reason type seq : Byte) : Card := (c.bump 11 1).ev 6 [reason, type, seq]

/-- The message addresses this card (R358). -/
def Card.addressed (c : Card) (m : SyncMsg) : Bool :=
  match m.kind.toNat with
  | 0 => true
  | 1 => m.addr == c.straps.group.setWidth 12
  | _ => m.addr == c.straps.slot

/-- A message that passed R352 at its take point (R359): a repeat is ignored, a gap counted, and where it addresses the card
`act` acts on it (R353, R358; BC-10, BC-12, BC-14, EV-05). -/
def Card.takeSync (c : Card) (type : Byte) (m : SyncMsg) (act : Card → Card) : Card :=
  if !c.hearsSync then c
  else if !syncFieldsOk type m then c.discardSync dropField type m.seq
  else if c.treads.lastMsg = some (type, m) then c.bump 12 1
  else
    let gap := match c.treads.lastMsg with
      | some (_, o) => m.seq != o.seq + 1
      | none => false
    let c : Card := { c with treads := { c.treads with lastMsg := some (type, m) } }
    let c := if gap then c.bump 14 1 else c
    if c.addressed m then
      act ((c.bump 10 1).ev 5 ([type, m.seq] ++ leBytes 4 m.tread.toNat ++ leBytes 2 m.addr.toNat))
    else c.bump 12 1

/-- SET TREAD and CHECK TREAD take effect in this state (R144). -/
def Card.servesTreads (c : Card) : Bool := c.phase != .loading && c.phase != .linkTraining

/-- A SYNC action dropped as past, with its notice (R252, R364, R367). -/
def Card.dropPastAct (c : Card) (type seq : Byte) (late : Nat) : Card :=
  let l := min late 0xFFFF
  (c.dropSync dropPast type seq).notice ntTreadPast (info3 type.toNat l (l / 256))

/-- The sequence byte of the SYNC message that scheduled an action. -/
def ActSrc.seq : ActSrc → Byte
  | .sync s => s
  | _ => 0

/-- A load moved the counter past a held LAND or ROLLBACK (R317, R364, R367). -/
def Card.reviewHeld (c : Card) : Card :=
  match c.flights.held with
  | some h =>
    if treadNotPast h.tread c.treads.c then c
    else
      let late := treadAhead c.treads.c h.tread
      let seq := h.src.seq
      let c := c.unhold
      if !h.rollback && decide (late ≤ Config.lateTreads) then
        if c.landingOk h.flight then c.lateLanding h.flight late h.src else (c.staleAct h.src false).driveLnd
      else match h.src with
        | .cmd t => (c.finish t stTreadPast 0 false).driveLnd
        | _ => (c.dropPastAct (if h.rollback then syncTypeRollback else syncTypeLand) seq late).driveLnd
  | none => c

/-- A load moved the counter past held MARKs (R364, R367). -/
def Card.reviewMarks (c : Card) : Card :=
  let past := c.flights.marks.filter (fun m => !treadNotPast m.tread c.treads.c)
  let c : Card := { c with flights := { c.flights with
    marks := c.flights.marks.filter (fun m => treadNotPast m.tread c.treads.c) } }
  past.foldl (fun c m => c.dropPastAct syncTypeMark m.seq (treadAhead c.treads.c m.tread)) c

/-- A load moved the counter past held windows (R364, R367). One that a command scheduled is dropped like a SYNC action, with 0
for the sequence byte it has none of (log entry 20). -/
def Card.reviewWindows (c : Card) : Card :=
  let past := c.maint.held.filter (fun w => !treadNotPast w.start c.treads.c)
  let c : Card := { c with maint := { c.maint with
    held := c.maint.held.filter (fun w => treadNotPast w.start c.treads.c) } }
  past.foldl (fun c w => c.dropPastAct (if w.quiet then syncTypeQuiet else syncTypeService) w.seq
    (treadAhead c.treads.c w.start)) c

/-- A load moved the counter to or past a running window's end tread (R368); what such a window held back starts. -/
def Card.reviewRunning (c : Card) : Card :=
  match c.maint.running.filter (fun w => w.stop == c.treads.c || !treadNotPast w.stop c.treads.c) with
  | [] => c
  | ws => (ws.foldl (fun c w => c.endOne w 5) c).pumpAll

/-- SET TREAD's load at the take point: the counter, the load record, and what it moved past (R360, R367, R368,
R584). -/
def Card.loadTread (c : Card) (t : Tread) : Card :=
  let c : Card := { c with treads := { c.treads with c := t } }
  ((c.queueLoad.reviewRunning).reviewMarks).reviewHeld.reviewWindows

/-- A SET TREAD message (R144, R360). -/
def Card.syncSet (c : Card) (m : SyncMsg) : Card :=
  if c.servesTreads then c.loadTread m.tread else c.dropSync dropState syncTypeSet m.seq

/-- The counter minus a tread, signed (R342, R361). -/
def treadDiff (c t : Tread) : Int :=
  let d := treadAhead t c
  if d < 2 ^ 47 then -(Int.ofNat d) else Int.ofNat (2 ^ 48 - d)

/-- A number within ± `m`. -/
def clampInt (m v : Int) : Int := if m < v then m else if v < -m then -m else v

/-- CHECK TREAD at the take point (R361; BC-94). -/
def Card.checkTread (c : Card) (t : Tread) : Card :=
  let d := treadDiff c.treads.c t
  let c : Card := { c with treads := { c.treads with checkDiff := d } }
  if d < -1 ∨ 1 < d then c.notice ntTreadSlip (BitVec.ofInt 24 (clampInt 0x7FFFFF d)) else c

/-- A CHECK TREAD message (R144, R361). -/
def Card.syncCheck (c : Card) (m : SyncMsg) : Card :=
  if c.servesTreads then c.checkTread m.tread else c.dropSync dropState syncTypeCheck m.seq

/-- A scheduled message: dropped outside MOUNTED, with a lead above 2^24, or, where `late` does not take it, as past;
else `act` (R143, R364; log entry 19). -/
def Card.schedule (c : Card) (type : Byte) (m : SyncMsg) (late : Nat) (act : Card → Card) : Card :=
  let now := c.treads.c
  if c.phase ≠ .mounted then c.dropSync dropState type m.seq
  else if treadNotPast m.tread now then
    if Config.leadTreads < treadAhead m.tread now then c.dropSync dropLead type m.seq else act c
  else if late < treadAhead now m.tread then c.dropPastAct type m.seq (treadAhead now m.tread)
  else act c

/-- A LAND message that is not past by more than 1,024 treads (R315, R317, R318, R364). -/
def Card.syncLandNow (c : Card) (m : SyncMsg) : Card :=
  let now := c.treads.c
  if c.actionBlocked then c.dropSync dropHeld syncTypeLand m.seq
  else if !c.landingOk m.arg then c.dropSync dropNumber syncTypeLand m.seq
  else if treadNotPast m.tread now then
    c.hold { rollback := false, tread := m.tread, flight := m.arg, src := .sync m.seq }
  else c.lateLanding m.arg (treadAhead now m.tread) (.sync m.seq)

/-- A LAND message (R143, R356, R364). -/
def Card.syncLand (c : Card) (m : SyncMsg) : Card :=
  c.schedule syncTypeLand m Config.lateTreads (fun c => c.syncLandNow m)

/-- A ROLLBACK message that is not past (R315, R318, R364). -/
def Card.syncRollbackNow (c : Card) (m : SyncMsg) : Card :=
  if c.actionBlocked then c.dropSync dropHeld syncTypeRollback m.seq
  else if !c.rollbackOk m.arg then c.dropSync dropNumber syncTypeRollback m.seq
  else c.hold { rollback := true, tread := m.tread, flight := m.arg, src := .sync m.seq }

/-- A ROLLBACK message (R143, R356, R364). -/
def Card.syncRollback (c : Card) (m : SyncMsg) : Card :=
  c.schedule syncTypeRollback m 0 (fun c => c.syncRollbackNow m)

/-- The window a SERVICE or QUIET message asks for: argument [23:0] is the duration less 1 (R354). -/
def syncWindow (m : SyncMsg) (quiet : Bool) : Window :=
  { seq := m.seq, quiet := quiet, kinds := (m.arg >>> 24).setWidth 8, start := m.tread,
    duration := m.arg.toNat % 2 ^ 24 + 1, began := 0 }

/-- A SERVICE or QUIET message (R316, R355, R364). -/
def Card.syncWindowMsg (c : Card) (type : Byte) (m : SyncMsg) (quiet : Bool) : Card :=
  let w := syncWindow m quiet
  if c.phase = .mounted ∧ (!durationOk w.duration || (!quiet && !kindsOk w.kinds)) then
    c.dropSync dropWindow type m.seq
  else c.schedule type m 0 (fun c =>
    if c.windowFits w then c.holdWindow w else c.dropSync dropWindow type m.seq)

/-- A MARK message that is not past: held, unless eight are (R357). -/
def Card.syncMarkNow (c : Card) (m : SyncMsg) : Card :=
  if c.flights.marks.length < Config.heldMarks then
    let h : HeldMark := { seq := m.seq, tread := m.tread, value := m.arg }
    { c with flights := { c.flights with marks := c.flights.marks ++ [h] } }
  else c.dropSync dropNinth syncTypeMark m.seq

/-- A MARK message (R143, R357, R364). -/
def Card.syncMark (c : Card) (m : SyncMsg) : Card := c.schedule syncTypeMark m 0 (fun c => c.syncMarkNow m)

/-- The message types R354 lists. -/
def syncTypes : List Byte :=
  [syncTypeSet, syncTypeCheck, syncTypeLand, syncTypeRollback, syncTypeService, syncTypeQuiet, syncTypeMark]

/-- The fields of 18 received bytes (R350). -/
def syncFields (b : List Byte) : SyncMsg :=
  { seq := b.getD 1 0, kind := (b.getD 3 0).setWidth 2, addr := BitVec.ofNat 12 (leNat ((b.drop 4).take 2)),
    tread := BitVec.ofNat 48 (leNat ((b.drop 6).take 6)), arg := BitVec.ofNat 32 (leNat ((b.drop 12).take 4)) }

/-- Type, target kind and the bits that must be zero, in 18 received bytes (R350, R352). -/
def syncBytesOk (b : List Byte) : Bool :=
  syncTypes.contains (b.getD 2 0) && decide ((b.getD 3 0).toNat < 3 ∧ (b.getD 5 0).toNat < 16) &&
    syncFieldsOk (b.getD 2 0) (syncFields b)

/-- What a message of this type does (R354). -/
def Card.syncAct (c : Card) (type : Byte) (m : SyncMsg) : Card :=
  if type = syncTypeSet then c.syncSet m
  else if type = syncTypeCheck then c.syncCheck m
  else if type = syncTypeLand then c.syncLand m
  else if type = syncTypeRollback then c.syncRollback m
  else if type = syncTypeService then c.syncWindowMsg syncTypeService m false
  else if type = syncTypeQuiet then c.syncWindowMsg syncTypeQuiet m true
  else c.syncMark m

/-- A received message at its take point: a CRC mismatch or a field discards it; else it is acted on (R352, R353, R359). -/
def Card.judgeSync (c : Card) (b : List Byte) : Card :=
  let type := b.getD 2 0
  if leNat (b.drop 16) ≠ (crc16 (b.take 16)).toNat then c.discardSync dropCrc type (b.getD 1 0)
  else if !syncBytesOk b then c.discardSync dropField type (b.getD 1 0)
  else c.takeSync type (syncFields b) (fun c => c.syncAct type (syncFields b))

/-- The take point of a message whose 18 characters are there has come (R359). -/
def Card.takePending (c : Card) : Card :=
  match c.treads.taking with
  | some (_, b) => ({ c with treads := { c.treads with taking := none } }).judgeSync b
  | none => c

/-- One HCLK cycle of the 256 to a message's take point has passed (R359). -/
def Card.countTake (c : Card) : Card :=
  match c.treads.taking with
  | some (n, b) =>
    if n ≤ 1 then c.takePending else { c with treads := { c.treads with taking := some (n - 1, b) } }
  | none => c

/-- One sample of SY (R346, R352, R359; BC-11, EV-06). -/
def Card.sySample (c : Card) (high : Bool) : Card :=
  let (rx, e) := c.treads.rx.step high
  let c : Card := { c with treads := { c.treads with rx := rx } }
  match e with
  | some (.discard r bs) => c.countTake.discardSync r (bs.getD 2 0) (bs.getD 1 0)
  | some (.message bs) => { c with treads := { c.treads with taking := some (Config.takeCycles, bs) } }
  | none => c.countTake

/-- SY as the card samples it, cycle by cycle, while it receives SYNC (R344 to R346). -/
def Card.hearSy (c : Card) (line : SyLine) : Card := if c.hearsSync then line.foldl Card.sySample c else c

/-- A message in a row of its own, at its take point: the receiver has been armed again since its last stop bit, SY idle since
then; a message received before it has had its take point (R348, R351, R359; log entry 76). -/
def Card.syncRow (c : Card) (type : Byte) (m : SyncMsg) (act : Card → Card) : Card :=
  if c.hearsSync then
    let c := c.takePending
    ({ c with treads := { c.treads with rx := .rest } }).takeSync type m act
  else c

/-- SYNC_SET_TREAD (R144, R360). -/
def execSyncSetTread (m : SyncMsg) (s : State) : Host.Outcome State Fault Refusal :=
  run (fun c => c.syncRow syncTypeSet m (fun c => c.syncSet m)) s

/-- SYNC_CHECK_TREAD (R144, R361). -/
def execSyncCheckTread (m : SyncMsg) (s : State) : Host.Outcome State Fault Refusal :=
  run (fun c => c.syncRow syncTypeCheck m (fun c => c.syncCheck m)) s

/-- SYNC_LAND (R143, R315, R356, R364). -/
def execSyncLand (m : SyncMsg) (s : State) : Host.Outcome State Fault Refusal :=
  run (fun c => c.syncRow syncTypeLand m (fun c => c.syncLand m)) s

/-- SYNC_ROLLBACK (R143, R315, R356, R364). -/
def execSyncRollback (m : SyncMsg) (s : State) : Host.Outcome State Fault Refusal :=
  run (fun c => c.syncRow syncTypeRollback m (fun c => c.syncRollback m)) s

/-- SYNC_SERVICE (R143, R355, R364). -/
def execSyncService (m : SyncMsg) (s : State) : Host.Outcome State Fault Refusal :=
  run (fun c => c.syncRow syncTypeService m (fun c => c.syncWindowMsg syncTypeService m false)) s

/-- SYNC_QUIET (R143, R355, R364). -/
def execSyncQuiet (m : SyncMsg) (s : State) : Host.Outcome State Fault Refusal :=
  run (fun c => c.syncRow syncTypeQuiet m (fun c => c.syncWindowMsg syncTypeQuiet m true)) s

/-- SYNC_MARK (R143, R357, R364). -/
def execSyncMark (m : SyncMsg) (s : State) : Host.Outcome State Fault Refusal :=
  run (fun c => c.syncRow syncTypeMark m (fun c => c.syncMark m)) s

/-- BAD_SYNC_MESSAGE: what the line read while the message came; the card judges it (R347, R352). -/
def execBadSyncMessage (line : SyLine) (s : State) : Host.Outcome State Fault Refusal := run (fun c => c.hearSy line) s

/-- SYNC_IDLE_TIMEOUT: what the line read until no start edge had come in time; the card judges it (R352). -/
def execSyncIdleTimeout (line : SyLine) (s : State) : Host.Outcome State Fault Refusal := run (fun c => c.hearSy line) s

end Sys2Proof.Machine
end

