-- ==== Sys2Proof/Machine/Twin.lean ====
section
/-! DEFINITION. Messages from the twin partner and the end of the twin wait (R514, R528 to R538). -/

namespace Sys2Proof.Machine

open Sys2Proof

/-- The card hears the twin link: dock present, a role taken, HCLK running (R54, R131, R133). -/
def Card.hearsTwin (c : Card) : Bool := c.power.dock && c.power.hclk && c.straps.role != .solo

/-- A message's length, its type and the CRC-32C over what stands before it (R526, R528, R529, R531). -/
def twinOk (type : Byte) (len : Nat) (bs : List Byte) : Bool :=
  bs.length == len && bs.getD 0 0 == type && decide (leNat (bs.drop (bs.length - 4)) = (crc32c (bs.take (bs.length - 4))).toNat)

/-- A little-endian field of a message. -/
def fieldAt (bs : List Byte) (k n : Nat) : Nat := leNat ((bs.drop k).take n)

/-- A burst is complete: stored for the verdict of the landing it belongs to (R532). -/
def Card.storeBurst (c : Card) (b : Burst) : Card :=
  ({ c with twin := { c.twin with heard := c.twin.heard ++ [b], burst := none } }).judge

/-- The burst that a HELLO opens (R528, R530). -/
def burstOf (bs : List Byte) : Burst :=
  let flags := bs.getD 13 0
  { replay := flags.getLsbD 1
    left := if flags.getLsbD 0 then some (if flags.getLsbD 1 then (bs.getD 12 0).toNat else 0) else none
    digests := [] }

/-- A partner's HELLO: the link is up, but for the time between a MOUNT and its first verdict; another serial than the last one
heard calls for a replay (R535 to R537). -/
def Card.greet (c : Card) (bs : List Byte) : Card :=
  let serial := BitVec.ofNat 32 (fieldAt bs 8 4)
  let other := match c.twin.partner with
    | some s => s != serial
    | none => false
  let b := burstOf bs
  let c := { c with twin := { c.twin with linkUp := c.twin.linkUp || !c.twin.fresh, partner := some serial,
                                          replayDue := c.twin.replayDue || other, burst := some b } }
  if b.left = some 0 then c.storeBurst b else c

/-- A received HELLO: discarded for its length, CRC, type or serial, or as a role clash, which takes the link down (R514,
R531; BC-88). -/
def Card.hello (c : Card) (bs : List Byte) : Card :=
  if !c.hearsTwin then c
  else if !twinOk 0x01 20 bs || fieldAt bs 8 4 == c.serialCrc.toNat then c.bump 88 1
  else if bs.getD 1 0 = (if c.straps.role = .twinA then 1 else 2) then
    ({ c with twin := { c.twin with linkUp := false } }).bump 88 1
  else c.greet bs

/-- TWIN_HELLO (R514, R528, R531, R536, R537). -/
def execTwinHello (bytes : List Byte) (s : State) : Host.Outcome State Fault Refusal :=
  run (fun c => c.hello bytes) s

/-- The history entry a DIGEST carries (R529). -/
def digestOfBytes (bs : List Byte) : Digest :=
  { flight := BitVec.ofNat 32 (fieldAt bs 4 4), digest := BitVec.ofNat 64 (fieldAt bs 8 8),
    prev := BitVec.ofNat 32 (fieldAt bs 16 4) }

/-- A DIGEST joins the burst being received; the last of a burst completes it (R530). -/
def Card.joinDigest (c : Card) (b : Burst) (bs : List Byte) : Card :=
  let b := { b with digests := b.digests ++ [digestOfBytes bs] }
  match b.left with
  | none =>
    if (bs.getD 1 0).getLsbD 0 then { c with twin := { c.twin with burst := some b } } else c.storeBurst b
  | some n =>
    let b := { b with left := some (n - 1) }
    if n ≤ 1 then c.storeBurst b else { c with twin := { c.twin with burst := some b } }

/-- A received DIGEST (R531; BC-88). -/
def Card.digestMsg (c : Card) (bs : List Byte) : Card :=
  if !c.hearsTwin then c
  else if !twinOk 0x02 24 bs then c.bump 88 1
  else match c.twin.burst with
    | some b => c.joinDigest b bs
    | none => c

/-- TWIN_DIGEST (R529, R531, R533, R538). -/
def execTwinDigest (bytes : List Byte) (s : State) : Host.Outcome State Fault Refusal :=
  run (fun c => c.digestMsg bytes) s

/-- The twin wait of the oldest landing without a verdict ends: no partner burst came, the link is down, the next burst
replays (R532, R533, R536, R537). -/
def Card.waitExpiry (c : Card) : Card :=
  match c.twin.waits with
  | _ :: r =>
    if c.power.hclk then
      ({ c with twin := { c.twin with waits := r, linkUp := false, replayDue := true } }).setPair 2 0
    else c
  | [] => c

/-- TWIN_WAIT_EXPIRY (R532, R533). -/
def execTwinWaitExpiry (s : State) : Host.Outcome State Fault Refusal := run Card.waitExpiry s

end Sys2Proof.Machine
end

