-- ==== Sys2Proof/Machine/Balcony.lean ====
section
/-! DEFINITION. The Balcony's periods, slots and counter records (R568 to R587). -/

namespace Sys2Proof.Machine

open Sys2Proof

/-- The card drives BAL: dock present and HCLK running (R54, R570). -/
def Card.drivesBal (c : Card) : Bool := c.phase != .absent && c.power.dock && c.power.hclk

/-- Dies fenced now (BC-83). -/
def Card.fencedDies (c : Card) : Nat := (c.halls.dies.filter (fun x => x.2.fenced)).length

/-- BC-94 in 64 bits, sign-extended; a free value where 32 signed bits do not hold it (R585, R586). -/
def slipValue (d : Int) : BitVec 64 :=
  if -(2 ^ 31) ≤ d ∧ d < 2 ^ 31 then BitVec.ofInt 64 d else (Config.slipGauge d).signExtend 64

/-- The margin the card reports of H2C lane `k`, 0 when not trained (R606). -/
def Card.marginOf (c : Card) (k : Nat) : Byte :=
  if c.link.trained.getLsbD k then KV.getD c.link.margins k 0 else 0

/-- The value of counter BC-n (R585, R586): counters as counted, gauges as the card's state stands. -/
def Card.counter (c : Card) (n : Nat) : BitVec 64 :=
  let nat := BitVec.ofNat 64
  if 48 ≤ n ∧ n ≤ 55 then nat (c.mapped0 (c.classCount (n - 48)))
  else if 76 ≤ n ∧ n ≤ 79 then (c.marginOf (n - 76)).setWidth 64
  else if n = 83 then nat c.fencedDies
  else if n = 89 then BitVec.ofInt 64 c.maint.hottestAll
  else if n = 90 then BitVec.ofInt 64 c.maint.controller
  else if n = 91 then nat (c.mapped0 c.freeErased)
  else if n = 92 then nat (c.mapped0 c.waitingErase)
  else if n = 93 then nat (c.mapped0 c.media.vest.length)
  else if n = 94 then slipValue c.treads.checkDiff
  else nat (KV.getD c.bal.counts n 0)

/-- Send one record; the sequence counts it modulo 2^16 (R572). -/
def Card.sendRecord (c : Card) (r : BalRec) : Card :=
  ({ c with bal := { c.bal with seq := c.bal.seq + 1 } }).send (.balcony c.bal.seq r)

/-- A load record stands in the queue (R584). -/
def Card.loadQueued (c : Card) : Bool := c.bal.queue.any (fun r => r.type == 0x01)

/-- Every slot of the period has passed (R576). -/
def Card.slotsOver (c : Card) : Bool :=
  match c.bal.slot with
  | some n => decide (Config.periodSlots ≤ n)
  | none => true

/-- BALCONY_PERIOD: a new period, its slot 0 a full-tread record, with cause 0x02 where the stream starts. No other period begins
before the slots of the one under way are over, nor while a load record drains the queue (R576, R577, R582, R584). -/
def Card.balPeriod (c : Card) : Card :=
  if c.drivesBal && (c.bal.startDue || (c.slotsOver && !c.loadQueued)) then
    let r := c.fullTread (if c.bal.startDue then 0x02 else 0x00)
    let c := { c with bal := { c.bal with slot := some 1, startDue := false } }
    c.sendRecord r
  else c

/-- BALCONY_PERIOD (R576, R582). -/
def execBalconyPeriod (s : State) : Host.Outcome State Fault Refusal := run Card.balPeriod s

/-- The next slot of the period. -/
def Card.setSlot (c : Card) (n : Nat) : Card := { c with bal := { c.bal with slot := some n } }

/-- A drop record is stamped in the slot it is sent in; events and loads were built before (R573; log entry 96). -/
def Card.builtNow (c : Card) (r : BalRec) : BalRec := if r.type = 0x02 then { r with stamp := c.stamp } else r

/-- The record at the head of the queue is sent; a load record opens a new period as its slot 0 (R577, R584). -/
def Card.sendHead (c : Card) : Card :=
  match c.bal.queue with
  | [] => c
  | r :: q =>
    let c := ({ c with bal := { c.bal with queue := q } }).sendRecord (c.builtNow r)
    if r.type = 0x01 then c.setSlot 1 else c

/-- BALCONY_SLOT: a counter record, the head of the queue, or nothing (R577, R584, R586). -/
def Card.balSlot (c : Card) : Card :=
  match c.bal.slot with
  | some n =>
    if !c.drivesBal then c
    else if c.loadQueued then c.sendHead
    else if n ≤ 96 then
      (c.sendRecord { type := BitVec.ofNat 8 (0x7F + n), stamp := c.stamp,
                      payload := leBytes 8 (c.counter (n - 1)).toNat }).setSlot (n + 1)
    else if n < Config.periodSlots then (c.setSlot (n + 1)).sendHead
    else c
  | none => c

/-- BALCONY_SLOT (R577). -/
def execBalconySlot (s : State) : Host.Outcome State Fault Refusal := run Card.balSlot s

end Sys2Proof.Machine
end

