-- ==== Sys2Proof/Machine/Frames.lean ====
section
/-! DEFINITION. Frames without a command's meaning: unlisted opcodes, refused frames, alignment, stray characters; and
the INTERIMs that keep a command alive (R228 to R230, R243, R245, R247). -/

namespace Sys2Proof.Machine

open Sys2Proof

/-- UNLISTED_OPCODE: R245 up to step 5. A listed opcode is another row's. -/
def execUnlistedOpcode (opcode : Byte) (f : Frame) (s : State) : Host.Outcome State Fault Refusal :=
  run (fun c => if listed opcode then c else c.receive opcode f .timed id) s

/-- A command may be kept alive by an INTERIM: outstanding, and not a WRITE between its GO and the end of its transfer
(R243). -/
def Cmd.keeps (k : Cmd) : Bool :=
  match k with
  | .write w => w.stage != .data
  | _ => true

/-- FORMAT sends nothing before the selected generation is voided (R562). -/
def Card.mustVoid (c : Card) (t : Tag) : Bool :=
  match c.alcove.service with
  | some (u, .formatRead) => u == t
  | some (u, .formatErase _ _) => u == t && c.voiding
  | _ => false

/-- KEEPALIVE_INTERIM: RESP_MAX has passed without a response of the command's own (R16, R243, R562). -/
def Card.keepalive (c : Card) (t : Tag) : Card :=
  match c.cmdOf t with
  | some k => if k.keeps && !c.mustVoid t && c.power.hclk then c.interim t 0 else c
  | none => c

/-- KEEPALIVE_INTERIM (R243). -/
def execKeepaliveInterim (tag : Tag) (s : State) : Host.Outcome State Fault Refusal :=
  run (fun c => c.keepalive tag) s

/-- A port is there to receive, aligned or not (R54, R142). -/
def Card.hears (c : Card) (p : Port) : Bool :=
  c.phase != .absent && c.phase != .poweredUnclocked && c.power.hclk && c.portUp p

/-- REFUSED_FRAME: a frame that fails R229 gets an INTERIM BAD-FRAME with the tag bits of byte 1 and byte 0 as they
arrived, or 0 (R229, R247). -/
def Card.refusedFrame (c : Card) (p : Port) (b : BadFrame) : Card :=
  match badCause p b with
  | some k =>
    if c.hears p then c.badFrame p ((b.bytes.getD 1 0).setWidth 6) k (b.bytes.getD 0 0) else c
  | none => c

/-- REFUSED_FRAME (R229, R247). -/
def execRefusedFrame (port : Port) (b : BadFrame) (s : State) : Host.Outcome State Fault Refusal :=
  run (fun c => c.refusedFrame port b) s

/-- Set whether a port's characters are aligned (R228). -/
def Card.setAligned (c : Card) (p : Port) (v : Bool) : Card :=
  if c.hears p then
    match p with
    | .ci => { c with ports := { c.ports with alignedCi := v } }
    | .dci => { c with ports := { c.ports with alignedDci := v } }
  else c

/-- ALIGNMENT_LOST (R228). -/
def execAlignmentLost (port : Port) (s : State) : Host.Outcome State Fault Refusal :=
  run (fun c => c.setAligned port false) s

/-- ALIGNMENT_REGAINED (R228). -/
def execAlignmentRegained (port : Port) (s : State) : Host.Outcome State Fault Refusal :=
  run (fun c => c.setAligned port true) s

/-- CHARACTER_OUTSIDE_FRAME: ignored and counted (R230; BC-05). -/
def execCharacterOutsideFrame (port : Port) (s : State) : Host.Outcome State Fault Refusal :=
  run (fun c => if c.hears port then c.bump 5 1 else c) s

end Sys2Proof.Machine
end

