-- ==== Sys2Proof/Machine/Dispatch.lean ====
section
/-! DEFINITION. The meaning of every command of spec/opcode_table.json, one arm each. -/

namespace Sys2Proof.Machine

def exec (i : Instr) (s : State) : Host.Outcome State Fault Refusal :=
  match i with
  | .pdcMate => Sys2Proof.Machine.execPdcMate s
  | .softStartBegin => Sys2Proof.Machine.execSoftStartBegin s
  | .softStartEnd => Sys2Proof.Machine.execSoftStartEnd s
  | .powerUpStrapRead => Sys2Proof.Machine.execPowerUpStrapRead s
  | .strapReadPassEnd p => Sys2Proof.Machine.execStrapReadPassEnd p s
  | .alcoveCopyComplete => Sys2Proof.Machine.execAlcoveCopyComplete s
  | .pdcBreak => Sys2Proof.Machine.execPdcBreak s
  | .vmUndervoltageTrip => Sys2Proof.Machine.execVmUndervoltageTrip s
  | .vmRestored => Sys2Proof.Machine.execVmRestored s
  | .hclkStop => Sys2Proof.Machine.execHclkStop s
  | .hclkAbsenceDetectorTrip => Sys2Proof.Machine.execHclkAbsenceDetectorTrip s
  | .hclkReturn => Sys2Proof.Machine.execHclkReturn s
  | .dpresQualified => Sys2Proof.Machine.execDpresQualified s
  | .dpresOpen => Sys2Proof.Machine.execDpresOpen s
  | .treadTick => Sys2Proof.Machine.execTreadTick s
  | .trainingHold seq => Sys2Proof.Machine.execTrainingHold seq s
  | .setPreset seq lane preset => Sys2Proof.Machine.execSetPreset seq lane preset s
  | .ready seq laneCode => Sys2Proof.Machine.execReady seq laneCode s
  | .reservedTrainingRequest seq code => Sys2Proof.Machine.execReservedTrainingRequest seq code s
  | .laneTrained lane margin => Sys2Proof.Machine.execLaneTrained lane margin s
  | .firstH2cMarker => Sys2Proof.Machine.execFirstH2cMarker s
  | .h2cMarkerTimeout => Sys2Proof.Machine.execH2cMarkerTimeout s
  | .hostRetrain => Sys2Proof.Machine.execHostRetrain s
  | .cardRetrainRequest cause lanes => Sys2Proof.Machine.execCardRetrainRequest cause lanes s
  | .markerSend => Sys2Proof.Machine.execMarkerSend s
  | .markerReceived lane mark margin => Sys2Proof.Machine.execMarkerReceived lane mark margin s
  | .dataFrame w => Sys2Proof.Machine.execDataFrame w s
  | .trailerFrame w => Sys2Proof.Machine.execTrailerFrame w s
  | .idleFrame lane syms => Sys2Proof.Machine.execIdleFrame lane syms s
  | .trailerTimeout tag => Sys2Proof.Machine.execTrailerTimeout tag s
  | .holdBegin => Sys2Proof.Machine.execHoldBegin s
  | .unlistedOpcode opcode f => Sys2Proof.Machine.execUnlistedOpcode opcode f s
  | .read f => Sys2Proof.Machine.execRead f s
  | .readStream f => Sys2Proof.Machine.execReadStream f s
  | .streamSegmentStart tag => Sys2Proof.Machine.execStreamSegmentStart tag s
  | .stop f => Sys2Proof.Machine.execStop f s
  | .verify f => Sys2Proof.Machine.execVerify f s
  | .write f => Sys2Proof.Machine.execWrite f s
  | .writeGo tag => Sys2Proof.Machine.execWriteGo tag s
  | .delayedMergeStart tag => Sys2Proof.Machine.execDelayedMergeStart tag s
  | .discardZ f => Sys2Proof.Machine.execDiscardZ f s
  | .discardH f => Sys2Proof.Machine.execDiscardH f s
  | .land f => Sys2Proof.Machine.execLand f s
  | .rollback f => Sys2Proof.Machine.execRollback f s
  | .service f => Sys2Proof.Machine.execService f s
  | .quiet f => Sys2Proof.Machine.execQuiet f s
  | .mount f => Sys2Proof.Machine.execMount f s
  | .mountComplete r => Sys2Proof.Machine.execMountComplete r s
  | .close f => Sys2Proof.Machine.execClose f s
  | .inquire f => Sys2Proof.Machine.execInquire f s
  | .inquireDeferredTransfer tag => Sys2Proof.Machine.execInquireDeferredTransfer tag s
  | .forceClose f => Sys2Proof.Machine.execForceClose f s
  | .format f => Sys2Proof.Machine.execFormat f s
  | .sanitize f => Sys2Proof.Machine.execSanitize f s
  | .alcoveLoad f => Sys2Proof.Machine.execAlcoveLoad f s
  | .alcoveSwap f => Sys2Proof.Machine.execAlcoveSwap f s
  | .syncSetTread m => Sys2Proof.Machine.execSyncSetTread m s
  | .syncCheckTread m => Sys2Proof.Machine.execSyncCheckTread m s
  | .syncLand m => Sys2Proof.Machine.execSyncLand m s
  | .syncRollback m => Sys2Proof.Machine.execSyncRollback m s
  | .syncService m => Sys2Proof.Machine.execSyncService m s
  | .syncQuiet m => Sys2Proof.Machine.execSyncQuiet m s
  | .syncMark m => Sys2Proof.Machine.execSyncMark m s
  | .landingExecute => Sys2Proof.Machine.execLandingExecute s
  | .landingBayIssue since => Sys2Proof.Machine.execLandingBayIssue since s
  | .landingCutoff => Sys2Proof.Machine.execLandingCutoff s
  | .rollbackExecute => Sys2Proof.Machine.execRollbackExecute s
  | .rollbackBayIssue since => Sys2Proof.Machine.execRollbackBayIssue since s
  | .rollbackCutoff => Sys2Proof.Machine.execRollbackCutoff s
  | .markExecute => Sys2Proof.Machine.execMarkExecute s
  | .windowStart => Sys2Proof.Machine.execWindowStart s
  | .windowEnd => Sys2Proof.Machine.execWindowEnd s
  | .keepaliveInterim tag => Sys2Proof.Machine.execKeepaliveInterim tag s
  | .descriptorQueued hall => Sys2Proof.Machine.execDescriptorQueued hall s
  | .programComplete hall die r => Sys2Proof.Machine.execProgramComplete hall die r s
  | .readComplete hall die r => Sys2Proof.Machine.execReadComplete hall die r s
  | .eraseComplete r => Sys2Proof.Machine.execEraseComplete r s
  | .descriptorHung hall die => Sys2Proof.Machine.execDescriptorHung hall die s
  | .hallResetEnd hall micros => Sys2Proof.Machine.execHallResetEnd hall micros s
  | .windowEraseStart => Sys2Proof.Machine.execWindowEraseStart s
  | .reclaimRelocation => Sys2Proof.Machine.execReclaimRelocation s
  | .refreshRelocation => Sys2Proof.Machine.execRefreshRelocation s
  | .staticLevelMove => Sys2Proof.Machine.execStaticLevelMove s
  | .patrolVisit => Sys2Proof.Machine.execPatrolVisit s
  | .annealStart pulses => Sys2Proof.Machine.execAnnealStart pulses s
  | .heatComplete hall die => Sys2Proof.Machine.execHeatComplete hall die s
  | .annealProbe hall die pulses => Sys2Proof.Machine.execAnnealProbe hall die pulses s
  | .heaterTimeout hall die => Sys2Proof.Machine.execHeaterTimeout hall die s
  | .thermalStageChange die others controller => Sys2Proof.Machine.execThermalStageChange die others controller s
  | .twinHello bytes => Sys2Proof.Machine.execTwinHello bytes s
  | .twinDigest bytes => Sys2Proof.Machine.execTwinDigest bytes s
  | .twinWaitExpiry => Sys2Proof.Machine.execTwinWaitExpiry s
  | .balconyPeriod => Sys2Proof.Machine.execBalconyPeriod s
  | .balconySlot => Sys2Proof.Machine.execBalconySlot s
  | .refusedFrame port b => Sys2Proof.Machine.execRefusedFrame port b s
  | .alignmentLost port => Sys2Proof.Machine.execAlignmentLost port s
  | .alignmentRegained port => Sys2Proof.Machine.execAlignmentRegained port s
  | .characterOutsideFrame port => Sys2Proof.Machine.execCharacterOutsideFrame port s
  | .badSyncMessage m => Sys2Proof.Machine.execBadSyncMessage m s
  | .syncIdleTimeout m => Sys2Proof.Machine.execSyncIdleTimeout m s
  | .exclusiveReadWaitExpiry hall die => Sys2Proof.Machine.execExclusiveReadWaitExpiry hall die s
  | .eraseSuspendComplete hall die => Sys2Proof.Machine.execEraseSuspendComplete hall die s
  | .alcoveOperationComplete ok => Sys2Proof.Machine.execAlcoveOperationComplete ok s

end Sys2Proof.Machine
end

