-- ==== Sys2Proof/Machine/Wire.lean ====
section
/-! DEFINITION. The bytes of what the card sends and takes, as its ports carry them: responses, lane-frames, trailers,
markers, training control fields, SYNC messages, Balcony records (R175 to R177, R183, R188 to R194, R201, R235, R254 to R256,
R350, R571). -/

namespace Sys2Proof.Machine

open Sys2Proof

/-- Bytes 0 to 6 of a response (R235). -/
def Resp.head (r : Resp) : List Byte :=
  [BitVec.ofNat 8 (r.code.toNat + 64 * r.kind.toNat), r.status, r.flags] ++ leBytes 3 r.info.toNat ++ [r.seq]

/-- A response's 8 bytes (R235, R236). -/
def Resp.bytes (r : Resp) : List Byte := r.head ++ [crc8 r.head]

/-- An extended response (R256). -/
def Resp.extBytes (r : Resp) (payload : List Byte) : List Byte :=
  let body := r.bytes ++ payload
  body ++ leBytes 4 (crc32c body).toNat

/-- A command frame's bytes, extended ones with their payload and CRC-32C (R232, R254). -/
def wireFrame (op : Byte) (f : Frame) : List Byte :=
  match f.ext with
  | none => frameBytes op f
  | some p => let body := frameBytes op f ++ p
    body ++ leBytes 4 (crc32c body).toNat

/-- The code of a lane count in markers, trailers and READY (R183, R193). -/
def laneCode (n : Nat) : BitVec 3 := if n = 1 then 1 else if n = 2 then 2 else if n = 4 then 4 else 0

/-- An alignment marker's 16 bytes on a lane. -/
def markerBytes (lane : BitVec 2) (n : Nat) (count : BitVec 16) : List Byte :=
  let b6 : Byte := lane.setWidth 8 ||| ((laneCode n).setWidth 8 <<< 2)
  let head := [0xC5, 0x3A, 0x9D, 0x62, 0xB7, 0x48, b6, ~~~b6] ++ leBytes 2 count.toNat ++ [0, 0, 0, 0]
  head ++ leBytes 2 (crc16 head).toNat

/-- Frames of a transfer (Transfers and striping). -/
def frameCount (bytes : List Byte) : Nat := (bytes.length + 639) / 640

/-- Frame `i`'s payload, zeros beyond the transfer's data (R190). -/
def framePayload (bytes : List Byte) (i : Nat) : List Byte :=
  let p := (bytes.drop (640 * i)).take 640
  p ++ List.replicate (640 - p.length) 0

/-- The data frames of a transfer on lane `k`, in the order sent: index and payload (R188, R189). -/
def C2h.laneFrames (x : C2h) (k : Nat) : List (Nat × List Byte) :=
  (laneIndices x.bytes.length x.lanes k).map (fun i => (i, framePayload x.bytes i))

/-- The trailer of lane `k` (R193). -/
def C2h.trailer (x : C2h) (k : Nat) : Trailer :=
  let fs := x.laneFrames k
  { crc := crc32c (fs.flatMap Prod.snd), count := BitVec.ofNat 16 fs.length, lane := BitVec.ofNat 2 k,
    laneCode := laneCode x.lanes, issue := x.issue, length := BitVec.ofNat 32 x.bytes.length }

/-- A trailer's 640 payload bytes (R193). -/
def trailerBytes (t : Trailer) : List Byte :=
  leBytes 4 t.crc.toNat ++ leBytes 2 t.count.toNat ++
    [t.lane.setWidth 8 ||| (t.laneCode.setWidth 8 <<< 2) ||| (if t.issue then 0x20 else 0), 0] ++
    leBytes 4 t.length.toNat ++ List.replicate 628 0

/-- The payload of a lane's trailer frame goes with its header: the number of frames in the transfer minus 1. -/
def C2h.trailerHeader (x : C2h) : BitVec 20 :=
  laneHeader .trailer x.tag (BitVec.ofNat 12 (frameCount x.bytes - 1))

/-- Lane-frames as codewords, one after the other, the scrambler running on (R177). -/
def laneWords (p : Nat) (fs : List (BitVec 20 × List Byte)) : List (List Nat) :=
  match fs with
  | [] => []
  | f :: r =>
    let x := laneWord p f.1 f.2
    x.1 :: laneWords x.2 r

/-- The codewords of a transfer on lane `k`: its data frames, then its trailer (R172, R188, R189, R193). -/
def C2h.words (x : C2h) (k : Nat) : List (List Nat) :=
  laneWords (Config.freeScrambler (x.seed + k)).toNat
    ((x.laneFrames k).map (fun f => (laneHeader .data x.tag (BitVec.ofNat 12 f.1), f.2)) ++
      [(x.trailerHeader, trailerBytes (x.trailer k))])

/-- A marker's 64 levels (R176). -/
def markerLevels (b : List Byte) : List Nat :=
  b.flatMap (fun x => (List.range 4).map (fun i => pam4 (BitVec.ofNat 2 (x.toNat >>> (2 * i)))))

/-- The code of a training result (R607). -/
def ReqResult.code : ReqResult → Nat
  | .none => 0
  | .accepted => 1
  | .refused => 2

/-- The 32 bits of the control field the card sends on C2H lane `k` (Training, R606, R607). Before any request has been
acted on, the sequence field is 0 (log entry 73). -/
def Card.control (c : Card) (k : BitVec 2) : BitVec 32 :=
  BitVec.ofNat 32 (c.phase.code + 16 * (c.link.reqSeq.getD 0).toNat + 2 ^ 8 * c.link.trained.toNat +
    2 ^ 12 * (laneCode c.laneCap).toNat + 2 ^ 15 * (if c.link.retrainReq then 1 else 0) +
    2 ^ 16 * (c.link.preset k).toNat + 2 ^ 19 * k.toNat + 2 ^ 21 * c.link.reqResult.code +
    2 ^ 24 * (c.marginOf k.toNat).toNat)

/-- The control field's 6 bytes, its CRC-16 last. -/
def Card.controlBytes (c : Card) (k : BitVec 2) : List Byte :=
  let b := leBytes 4 (c.control k).toNat
  b ++ leBytes 2 (crc16 b).toNat

/-- A SYNC message's 18 bytes (R350). -/
def syncBytes (type : Byte) (m : SyncMsg) : List Byte :=
  let b := [0x7E, m.seq, type, m.kind.setWidth 8] ++ leBytes 2 m.addr.toNat ++ leBytes 6 m.tread.toNat ++
    leBytes 4 m.arg.toNat
  b ++ leBytes 2 (crc16 b).toNat

/-- What SY reads while a source sends a character, sample by sample: a low start bit, bits 0 to 7, a high stop bit, 16 HCLK
cycles each (R346). -/
def charLine (b : Byte) : SyLine :=
  (([false] ++ (List.range 8).map b.getLsbD) ++ [true]).flatMap (List.replicate 16)

/-- What SY reads while the characters of a message follow each other without a gap (R346, R351). -/
def sentLine (bs : List Byte) : SyLine := bs.flatMap charLine

/-- A Balcony record's 16 bytes (R571). -/
def balBytes (seq : BitVec 16) (r : BalRec) : List Byte :=
  let b := [r.type] ++ leBytes 2 seq.toNat ++ leBytes 4 r.stamp.toNat ++ payload8 r.payload
  b ++ [crc8 b]

end Sys2Proof.Machine
end

