-- ==== Sys2Proof/Safety.lean ====
section
/-! DEFINITION. What a safe state is: the invariant the statements speak of. -/

namespace Sys2Proof.Machine

/-- The part of the card the invariant and the frames speak of. -/
structure Keep where
  phase : Phase
  /-- the bytes of alcoves A and B -/
  bytes : Mem × Mem
  /-- what the flash positions hold -/
  cells : KV Cell
  /-- the latched slot and group -/
  place : BitVec 12 × BitVec 4
  /-- the lane count in use -/
  lanes : Nat
  /-- the tread counter -/
  tread : Tread
  /-- HCLK runs; the dock is present -/
  hclk : Bool
  dock : Bool
  role : Role
  /-- the alcove in use -/
  inUse : Option AlcoveId
  /-- held MARKs, held windows, running windows -/
  marks : List HeldMark
  held : List Window
  running : List Window
  deriving DecidableEq

/-- That part of a card. -/
def Card.keep (c : Card) : Keep :=
  { phase := c.phase, bytes := (c.alcove.memA, c.alcove.memB), cells := c.media.cells, place := (c.straps.slot, c.straps.group),
    lanes := c.link.lanes, tread := c.treads.c, hclk := c.power.hclk, dock := c.power.dock, role := c.straps.role,
    inUse := c.alcove.inUse, marks := c.flights.marks, held := c.maint.held, running := c.maint.running }

/-- The invariant: alcove bytes in canonical form; the group is slot address bits 11 to 8 (R127); a lane count of 1, 2 or
4, or 0 before the first (R206, R223); at most eight held MARKs (R357); at most two windows held or running (R316); and
none of these outside MOUNTED (R143). -/
def Keep.ok (k : Keep) : Prop :=
  k.bytes.1.wf = true ∧ k.bytes.2.wf = true ∧ k.place.2.toNat = k.place.1.toNat / 256 ∧
    (k.lanes = 0 ∨ k.lanes = 1 ∨ k.lanes = 2 ∨ k.lanes = 4) ∧ k.marks.length ≤ Config.heldMarks ∧
    k.held.length + k.running.length ≤ 2 ∧
    (k.phase ≠ .mounted → k.marks = [] ∧ k.held = [] ∧ k.running = [])

/-- The opcode and frame of a command frame's row (R308); a listed opcode is not UNLISTED_OPCODE's. -/
def commandOf : Instr → Option (Byte × Frame)
  | .unlistedOpcode op f => if listed op then none else some (op, f)
  | .read f => some (opRead, f)
  | .readStream f => some (opStream, f)
  | .stop f => some (opStop, f)
  | .verify f => some (opVerify, f)
  | .write f => some (opWrite, f)
  | .discardZ f => some (opDiscardZ, f)
  | .discardH f => some (opDiscardH, f)
  | .land f => some (opLand, f)
  | .rollback f => some (opRollback, f)
  | .service f => some (opService, f)
  | .quiet f => some (opQuiet, f)
  | .mount f => some (opMount, f)
  | .close f => some (opClose, f)
  | .inquire f => some (opInquire, f)
  | .forceClose f => some (opForceClose, f)
  | .format f => some (opFormat, f)
  | .sanitize f => some (opSanitize, f)
  | .alcoveLoad f => some (opAlcoveLoad, f)
  | .alcoveSwap f => some (opAlcoveSwap, f)
  | _ => none

/-- The tag is free, or its command is completed under the other issue bit: R245 gets past steps 2 to 4. -/
def Card.tagOpen (c : Card) (f : Frame) : Bool :=
  match c.tagEntry f.tag with
  | none => true
  | some e => match e.state with
    | .outstanding _ => false
    | .completed _ _ => e.issue != f.issue

/-- A frame that R245 takes to step 8: received, of a length its port allows, its tag open, its port entitled, its
state serving it, no unused field set (R142, R228, R232, R234, R245, R308, R309). -/
def Card.admits (c : Card) (op : Byte) (f : Frame) : Bool :=
  c.receives f.port && lengthOk f && c.tagOpen f && listed op && entitled f.port op && (c.step7 op f).isNone &&
    fieldsOk op f

/-- The card once the command is counted and its tag is outstanding (R245 steps 5 and 8). -/
def Card.accept (c : Card) (op : Byte) (f : Frame) (k : Cmd) : Card := (c.countTaken f.port).taken op f k

/-- The tag table shows the command completed with this status and info. -/
def Card.ended (c : Card) (op : Byte) (f : Frame) (st : Status) (info : BitVec 24) : Prop :=
  c.tagEntry f.tag = some (entryOf op f (.completed st info))

/-- The tag table shows the command outstanding with this work. -/
def Card.working (c : Card) (op : Byte) (f : Frame) (k : Cmd) : Prop :=
  c.tagEntry f.tag = some (entryOf op f (.outstanding k))

/-- A response as the card builds it now on a port (R235, R240, R251). -/
def Card.respNow (c : Card) (p : Port) (kind : BitVec 2) (code : BitVec 6) (st : Status) (info : BitVec 24)
    (z : Bool) : Out :=
  .resp p { kind := kind, code := code, status := st, flags := c.flags z, info := info,
            seq := match p with | .ci => c.ports.seqCo | .dci => c.ports.seqDco }

/-- A notice as the card sends it now on both ports, newest first (R252). -/
def Card.noticeNow (c : Card) (code : BitVec 6) (info : BitVec 24) : List Out :=
  (if c.power.dock then [c.respNow .dci 3 code 0 info false] else []) ++ [c.respNow .ci 3 code 0 info false]

/-- The rows of R139: the events on which a card in state `p` goes to state `q`. The events are those of the table of
commands; a landing that CLOSE waits for ends with its bay's PROGRAM, which the card may learn of at HCLK's return, and an
ALCOVE SWAP that had to wait for the alcove device is taken when that is idle (R543). -/
def turns (i : Instr) (p q : Phase) : Bool :=
  match i with
  | .softStartEnd => p == .absent && q == .poweredUnclocked
  | .strapReadPassEnd _ =>
    (p == .poweredUnclocked && q == .loading) || (p == .closed && q == .readyUnmounted)
  | .alcoveCopyComplete => p == .loading && (q == .linkTraining || q == .fault)
  | .firstH2cMarker => p == .linkTraining && q == .readyUnmounted
  | .mount _ => (p == .readyUnmounted || p == .closed) && q == .mounting
  | .mountComplete _ => p == .mounting && q == .mounted
  | .close _ | .programComplete _ _ _ => p == .mounted && q == .closed
  | .forceClose _ => (p == .mounting || p == .mounted || p == .closed) && q == .readyUnmounted
  | .hclkReturn => p == .mounted && q == .closed
  | .hclkAbsenceDetectorTrip => (p == .mounting || p == .mounted) && q == .readyUnmounted
  | .sanitize _ | .alcoveLoad _ | .alcoveSwap _ | .alcoveOperationComplete _ => p == .closed && q == .readyUnmounted
  | .pdcBreak | .vmUndervoltageTrip => p != .absent && q == .absent
  | _ => false

/-- The bytes of an alcove below its record slots that an operation on the alcove device changes (R545, R558). -/
def AlcoveOp.touches (o : AlcoveOp) (i : AlcoveId) (a : Nat) : Bool :=
  match o with
  | .eraseSector j off => i == j && decide (off ≤ a ∧ a < off + 65536)
  | .programBytes j off bs => i == j && decide (off ≤ a ∧ a < off + bs.length)
  | .programSeq j _ => i == j && decide (8 ≤ a ∧ a < 16)
  | _ => false

/-- The position is one that what die `n` has finished, and the card has not yet seen, changes on the media (R24; log entry
86). -/
def Card.lateTouches (c : Card) (n k : Nat) : Bool :=
  match (c.die n).late with
  | some (.prog _) => (c.die n).op == some (.program k)
  | some (.erase true) => (c.die n).erase.any (fun e => keyWing k == e.wing && keyHall k == n / 16)
  | _ => false

/-- The position is one that the report die `n` has kept since HCLK went changes when HCLK is back: the page it was programming;
the pages of the wing whose erase it ended, which are cleared with the last of its ERASEs (R24, R438, R480). A report that
fits nothing the die holds may still be taken for what the die starts meanwhile. -/
def Card.lateTaken (c : Card) (n k : Nat) : Bool :=
  match (c.die n).late with
  | some (.prog _) => match (c.die n).op with
    | some (.program j) => k == j
    | _ => keyDie k == n
  | some (.erase true) => match (c.die n).erase with
    | some e => if e.stage = .suspended then dieRow (keyWing k) == n % 16 else keyWing k == e.wing
    | none => dieRow (keyWing k) == n % 16
  | _ => false

/-- The position lies in a block that a replacement serves from this mount's scan on (R478). -/
def Card.nowReplaced (c : Card) (r : ScanReport) (k : Nat) : Bool :=
  let d := c.dropMap
  (d.retirements.filter (d.replaced r)).any (fun x => keyWing k == x.1 && keyHall k == x.2.1)

/-- The flash positions a command may change (R435, R438, R478, R508, R564): the one a die is programming, those of the wing
whose erase ends, those programmed in a hall that is reset, those FORMAT or SANITIZE has erased, those a replacement takes the
place of at a mount, those whose program ran on through a loss of power, and those of what the dies finished while HCLK was
absent (R24). -/
def cellTouched (c : Card) (i : Instr) (k : Nat) : Bool :=
  match i with
  | .programComplete h d _ => (c.die (dieNo h.toNat d.toNat)).op == some (.program k)
  | .eraseComplete (.die h d _) => match (c.die (dieNo h.toNat d.toNat)).erase with
    | some e => keyWing k == e.wing
    | none => c.serviceErasing && keyHall k == h.toNat
  | .eraseComplete (.bulk _) => c.serviceErasing
  | .descriptorHung h _ => allHalls.any (fun d => (c.die (dieNo h.toNat d)).op == some (.program k))
  | .mountComplete r => c.phase == .mounting && c.nowReplaced r k
  | .softStartEnd => c.runningPrograms.contains k
  | .pdcBreak | .vmUndervoltageTrip => c.halls.dies.any (fun x => c.lateTouches x.1 k)
  | .hclkReturn => c.halls.dies.any (fun x => c.lateTaken x.1 k)
  | _ => false

end Sys2Proof.Machine
end

