-- ==== Sys2Proof/WellFormed.lean ====
section
/-! DEFINITION. Which commands carry operands that an event of the hardware can carry. -/

namespace Sys2Proof

/-- A frame a port can take: an extended frame comes on DCI alone, with 4 to 508 payload bytes in fours
(R232, R254). -/
def Frame.wf (f : Frame) : Bool :=
  match f.ext with
  | none => true
  | some p => f.port == .dci && decide (4 ≤ p.length ∧ p.length ≤ 508 ∧ p.length % 4 = 0)

/-- A pass gives each contact that it covers eight conversions (R601). -/
def StrapPass.wf (p : StrapPass) : Bool :=
  [p.prf, p.wpw, p.adh, p.adm, p.adl, p.twn, p.lns].all (fun l => l.isEmpty || l.length == 8)

/-- A codeword has 544 symbols (R172). -/
def LaneWord.wf (w : LaneWord) : Bool := w.syms.length == 544

/-- The positions a mount reports lie on the flash (R403). -/
def ScanReport.wf (r : ScanReport) : Bool :=
  (r.noMeta ++ r.lost).all (fun k => decide (k < Config.wings * Config.galleries * Config.halls))

/-- The blocks that refused an erase lie on the flash (R403). -/
def EraseReport.wf (r : EraseReport) : Bool :=
  match r with
  | .die _ _ _ => true
  | .bulk l => l.all (fun b => decide (b.block.toNat < Config.blocksPerDie))

/-- The command's operands have the shape of an event of the hardware. -/
def WellFormed : Instr → Bool
  | .strapReadPassEnd p => p.wf
  | .dataFrame w | .trailerFrame w => w.wf
  | .idleFrame lane syms => LaneWord.wf { lane := lane, syms := syms }
  | .unlistedOpcode _ f => f.wf
  | .read f | .readStream f | .stop f | .verify f | .write f | .discardZ f | .discardH f => f.wf
  | .land f | .rollback f | .service f | .quiet f | .mount f | .close f | .inquire f => f.wf
  | .forceClose f | .format f | .sanitize f | .alcoveLoad f | .alcoveSwap f => f.wf
  | .mountComplete r => r.wf
  | .eraseComplete r => r.wf
  | .twinHello b => b.length == 20
  | .twinDigest b => b.length == 24
  | _ => true

end Sys2Proof
end

