-- ==== Sys2Proof/Certificates/Slice0/Obligations.lean ====
section
/-! DEFINITION. The statements for the provers. -/

open Sys2Proof Sys2Proof.Machine

/-- A step takes the command at the front of the queue and runs it on the card with the queue's rest; with no command
waiting the block idles (both are the model's choice, log entry 3). -/
def Obligations.StepRunsFrontCommand : Prop :=
  (∀ (i : Instr) (s : State), step { s with pending := i :: s.pending } = exec i s) ∧
  ∀ s : State, s.pending = [] → step s = .next s

/-- Every command completes in every state, and leaves the commands that wait for it alone (log entry 1; DESIGN
CHOICE). -/
def Obligations.EveryCommandCompletes : Prop :=
  ∀ (i : Instr) (s : State), ∃ t, exec i s = .next t ∧ t.pending = s.pending

/-- The invariant holds right after reset. -/
def Obligations.ResetHoldsInvariant : Prop :=
  State.reset.card.keep.ok

/-- Every step keeps the invariant (R127, R143, R206, R223, R316, R357). -/
def Obligations.StepKeepsInvariant : Prop :=
  ∀ s t : State, s.card.keep.ok → step s = .next t → t.card.keep.ok

/-- R139: the card changes state only on the events of its table. -/
def Obligations.StateChangesOnlyByTable : Prop :=
  ∀ (i : Instr) (s t : State), exec i s = .next t →
    t.card.phase = s.card.phase ∨ turns i s.card.phase t.card.phase = true

/-- Commands outside this list leave the state, the alcoves' bytes, the flash, the slot and group, the lane count, the
tread counter, HCLK, the dock's presence, the twin role, the alcove in use, held MARKs and windows as they were. The
tread counter moves by TREAD_TICK, by a SET TREAD message and at the end of soft start alone (R17, R341); a message may
also come in as samples of SY, and one whose take point is still to come is taken before any other (R359, log entry 76). The lane count changes by READY alone (R223), and is gone with the power.
The slot address and the group change at the end of a strap read alone, and start anew with the power. -/
def Obligations.CoreFrames : Prop :=
  (∀ (i : Instr) (s t : State), exec i s = .next t →
    (match i with
      | .softStartEnd | .strapReadPassEnd _ | .alcoveCopyComplete | .pdcBreak | .vmUndervoltageTrip | .hclkStop
      | .hclkAbsenceDetectorTrip | .hclkReturn | .dpresQualified | .dpresOpen | .treadTick | .ready _ _
      | .firstH2cMarker | .write _ | .writeGo _ | .service _ | .quiet _ | .mount _ | .mountComplete _ | .close _
      | .forceClose _ | .sanitize _ | .alcoveLoad _ | .alcoveSwap _ | .syncSetTread _
      | .syncService _ | .syncQuiet _ | .syncMark _ | .badSyncMessage _ | .syncIdleTimeout _ | .markExecute
      | .windowStart | .windowEnd | .programComplete _ _ _ | .eraseComplete _ | .descriptorHung _ _
      | .alcoveOperationComplete _ => False
      | .syncCheckTread _ | .syncLand _ | .syncRollback _ => s.card.treads.taking = none
      | _ => True) → t.card.keep = s.card.keep) ∧
  (∀ (i : Instr) (s t : State), exec i s = .next t →
    (match i with
      | .treadTick | .syncSetTread _ | .badSyncMessage _ | .syncIdleTimeout _ | .softStartEnd => False
      | .syncCheckTread _ | .syncLand _ | .syncRollback _ | .syncService _ | .syncQuiet _ | .syncMark _ =>
        s.card.treads.taking = none
      | _ => True) → t.card.treads.c = s.card.treads.c) ∧
  (∀ (i : Instr) (s t : State), exec i s = .next t →
    (match i with | .ready _ _ | .softStartEnd | .pdcBreak | .vmUndervoltageTrip => False | _ => True) →
      t.card.link.lanes = s.card.link.lanes) ∧
  (∀ (i : Instr) (s t : State), exec i s = .next t →
    (match i with | .strapReadPassEnd _ | .softStartEnd => False | _ => True) →
      t.card.straps.slot = s.card.straps.slot ∧ t.card.straps.group = s.card.straps.group)

/-- The alcoves' bytes below the record slots change only by the operation at the head of the device's list: when it
completes, or when the power goes while it runs, and within the bytes it names. ALCOVE_OPERATION_COMPLETE completes: an
operation that the device has done, HCLK running, erases 65,536 bytes to 0xFF, or programs bytes, each of which becomes the AND of what stood
there and what is programmed (log entry 12; PRESUMED). -/
def Obligations.AlcoveBytesFrame : Prop :=
  (∀ (i : Instr) (s t : State) (x : AlcoveId) (a : Nat), exec i s = .next t →
    (match i with
      | .alcoveOperationComplete _ | .pdcBreak | .vmUndervoltageTrip =>
        (s.card.alcove.ops.head?.any (fun o => o.touches x a)) = false
      | _ => True) → Mem.read (t.card.alcove.mem x) a = Mem.read (s.card.alcove.mem x) a) ∧
  (∀ (s : State) (r : List AlcoveOp), s.card.alcove.memA.wf = true → s.card.alcove.memB.wf = true →
    s.card.power.hclk = true →
    (∀ x off, s.card.alcove.ops = .eraseSector x off :: r → ∃ t, exec (.alcoveOperationComplete true) s = .next t ∧
      ∀ a, off ≤ a → a < off + 65536 → Mem.read (t.card.alcove.mem x) a = 0xFF) ∧
    (∀ x off bs, s.card.alcove.ops = .programBytes x off bs :: r →
      ∃ t, exec (.alcoveOperationComplete true) s = .next t ∧
        ∀ k (h : k < bs.length), Mem.read (t.card.alcove.mem x) (off + k) =
          Mem.read (s.card.alcove.mem x) (off + k) &&& bs[k]) ∧
    (∀ x n, s.card.alcove.ops = .programSeq x n :: r → ∃ t, exec (.alcoveOperationComplete true) s = .next t ∧
      ∀ k (h : k < (seqField n).length), Mem.read (t.card.alcove.mem x) (8 + k) =
        Mem.read (s.card.alcove.mem x) (8 + k) &&& (seqField n)[k]))

/-- What a flash position holds changes only by the work that acts on it: the page a die programs, the pages of a wing whose
erase ends, those of a hall in reset that are being programmed, the hall of the die whose erase FORMAT or SANITIZE is told of,
the blocks a mount finds replaced, and what dies finished before the card could see it (R24, R435, R438, R478, R508, R564;
log entries 11 and 86). -/
def Obligations.FlashFrame : Prop :=
  ∀ (i : Instr) (s t : State) (k : Nat), exec i s = .next t → cellTouched s.card i k = false →
    KV.find t.card.media.cells k = KV.find s.card.media.cells k

/-- Mating, HCLK's stop, the start of soft start and VM's return set their own pins and nothing else, but that C2H lane 0
goes to electrical idle where HCLK stops in POWERED-UNCLOCKED (R136); soft start does not begin before PDC has been low
for 2 ms, after a final break, or before VM is back (R59, R64, R76, R79, R82). The dock port, the twin link and the
Balcony come with DPRES and go with it; with the Balcony absent its queue is empty (R54, R55, R582, R583). That VM_RESTORED
itself begins soft start is log entry 49 (DESIGN CHOICE), that a command with nothing to do does nothing log entry 1. -/
def Obligations.PinEvents : Prop :=
  (∀ s : State,
    exec .pdcMate s = .next { s with card := { s.card with power := { s.card.power with pdcLow := true } } } ∧
    (s.card.phase ≠ .poweredUnclocked →
      exec .hclkStop s = .next { s with card := { s.card with power := { s.card.power with hclk := false } } }) ∧
    (s.card.phase = .poweredUnclocked → exec .hclkStop s = .next { s with card := { s.card with
      power := { s.card.power with hclk := false }, link := { s.card.link with hold := false } } }) ∧
    (s.card.phase = .absent → s.card.power.pdcLow = true → s.card.power.broken = false → s.card.power.vmLow = false →
      exec .softStartBegin s =
        .next { s with card := { s.card with power := { s.card.power with softStarting := true } } }) ∧
    (s.card.phase ≠ .absent ∨ s.card.power.pdcLow = false ∨ s.card.power.broken = true ∨ s.card.power.vmLow = true →
      exec .softStartBegin s = .next s) ∧
    (s.card.power.vmLow = true → exec .vmRestored s = .next { s with card := { s.card with power :=
      { s.card.power with vmLow := false, softStarting := s.card.power.pdcLow && !s.card.power.broken } } }) ∧
    (s.card.power.vmLow = false → exec .vmRestored s = .next s)) ∧
  (∀ s : State,
    (s.card.phase ≠ .absent → s.card.power.hclk = true → s.card.power.dock = false →
      exec .dpresQualified s = .next { s with card := { s.card with
        power := { s.card.power with dock := true }, bal := { s.card.bal with slot := none, startDue := true } } }) ∧
    exec .dpresOpen s = .next { s with card := { s.card with
      power := { s.card.power with dock := false },
      bal := { s.card.bal with queue := [], slot := none, startDue := false } } })

/-- Soft start ends in POWERED-UNCLOCKED with the tread counter at 0, the strap sources on, every counter at 0, no
command known and no map; with HCLK the card holds C2H lane 0 low; the media keep their contents but for programs the
power loss left running (R99, R136, R139, R211, R248, R341, R585). A PDC break and an undervoltage trip of a powered card
end in ABSENT with everything DRAM held lost and every pin released; the media keep what they hold but for what dies had
finished while HCLK was absent (log entry 86); the break is final for the insertion, the trip awaits VM while PDC is
mated, as it does with the card still unpowered (R10, R62, R64, R77 to R79, R139, R248). The break during soft start and the
unpowered card are log entry 49, programs that run on at the loss log entry 50, the pages of a block whose erase it resets log
entry 82 (DESIGN CHOICE). -/
def Obligations.SupplyUpAndDown : Prop :=
  (∀ s : State, s.card.phase = .absent → s.card.power.softStarting = true →
    ∃ t, exec .softStartEnd s = .next t ∧ t.card.phase = .poweredUnclocked ∧ t.card.treads.c = 0 ∧
      t.card.power.strapSources = true ∧ t.card.power.softStarting = false ∧ t.card.power.hclk = s.card.power.hclk ∧
      (∀ n, n = 89 ∨ n = 90 ∨ t.card.counter n = 0) ∧ t.card.bal.seq = 0 ∧ t.card.ports.tags = [] ∧
      t.card.ports.seqCo = 0 ∧ t.card.ports.seqDco = 0 ∧ t.card.views.map = [] ∧ t.card.link.mode = .down ∧
      t.card.link.hold = s.card.power.hclk ∧
      t.card.out = (if s.card.power.hclk then .holdLow :: s.card.out else s.card.out) ∧
      t.card.alcove.memA = s.card.alcove.memA ∧ t.card.alcove.memB = s.card.alcove.memB ∧
      t.card.alcove.ledgerA = s.card.alcove.ledgerA ∧ t.card.alcove.ledgerB = s.card.alcove.ledgerB ∧
      (s.card.runningPrograms = [] → t.card.media.cells = s.card.media.cells)) ∧
  (∀ (s : State) (i : Instr), s.card.phase ≠ .absent → i = .pdcBreak ∨ i = .vmUndervoltageTrip →
    ∃ t, exec i s = .next t ∧ t.card.phase = .absent ∧ t.card.power.lnd = false ∧ t.card.power.dock = false ∧
      t.card.power.strapSources = false ∧ t.card.link.mode = .down ∧ t.card.ports.tags = [] ∧ t.card.views.valid = false ∧
      t.card.views.map = [] ∧ t.card.flights.held = none ∧ t.card.flights.acts = [] ∧ t.card.alcove.conf = none ∧
      t.card.losses.store = [] ∧ t.card.out = s.card.out ∧
      ((∀ n, (s.card.die n).late = none) → t.card.media.cells = s.card.media.cells) ∧
      (i = .pdcBreak → t.card.power.broken = true ∧ t.card.power.pdcLow = false) ∧
      (i = .vmUndervoltageTrip → t.card.power.broken = false ∧ t.card.power.vmLow = s.card.power.pdcLow)) ∧
  (∀ s : State, s.card.phase = .absent →
    exec .pdcBreak s = .next { s with card := { s.card with power := { s.card.power with
      pdcLow := false, softStarting := false, vmLow := false,
      broken := s.card.power.broken || s.card.power.softStarting } } } ∧
    exec .vmUndervoltageTrip s = .next { s with card := { s.card with power := { s.card.power with
      softStarting := false, broken := false, vmLow := s.card.power.pdcLow } } })

/-- HCLK absent for more than 33 ms: a MOUNTED or MOUNTING card discards its map, its tag table and its open flight,
sends nothing, and is READY-UNMOUNTED; any other keeps its state and its tags. LND, which was held until then, is
released (R35, R97, R139). HCLK returns: counting goes on, the lanes and the counter are as they were, and so are the
state and the media unless a die has finished something meanwhile (log entry 86); a trained link that no transfer uses
goes back to training frames (R34, R38, R220, R223). That HCLK_RETURN itself begins the retrain is log entry 53, that no lane
then counts as trained log entry 51. -/
def Obligations.ClockLossAndReturn : Prop :=
  (∀ s : State, s.card.phase ≠ .absent → s.card.power.hclk = false → s.card.power.hclkTripped = false →
    ∃ t, exec .hclkAbsenceDetectorTrip s = .next t ∧ t.card.power.hclkTripped = true ∧ t.card.power.lnd = false ∧
      t.card.out = s.card.out ∧ t.card.media.cells = s.card.media.cells ∧
      (s.card.phase = .mounted ∨ s.card.phase = .mounting →
        t.card.phase = .readyUnmounted ∧ t.card.views.valid = false ∧ t.card.views.map = [] ∧ t.card.ports.tags = [] ∧
          t.card.flights.records = [] ∧ t.card.flights.held = none ∧ t.card.flights.acts = []) ∧
      (s.card.phase ≠ .mounted → s.card.phase ≠ .mounting →
        t.card.phase = s.card.phase ∧ t.card.ports = s.card.ports ∧ t.card.views = s.card.views)) ∧
  (∀ s : State, s.card.phase ≠ .absent → s.card.power.hclk = false →
    ∃ t, exec .hclkReturn s = .next t ∧ t.card.power.hclk = true ∧ t.card.power.hclkTripped = false ∧
      t.card.treads.c = s.card.treads.c ∧ t.card.link.lanes = s.card.link.lanes ∧
      ((∀ n, (s.card.die n).late = none) → t.card.phase = s.card.phase ∧ t.card.media.cells = s.card.media.cells ∧
        (s.card.link.mode = .up → s.card.link.hold = false → s.card.phase ≠ .linkTraining → s.card.cuts = [] →
          s.card.flights.acts = [] → t.card.link.mode = .training ∧ t.card.link.trained = 0 ∧
            t.card.link.reqResult = .none ∧ t.card.ports.tags = s.card.ports.tags)))

/-- The strap table: each threshold, in tenths of a millivolt, decodes as the level above it, one tenth less as the
level below (R108). -/
def Obligations.StrapThresholds : Prop :=
  ([200, 490, 728, 1057, 1495, 2067, 2824, 3811, 5087, 6790, 9047, 12055, 16073, 21437, 27000].zipIdx).all (fun x =>
    (strapLevel x.1).toNat == x.2 + 1 && (strapLevel (x.1 - 1)).toNat == x.2) = true ∧
  ∀ v w : Nat, v ≤ w → (strapLevel v).toNat ≤ (strapLevel w).toNat

/-- The power-up strap read starts with every contact, once sources and clock are there (R110, R601). An address
contact that is not stable after three repeats decodes as level 15 and is marked; the slot address is 0xFFF and the
group 15, while the other contacts keep their levels (R113, R127). A repeat needs conversions of the contacts alone that
are not yet stable (R601). -/
def Obligations.StrapReadPasses : Prop :=
  (∀ s : State, s.card.phase = .poweredUnclocked → s.card.power.hclk = true → s.card.power.strapSources = true →
    s.card.straps.reading = none →
    exec .powerUpStrapRead s = .next { s with card := { s.card with straps := { s.card.straps with
      reading := some { kind := .powerUp, pass := 0, todo := allStraps, got := .unread } } } }) ∧
  (∀ (s : State) (p : StrapPass) (g : StrapSet) (a : StrapId),
    a = .adh ∨ a = .adm ∨ a = .adl → strapDecode (passOf p a) = none → s.card.power.hclk = true →
    (s.card.straps.reading = some { kind := .mount, pass := 3, todo := [a], got := g } →
      ∃ t, exec (.strapReadPassEnd p) s = .next t ∧ t.card.straps.slot = 0xFFF ∧ t.card.straps.group = 15 ∧
        (t.card.straps.vals.get a).level = 15 ∧ (t.card.straps.vals.get a).unstable = true ∧
        ∀ b, b ≠ a → t.card.straps.vals.get b = g.get b) ∧
    ∀ n k, n < 3 → s.card.straps.reading = some { kind := k, pass := n, todo := [a], got := g } →
      exec (.strapReadPassEnd p) s = .next { s with card := { s.card with straps := { s.card.straps with
        reading := some { kind := k, pass := n + 1, todo := [a], got := g } } } })

/-- The slot address is ADH × 256 + ADM × 16 + ADL (R126) and the group its bits 11 to 8, once a pass finds every
contact stable; the power-up read then ends, every level is latched, and the card is LOADING (R115, R127, R139). -/
def Obligations.StablePassLatches : Prop :=
  ∀ (s : State) (p : StrapPass) (n : Nat) (g : StrapSet) (l : StrapId → BitVec 4),
    s.card.straps.reading = some { kind := .powerUp, pass := n, todo := allStraps, got := g } →
    s.card.phase = .poweredUnclocked → s.card.power.hclk = true →
    (∀ i, strapDecode (passOf p i) = some (l i)) →
    ∃ t, exec (.strapReadPassEnd p) s = .next t ∧ t.card.phase = .loading ∧ t.card.straps.reading = none ∧
      (∀ i, (t.card.straps.vals.get i).level = l i ∧ (t.card.straps.vals.get i).unstable = false) ∧
      t.card.straps.slot.toNat = (l .adh).toNat * 256 + (l .adm).toNat * 16 + (l .adl).toNat ∧
      t.card.straps.group = l .adh ∧ t.card.alcove.trying = some (s.card.alcove.first, false)

/-- The loader: a loadable alcove with a record brings LINK-TRAINING, with none FAULT; an alcove that is not loadable
leaves the other one to try, or FAULT where it was the second (R139, R549, R602). With LOADING's end C2H lane 0 is held
low no more: the resync pattern, then training frames (R136, R215). -/
def Obligations.LoaderOutcomes : Prop :=
  ∀ (s : State) (x : AlcoveId) (second : Bool), s.card.phase = .loading → s.card.power.hclk = true →
    s.card.alcove.trying = some (x, second) →
    ∃ t, exec .alcoveCopyComplete s = .next t ∧
      ((s.card.alcove.mem x).loadable = true → ∀ f, s.card.alcove.loadConf = some f →
        t.card.phase = .linkTraining ∧ t.card.alcove.inUse = some x ∧ t.card.alcove.conf = some f ∧
          t.card.link.mode = .training ∧ t.card.link.trained = 0 ∧ t.card.link.hold = false ∧
          t.card.out = .training t.card.laneCap false :: .resync :: s.card.out) ∧
      ((s.card.alcove.mem x).loadable = true → s.card.alcove.loadConf = none →
        t.card.phase = .fault ∧ t.card.alcove.inUse = s.card.alcove.inUse ∧ t.card.link.mode = .training) ∧
      ((s.card.alcove.mem x).loadable = false → second = false →
        t.card.phase = .loading ∧ t.card.alcove.trying = some (x.other, true)) ∧
      ((s.card.alcove.mem x).loadable = false → second = true →
        t.card.phase = .fault ∧ t.card.link.mode = .training)

/-- A tick advances the tread counter by one, wrapping, in every state from the end of soft start on while HCLK runs; it
counts the tick and does nothing else, and nothing at all otherwise (R17, R33, R341, R342). -/
def Obligations.TreadTickCounts : Prop :=
  ∀ s : State,
    (s.card.phase ≠ .absent → s.card.power.hclk = true → exec .treadTick s =
      .next { s with card := { s.card with treads :=
        { s.card.treads with c := s.card.treads.c + 1, ticks := s.card.treads.ticks + 1 } } }) ∧
    (s.card.phase = .absent ∨ s.card.power.hclk = false → exec .treadTick s = .next s)

/-- Treads are compared modulo 2^48: T is ahead of c by d = (T - c) mod 2^48 when d < 2^47, otherwise behind it by
2^48 - d (R342). A timed command's tread has the low 32 bits given and lies at or after c - 2^31 and before c + 2^31
(R310). Flight A is ahead of B when (A - B) mod 2^32 lies from 1 to 2^31 - 1; at 0 and 2^31 neither is ahead of the
other (R375). -/
def Obligations.TreadAndFlightOrder : Prop :=
  (∀ t c : Tread,
    (treadNotPast t c = true ↔ (t.toNat + 2 ^ 48 - c.toNat) % 2 ^ 48 < 2 ^ 47) ∧
    treadAhead t c = (t.toNat + 2 ^ 48 - c.toNat) % 2 ^ 48 ∧
    (treadNotPast t c = false → treadAhead c t = 2 ^ 48 - (t.toNat + 2 ^ 48 - c.toNat) % 2 ^ 48)) ∧
  (∀ (low : BitVec 32) (c : Tread),
    (nameTread low c).setWidth 32 = low ∧
      ((nameTread low c - (c - BitVec.ofNat 48 (2 ^ 31))).toNat < 2 ^ 32)) ∧
  (∀ a b : Flight,
    (flightAhead a b = true ↔
      1 ≤ (a.toNat + 2 ^ 32 - b.toNat) % 2 ^ 32 ∧ (a.toNat + 2 ^ 32 - b.toNat) % 2 ^ 32 ≤ 2 ^ 31 - 1) ∧
    ((a.toNat + 2 ^ 32 - b.toNat) % 2 ^ 32 = 0 ∨ (a.toNat + 2 ^ 32 - b.toNat) % 2 ^ 32 = 2 ^ 31 →
      flightAhead a b = false ∧ flightAhead b a = false))

/-- The card acts on a training request whose sequence differs from the one it last acted on, and ignores a repeat
(R203); it reports a HOLD and a SET PRESET below the lane cap as accepted, the preset set on that lane alone, and a
SET PRESET at or above the cap and a reserved code as refused with nothing else changed (R205, R607). Before any request has
been acted on every sequence differs (log entry 73; DESIGN CHOICE). -/
def Obligations.TrainingRequests : Prop :=
  ∀ (s : State) (seq code : BitVec 4) (lane : BitVec 2) (p lc : BitVec 3),
    let done (r : ReqResult) : Host.Outcome State Fault Refusal := .next { s with card := { s.card with
      link := { s.card.link with reqSeq := some seq, reqResult := r } } }
    (s.card.link.reqSeq = some seq → exec (.trainingHold seq) s = .next s ∧ exec (.setPreset seq lane p) s = .next s ∧
      exec (.ready seq lc) s = .next s ∧ exec (.reservedTrainingRequest seq code) s = .next s) ∧
    (s.card.trainable = true → s.card.link.reqSeq ≠ some seq →
      exec (.trainingHold seq) s = done .accepted ∧
      (3 ≤ code.toNat → exec (.reservedTrainingRequest seq code) s = done .refused) ∧
      (s.card.laneCap ≤ lane.toNat → exec (.setPreset seq lane p) s = done .refused) ∧
      (lane.toNat < s.card.laneCap → ∃ t, exec (.setPreset seq lane p) s = .next t ∧ t.card.link.preset lane = p ∧
        (∀ k, k ≠ lane → t.card.link.preset k = s.card.link.preset k) ∧ t.card.link.reqSeq = some seq ∧
        t.card.link.reqResult = .accepted ∧ t.card.link.mode = s.card.link.mode ∧
        t.card.link.trained = s.card.link.trained))

/-- The card accepts READY with lane count n only when n is 1, 2 or 4, n is no greater than the cap, and H2C lanes 0
to n - 1 are all trained; it refuses any other READY and goes on training (R206). An accepted READY sends training
frames and then a marker with count 0 on lanes 0 to n - 1, and its count takes effect (R184, R207, R223). -/
def Obligations.ReadyRule : Prop :=
  ∀ (s : State) (seq : BitVec 4) (lc : BitVec 3), s.card.trainable = true → s.card.link.reqSeq ≠ some seq →
    let n := lc.toNat
    let fit : Prop := (n = 1 ∨ n = 2 ∨ n = 4) ∧ n ≤ s.card.laneCap ∧ ∀ k, k < n → s.card.link.trained.getLsbD k = true
    (fit → ∃ t, exec (.ready seq lc) s = .next t ∧ t.card.link.mode = .accepted n ∧ t.card.link.lanes = n ∧
      t.card.link.reqResult = .accepted ∧ t.card.link.reqSeq = some seq ∧ t.card.link.txMarker = 1 ∧
      t.card.out = .marker n 0 :: .training s.card.laneCap false :: s.card.out) ∧
    (¬ fit → exec (.ready seq lc) s = .next { s with card := { s.card with
      link := { s.card.link with reqSeq := some seq, reqResult := .refused } } })

/-- A lane that has trained counts as trained and reports a margin of at least 1 (R204, R606), from the link's going down
to its first marker. The first H2C marker after an accepted READY ends training, and LINK-TRAINING with it: from here on
lane-frames are received (R207, R210). A card in another state keeps it. -/
def Obligations.TrainingLanes : Prop :=
  (∀ (s : State) (lane : BitVec 2) (m : Byte), s.card.trainable = true →
    ∃ t, exec (.laneTrained lane m) s = .next t ∧ t.card.link.trained = s.card.link.trained ||| (1#4 <<< lane.toNat) ∧
      KV.find t.card.link.margins lane.toNat = some (if m = 0 then 1 else m) ∧ t.card.link.mode = s.card.link.mode ∧
      t.card.out = s.card.out) ∧
  (∀ (s : State) (n : Nat), s.card.link.mode = .accepted n → s.card.power.hclk = true →
    ∃ t, exec .firstH2cMarker s = .next t ∧ t.card.link.mode = .up ∧ t.card.link.lanes = s.card.link.lanes ∧
      t.card.link.owed = [] ∧ t.card.link.hostTrains = false ∧
      t.card.phase = (if s.card.phase = .linkTraining then .readyUnmounted else s.card.phase))

/-- With no H2C marker in time the card returns to training frames with retrain requested set (R209). That it then reports no
result is log entry 74, that the lanes trained stay trained log entry 51 (both DEDUCED). -/
def Obligations.MarkerTimeoutRetrains : Prop :=
  ∀ (s : State) (n : Nat), s.card.link.mode = .accepted n → s.card.power.hclk = true →
    exec .h2cMarkerTimeout s = .next { s with card := { s.card with
      link := { s.card.link with mode := .training, reqResult := .none, retrainReq := true },
      out := .training s.card.laneCap true :: s.card.out } }

/-- A retrain of a link that no transfer uses: training frames on every lane the cap allows, no lane trained, retrain
requested only where the card asks for it, which it does where one of R218's conditions holds on some lane; the lane
count and the state stay (R140, R217, R218, R223). While C2H lane 0 is held low the host's training frames are ignored,
and both wait for the hold's end (R216). A retrain ends a READ or VERIFY whose data has not started, and a stream that
has sent no segment, with LANE-CHECK, cause 0x05 and mask 0, and a stream between segments or a WRITE whose transfer is
under way with the mask of every lane in use, whatever else is outstanding (R198, R220, R221, R279). That a VERIFY and such a
stream go with R221's READ is log entry 107, that no lane counts as trained afterwards log entry 51, and that a retrain asked
for during a hold begins with the hold's end log entry 52. -/
def Obligations.RetrainRule : Prop :=
  (∀ (s : State) (k : RetrainCause) (m : BitVec 4), s.card.link.mode = .up → s.card.power.hclk = true →
    (s.card.link.hold = false → s.card.cuts = [] → s.card.flights.acts = [] →
      (∃ t, exec .hostRetrain s = .next t ∧ t.card.link.mode = .training ∧ t.card.link.trained = 0 ∧
        t.card.link.retrainReq = false ∧ t.card.link.lanes = s.card.link.lanes ∧ t.card.phase = s.card.phase ∧
        t.card.out = .training s.card.laneCap false :: s.card.out) ∧
      (s.card.retrainLanes k m ≠ 0 →
        ∃ t, exec (.cardRetrainRequest k m) s = .next t ∧ t.card.link.mode = .training ∧ t.card.link.trained = 0 ∧
          t.card.link.retrainReq = true ∧ t.card.link.lanes = s.card.link.lanes ∧ t.card.phase = s.card.phase ∧
          t.card.out = .training s.card.laneCap true :: s.card.out)) ∧
    (s.card.link.hold = true →
      exec .hostRetrain s =
        .next { s with card := { s.card with link := { s.card.link with
          hostTrains := true, holdCause := s.card.link.holdCause.or (some (0x01, 0)) } } } ∧
      (s.card.retrainLanes k m ≠ 0 → exec (.cardRetrainRequest k m) s = .next { s with card := { s.card with
        link := { s.card.link with
          hostTrains := true, retrainReq := true
          holdCause := s.card.link.holdCause.or (some (retrainCode k, s.card.retrainLanes k m)) } } })) ∧
    (s.card.retrainLanes k m = 0 → exec (.cardRetrainRequest k m) s = .next s)) ∧
  (∀ s : State, s.card.link.mode = .up → s.card.power.hclk = true → s.card.link.hold = false →
    s.card.flights.acts = [] →
    let all := (laneMask s.card.link.lanes).toNat
    ∃ t, exec .hostRetrain s = .next t ∧
      ∀ (g : Tag) (e : TagEntry) (k : Cmd), s.card.tagEntry g = some e → e.state = .outstanding k →
        ((∃ w, k = .read w ∨ k = .verify w) →
          t.card.tagEntry g = some { e with state := .completed stLaneCheck (info3 0 5 0) }) ∧
        (∀ w, k = .stream w → t.card.tagEntry g =
          some { e with state := .completed stLaneCheck (info3 (if w.sent = 0 then 0 else all) 5 0) }) ∧
        (∀ w x, k = .write w → w.discard = false → w.stage = .data → w.xfer = some x → x.failed = 0 →
          t.card.tagEntry g = some { e with state := .completed stLaneCheck (info3 all 5 0) }))

/-- MARKER_SEND, MARKER_RECEIVED, HOLD_BEGIN and IDLE_FRAME complete. A marker is sent on every lane in use, with a count
that rises by one and wraps (R183, R184). A received marker's count, the slot it came in and its lane's margin are kept
for its lane, whose uncorrectable codewords are counted anew (R185, R218, R606). At a slot boundary C2H lane 0 begins to
be held low for an activity that holds it; a link then training goes on training only when the hold ends (R211, R212,
R216). An idle frame is discarded after decoding: the lane's codeword counts and its receiver apart, nothing changes
(R174, R178, R182). -/
def Obligations.MarkersHoldAndIdle : Prop :=
  (∀ s : State, s.card.sendsFrames = true →
    exec .markerSend s = .next { s with card := { s.card with
      link := { s.card.link with txMarker := s.card.link.txMarker + 1 },
      out := .marker s.card.link.lanes s.card.link.txMarker :: s.card.out } }) ∧
  (∀ (s : State) (lane : BitVec 2) (mark : SeenMarker) (m : Byte), s.card.laneOpen lane = true →
    exec (.markerReceived lane mark m) s = .next { s with card := { s.card with
      link := { s.card.link with
        rxMarkers := KV.put s.card.link.rxMarkers lane.toNat (mark.count, mark.slot),
        badWords := KV.drop s.card.link.badWords lane.toNat,
        margins := KV.put s.card.link.margins lane.toNat (if m = 0 then 1 else m) } } }) ∧
  (∀ s : State, s.card.link.holdDue = true → s.card.holds = true → s.card.link.hold = false →
    s.card.link.mode ≠ .down → s.card.power.hclk = true →
    ∃ t, exec .holdBegin s = .next t ∧ t.card = { s.card with
      link := { s.card.link with hold := true, holdDue := false,
                                 hostTrains := s.card.link.hostTrains || s.card.link.mode != .up },
      out := .holdLow :: s.card.out, bal := t.card.bal }) ∧
  (∀ (s : State) (w : LaneWord), s.card.hearsWord w .idle = true →
    let x := s.card.decodeWord w
    let k := w.lane.toNat
    let bit : BitVec 4 := 1#4 <<< k
    let n := if x.bad then 72 + k else 64 + k
    ∃ t, exec (.idleFrame w.lane w.syms) s = .next t ∧
      t.card = { s.card with
        link := { s.card.link with
          lastBad := if x.bad then s.card.link.lastBad ||| bit else s.card.link.lastBad &&& ~~~bit,
          badWords := if x.bad then KV.put s.card.link.badWords k (KV.getD s.card.link.badWords k 0 + 1)
            else s.card.link.badWords,
          rxScramble := KV.put s.card.link.rxScramble k x.next },
        bal := t.card.bal } ∧
      KV.getD t.card.bal.counts n 0 =
        (KV.getD s.card.bal.counts n 0 + (if x.bad then 1 else x.corrected)) % 2 ^ 32)

/-- A data frame of a tag whose GO is outstanding joins the frames received of its transfer, in the order they come; after
its lane's trailer it makes the lane count as failed, and so does one that is uncorrectable or follows an uncorrectable
codeword, with cause 0x02. One of any other tag is discarded and counted in BC-06 and changes neither a transfer nor a
command (R178, R191, R195, R198). An uncorrectable codeword's tag is that of its header as received (log entry 60; DESIGN
CHOICE). -/
def Obligations.DataFrameRule : Prop :=
  ∀ (s : State) (w : LaneWord), s.card.hearsWord w .data = true →
    let f := s.card.decodeWord w
    let lane := w.lane.toNat
    let ill := f.bad || s.card.link.lastBad.getLsbD lane
    ∃ t, exec (.dataFrame w) s = .next t ∧
      (s.card.openXfer f.tag = none → t.card.ports = s.card.ports ∧
        KV.getD t.card.bal.counts 6 0 = (KV.getD s.card.bal.counts 6 0 + 1) % 2 ^ 32) ∧
      ∀ k x, s.card.openXfer f.tag = some (k, x) →
        ∃ y, t.card.openXfer f.tag = some ({ k with xfer := some y }, y) ∧ y.trailers = x.trailers ∧
          (ill = false → y.frames = x.frames ++ [{ lane := lane, index := f.index, payload := f.payload }] ∧
            (KV.find x.trailers lane = none → y.failed = x.failed) ∧
            ((KV.find x.trailers lane).isSome = true → y.failed.getLsbD lane = true)) ∧
          (ill = true → y.frames = x.frames ∧ y.failed = x.failed ||| (1#4 <<< lane) ∧
            y.cause = some (x.cause.getD 0x02))

/-- A transfer ends with the trailer of its last lane: where that lane has failed the WRITE ends with LANE-CHECK, the
mask and the cause; a trailer whose fields disagree fails with cause 0x03, one whose CRC-32C disagrees with cause
0x01; otherwise the data is the frames in striping order, and a WRITE that an earlier command delays holds it (R188,
R195 to R198, R289). A WRITE that holds GO and gets no frame for 10 ms ends with LANE-CHECK, cause 0x06, every lane
whose trailer is missing marked in the mask (R199). With no trailer received that is every lane in use. A damaged trailer's
tag is log entry 60, that its fields are looked at before its CRC log entry 61 (DESIGN CHOICE). -/
def Obligations.TrailerRules : Prop :=
  (∀ (s : State) (v : LaneWord) (e : TagEntry) (w : WriteWork) (x : Xfer), s.card.hearsWord v .trailer = true →
    let f := s.card.decodeWord v
    let n := s.card.link.lanes
    let k := v.lane.toNat
    s.card.tagEntry f.tag = some e → s.card.openXfer f.tag = some (w, x) → x.failed = 0 → x.cause = none →
    (∀ i, i < n → i ≠ k → (KV.find x.trailers i).isSome = true) →
    let failedWith (t : State) (cause : Nat) : Prop :=
      t.card.tagEntry f.tag = some { e with state := .completed stLaneCheck (info3 (1#4 <<< k).toNat cause 0) }
    let clean : Prop := f.bad = false ∧ s.card.link.lastBad.getLsbD k = false
    ∃ t, exec (.trailerFrame v) s = .next t ∧
      (f.bad = true → failedWith t 2) ∧
      (clean → x.check n k e.issue (trailerOf f.payload) = some 0x03 → failedWith t 3) ∧
      (clean → x.check n k e.issue (trailerOf f.payload) = some 0x01 → failedWith t 1) ∧
      (clean → x.check n k e.issue (trailerOf f.payload) = none → w.delayed = true →
        t.card.cmdOf f.tag = some (.write { w with stage := .merging, xfer := none, data := x.joined n }))) ∧
  (∀ (s : State) (g : Tag) (e : TagEntry) (w : WriteWork) (x : Xfer), s.card.openXfer g = some (w, x) →
    s.card.tagEntry g = some e → s.card.power.hclk = true →
    ∃ t, exec (.trailerTimeout g) s = .next t ∧
      ∃ m : BitVec 4, t.card.tagEntry g = some { e with state := .completed stLaneCheck (info3 m.toNat 6 0) } ∧
        ∀ k, k < 4 → m.getLsbD k = (x.failed.getLsbD k || (decide (k < s.card.link.lanes) && (KV.find x.trailers k).isNone)))

/-- What the card sends of a transfer passes the card's own lane checks: with the frames the striping rule gives each lane
received in their order, every lane's trailer agrees with them, and putting them together gives the bytes back (R188 to
R190, R193, R195). A trailer's 640 bytes give its fields back (R193). -/
def Obligations.SentLanesCheck : Prop :=
  (∀ (x : C2h) (y : Xfer), x.lanes = 1 ∨ x.lanes = 2 ∨ x.lanes = 4 → x.bytes.length ≤ 2621440 →
    y.bytes = x.bytes.length → (∀ k, k < x.lanes → y.lane k = x.laneFrames k) →
    (∀ k, k < x.lanes → y.check x.lanes k x.issue (x.trailer k) = none) ∧ y.joined x.lanes = x.bytes) ∧
  ∀ t : Trailer, (trailerBytes t).length = 640 ∧ trailerOf (trailerBytes t) = t

/-- A descrambler that starts from the scrambler's state gives back every bit, and ends in the scrambler's state
(R177). A codeword of 514 message symbols has 544, its message first, and decodes as it stands with nothing corrected
(R172, R174, R175; the code's polynomials are log entry 70, PRESUMED). A response is 8 bytes, its CRC-8 over the first
seven (R235, R236); CRC-8, CRC-16, CRC-32C, CRC-32 and CRC-64 have the check values the spec gives over the ASCII bytes
123456789 (R194, R236, R523). -/
def Obligations.WireBytes : Prop :=
  (∀ p b : Nat, p < 2 ^ 58 → b < 2 ^ 5120 → descramble p (scramble p b).1 = (b, (scramble p b).2)) ∧
  (∀ m : List Nat, m.length = 514 → (∀ x, x ∈ m → x < 1024) →
    (rsEncode m).length = 544 ∧ (rsEncode m).take 514 = m ∧ rsDecode (rsEncode m) = some (rsEncode m, 0)) ∧
  (let nine : List Byte := [0x31, 0x32, 0x33, 0x34, 0x35, 0x36, 0x37, 0x38, 0x39]
  crc8 nine = 0xF4 ∧ crc16 nine = 0x29B1 ∧ crc32c nine = 0xE3069283 ∧ crc32c [] = 0 ∧ crc32 nine = 0xCBF43926 ∧
    crc64 0 nine = 0x6C40DF5F0B497347 ∧
    ∀ r : Resp, r.bytes.length = 8 ∧ r.bytes.drop 7 = [crc8 (r.bytes.take 7)])

/-- The order R245 checks a frame in: a port that receives nothing takes no frame; a length its port does not allow is
BAD-FRAME; a frame on an outstanding tag is TAG-BUSY; a completed tag under the same issue bit answers OK-DUPLICATE to
the same frame and PROTOCOL to another; then an opcode not listed, a port not entitled, the state's own answer, and an
unused field that is set. Nothing but the answer happens in the first five. -/
def Obligations.FrameCheckOrder : Prop :=
  ∀ (i : Instr) (op : Byte) (f : Frame) (s : State), commandOf i = some (op, f) →
    let taken : Prop := s.card.receives f.port = true ∧ lengthOk f = true
    (s.card.receives f.port = false → exec i s = .next s) ∧
    (s.card.receives f.port = true → lengthOk f = false →
      exec i s = run (fun c => c.badFrame f.port f.tag 0x03 op) s) ∧
    (taken → ∀ e k, s.card.tagEntry f.tag = some e → e.state = .outstanding k →
      exec i s = .next { s with card := s.card.sendInterim f.port f.tag stTagBusy 0 }) ∧
    (taken → ∀ e st info, s.card.tagEntry f.tag = some e → e.state = .completed st info → e.issue = f.issue →
      (sameFrame op f e = true → exec i s = run (fun c => c.sendFinal f.port f.tag stDuplicate
        (info3 st.toNat (infoByte info 0).toNat (infoByte info 1).toNat) false) s) ∧
      (sameFrame op f e = false → exec i s = run (fun c => c.sendFinal f.port f.tag stProtocol 0 false) s)) ∧
    (taken → s.card.tagOpen f = true → ∃ t, exec i s = .next t ∧
      (listed op = false → t.card.ended op f stProtocol 0) ∧
      (listed op = true → entitled f.port op = false → t.card.ended op f stPortRefused 0) ∧
      (listed op = true → entitled f.port op = true → ∀ st, s.card.step7 op f = some st → t.card.ended op f st 0) ∧
      (listed op = true → entitled f.port op = true → s.card.step7 op f = none → fieldsOk op f = false →
        t.card.ended op f stProtocol 0))

/-- A frame that R245 takes to step 8 makes its tag outstanding and reaches its command's chapter, for each of the
listed commands (R245). -/
def Obligations.CommandsReachTheirChapters : Prop :=
  ∀ (s : State) (f : Frame),
    let at8 (i : Instr) (op : Byte) (k : Cmd) (g : Card → Card) : Prop := s.card.admits op f = true →
      (s.card.accept op f k).working op f k ∧ exec i s = run (fun c => g (c.accept op f k)) s
    at8 (.read f) opRead (.read .empty) (Card.doRead · f) ∧
    at8 (.readStream f) opStream (.stream (.start false 0 0)) (Card.doStream · f) ∧
    at8 (.stop f) opStop .timed (Card.doStop · f) ∧ at8 (.verify f) opVerify (.verify .empty) (Card.doVerify · f) ∧
    at8 (.write f) opWrite .timed (Card.doWrite · f) ∧ at8 (.discardZ f) opDiscardZ .timed (Card.doDiscardZ · f) ∧
    at8 (.discardH f) opDiscardH .timed (Card.doDiscardH · f) ∧ at8 (.land f) opLand .timed (Card.doLand · f) ∧
    at8 (.rollback f) opRollback .timed (Card.doRollback · f) ∧
    at8 (.service f) opService .timed (Card.doWindow · f false) ∧
    at8 (.quiet f) opQuiet .timed (Card.doWindow · f true) ∧ at8 (.mount f) opMount (.mount false) (Card.doMount · f) ∧
    at8 (.close f) opClose .close (Card.doClose · f) ∧
    at8 (.inquire f) opInquire (.inquire f.arg.toNat) (Card.doInquire · f) ∧
    at8 (.forceClose f) opForceClose .dockOp (Card.doForceClose · f) ∧
    at8 (.format f) opFormat .dockOp (Card.doFormat · f) ∧ at8 (.sanitize f) opSanitize .dockOp (Card.doSanitize · f) ∧
    at8 (.alcoveLoad f) opAlcoveLoad .dockOp (Card.doLoad · f) ∧
    at8 (.alcoveSwap f) opAlcoveSwap .dockOp (Card.doSwap · f)

/-- UNLISTED_OPCODE completes, its own effect being its answer: on an open tag one final response PROTOCOL on the port it
came by, and its tag completed with it; it counts as a command of its port, and its trace apart nothing else changes
(R245 step 5). -/
def Obligations.UnlistedOpcodeAnswered : Prop :=
  ∀ (s : State) (op : Byte) (f : Frame), listed op = false → s.card.receives f.port = true → lengthOk f = true →
    s.card.tagOpen f = true →
    ∃ t, exec (.unlistedOpcode op f) s = .next t ∧ t.card.ended op f stProtocol 0 ∧
      t.card.out = s.card.respNow f.port 0 f.tag stProtocol 0 false :: s.card.out ∧
      (∀ h, h ≠ f.tag → t.card.tagEntry h = s.card.tagEntry h) ∧
      (let n : Nat := if f.port = .ci then 2 else 3
       KV.getD t.card.bal.counts n 0 = (KV.getD s.card.bal.counts n 0 + 1) % 2 ^ 32) ∧
      { t.card with out := s.card.out, ports := s.card.ports, bal := s.card.bal } = s.card

/-- An OK-DUPLICATE answer carries the stored final status in info byte 3 and the stored info bytes 3 and 4 in info
bytes 4 and 5, and the flags at the time of the answer; the card executes nothing for it (R246). -/
def Obligations.DuplicateAnswer : Prop :=
  ∀ (i : Instr) (op : Byte) (f : Frame) (s : State) (e : TagEntry) (st : Status) (info : BitVec 24),
    commandOf i = some (op, f) → s.card.receives f.port = true → lengthOk f = true →
    s.card.tagEntry f.tag = some e → e.state = .completed st info → e.issue = f.issue → sameFrame op f e = true →
    ∃ (t : State) (r : Resp), exec i s = .next t ∧ t.card.out = .resp f.port r :: s.card.out ∧ r.kind = 0 ∧
      r.code = f.tag ∧ r.status = 0x01 ∧ r.flags = s.card.flags false ∧ infoByte r.info 0 = st ∧
      infoByte r.info 1 = infoByte info 0 ∧ infoByte r.info 2 = infoByte info 1 ∧
      { t.card with out := s.card.out, ports := s.card.ports, bal := s.card.bal } = s.card ∧
      t.card.ports.tags = s.card.ports.tags

/-- Ending an outstanding command sends exactly one final response, on the port the command arrived on, numbered by
that port's own sequence, and completes its tag with the status and info sent; another tag's entry stays, a WRITE's but
for the wings its inline reclaim still has to erase; on a tag with no command outstanding nothing happens (R239, R240,
R244). -/
def Obligations.OneFinalResponse : Prop :=
  ∀ (c : Card) (g : Tag) (st : Status) (info : BitVec 24) (z : Bool),
    (∀ e k, c.tagEntry g = some e → e.state = .outstanding k → c.portUp e.port = true →
      (c.finish g st info z).out = c.respNow e.port 0 g st info z :: c.out ∧
      (c.finish g st info z).tagEntry g = some { e with state := .completed st info } ∧
      (c.finish g st info z).ports.seqCo = (if e.port = .ci then c.ports.seqCo + 1 else c.ports.seqCo) ∧
      (c.finish g st info z).ports.seqDco = (if e.port = .dci then c.ports.seqDco + 1 else c.ports.seqDco) ∧
      ∀ h, h ≠ g →
        ((∀ w, c.cmdOf h ≠ some (.write w)) → (c.finish g st info z).tagEntry h = c.tagEntry h) ∧
        ∀ w, c.cmdOf h = some (.write w) →
          ∃ l, (c.finish g st info z).cmdOf h = some (.write { w with inlineErases := l })) ∧
    (c.cmdOf g = none → c.finish g st info z = c)

/-- RANGE: a count of 0 or above 640, or any sector named at or beyond 16 × C (R260), for READ, VERIFY, WRITE,
DISCARD.Z and DISCARD.H, and for READ STREAM a first sector or a last one there. A command that needs a lane transfer and
arrives while the link is training ends with LANE-CHECK, cause 0x05 and mask 0, without executing (R221). -/
def Obligations.RangeAndNoLinkAnswers : Prop :=
  (∀ (s : State) (f : Frame),
    let cap := 16 * s.card.capacity
    let bad : Prop := f.count.toNat = 0 ∨ 640 < f.count.toNat ∨ cap < f.sector.toNat + f.count.toNat
    (bad → ∀ i op, (i = .read f ∧ op = opRead) ∨ (i = .verify f ∧ op = opVerify) ∨ (i = .write f ∧ op = opWrite) ∨
      (i = .discardZ f ∧ op = opDiscardZ) ∨ (i = .discardH f ∧ op = opDiscardH) → s.card.admits op f = true →
      ∃ t, exec i s = .next t ∧ t.card.ended op f stRange 0) ∧
    (cap ≤ f.sector.toNat ∨ cap < f.sector.toNat + f.arg.toNat → s.card.admits opStream f = true →
      ∃ t, exec (.readStream f) s = .next t ∧ t.card.ended opStream f stRange 0)) ∧
  (∀ (s : State) (f : Frame), s.card.link.mode ≠ .up →
    (s.card.rangeOk f = true → ∀ i op, (i = .read f ∧ op = opRead) ∨ (i = .verify f ∧ op = opVerify) →
      s.card.admits op f = true → ∃ t, exec i s = .next t ∧ t.card.ended op f stLaneCheck (info3 0 5 0) ∧
        (∀ n, (t.card.die n).op = (s.card.die n).op) ∧ t.card.media.cells = s.card.media.cells) ∧
    (∀ total : Nat, s.card.admits opStream f = true →
      total = (if f.arg = 0 then 16 * s.card.capacity - f.sector.toNat else f.arg.toNat) → 1 ≤ total →
      f.sector.toNat + total ≤ 16 * s.card.capacity →
      ∃ t, exec (.readStream f) s = .next t ∧ t.card.ended opStream f stLaneCheck (info3 0 5 0)) ∧
    (s.card.admits opWrite f = true → (s.card.accept opWrite f .timed).writeRefusal opWrite f = none →
      ∃ t, exec (.write f) s = .next t ∧ t.card.ended opWrite f stLaneCheck (info3 0 5 0)) ∧
    (s.card.admits opInquire f = true → f.port = .ci → s.card.link.hold = false →
      ∃ t, exec (.inquire f) s = .next t ∧ t.card.ended opInquire f stLaneCheck (info3 0 5 0)))

/-- A READ of sectors for which the selected view holds no data sends 4,096 zero bytes for each as one C2H transfer
and then its final OK with Z (R268, R269). One whose bays are all at hand is answered at once: the data as one transfer,
then OK, or LOST with the first lost bay's offset, Z set where some sector had no data (R251, R268, R270). A READ
resolves its bays against the selected view when it is accepted and stays outstanding while one of them has to be read
from a die (R263, R267). A VERIFY of bays with no sector written returns one byte for each bay, all UNMAPPED, and its
final OK with no WEAK and no FAIL counted (R280, R281). The lanes' scramblers start a transfer at free values (log entry
71). -/
def Obligations.ReadAndVerify : Prop :=
  (∀ (s : State) (f : Frame), s.card.admits opRead f = true → s.card.link.mode = .up → s.card.rangeOk f = true →
    (∀ b, b ∈ baysOf f.sector.toNat f.count.toNat → ∀ k, s.card.resolve (f.flags.getLsbD 0) b ≠ .at k) →
    ∃ t, exec (.read f) s = .next t ∧ t.card.ended opRead f stOk 0 ∧
      t.card.out = s.card.respNow f.port 0 f.tag stOk 0 true ::
        .c2h { tag := f.tag, issue := f.issue, lanes := s.card.link.lanes, seed := s.card.freeCount,
               bytes := List.replicate (4096 * f.count.toNat) 0 } :: s.card.out ∧
      KV.getD t.card.bal.counts 1 0 = (KV.getD s.card.bal.counts 1 0 + 4096 * f.count.toNat) % 2 ^ 64) ∧
  (∀ (s : State) (f : Frame) (w : ReadWork), s.card.admits opRead f = true → s.card.link.mode = .up →
    s.card.rangeOk f = true →
    w = { sector := f.sector.toNat, count := f.count.toNat, view := f.flags.getLsbD 0,
          pieces := (s.card.piecesOf (f.flags.getLsbD 0) (baysOf f.sector.toNat f.count.toNat)).map
            (s.card.prefetch false) } →
    (w.ready = true → ∃ t r, exec (.read f) s = .next t ∧
      t.card.out = .resp .ci r :: .c2h { tag := f.tag, issue := f.issue, lanes := s.card.link.lanes,
                                         seed := s.card.freeCount, bytes := w.data s.card.dataKey } :: s.card.out ∧
      r.kind = 0 ∧ r.code = f.tag ∧ r.flags.getLsbD 0 = w.zeros ∧
      (w.lostAt = none → r.status = stOk ∧ t.card.ended opRead f stOk 0) ∧
      ∀ o, w.lostAt = some o → r.status = stLost ∧ r.info = info3 o (o / 256) 0 ∧
        t.card.ended opRead f stLost (info3 o (o / 256) 0)) ∧
    (w.ready = false → ∃ t, exec (.read f) s = .next t ∧ t.card.out = s.card.out ∧
      t.card.working opRead f (.read w))) ∧
  (∀ (s : State) (f : Frame), s.card.admits opVerify f = true → s.card.link.mode = .up → s.card.rangeOk f = true →
    (∀ b, b ∈ baysOf f.sector.toNat f.count.toNat → ∀ k, s.card.resolve (f.flags.getLsbD 0) b = .at k →
      ∀ x, s.card.bayAt k = some x → x.mask = 0) →
    ∃ t, exec (.verify f) s = .next t ∧ t.card.ended opVerify f stOk 0 ∧
      t.card.out = s.card.respNow f.port 0 f.tag stOk 0 false ::
        .c2h { tag := f.tag, issue := f.issue, lanes := s.card.link.lanes, seed := s.card.freeCount,
               bytes := List.replicate (baysOf f.sector.toNat f.count.toNat).length 3 } :: s.card.out)

/-- A READ STREAM stays outstanding with its first segment, of at most 640 sectors, resolved; argument 0 means to the
last sector of the capacity (R259, R267, R274). A segment whose data is ready is sent as one C2H transfer: with more
to come an INTERIM and the next segment follows, after the last one the final OK with the number of segments sent; a
lost bay ends the stream with LOST; Z stands in the final response where any segment held a sector without data (R251,
R268, R275, R276, R278). With HCLK absent no segment starts (R14, R34). The lanes' scramblers start a transfer at free values
(log entry 71). -/
def Obligations.StreamRule : Prop :=
  (∀ (s : State) (f : Frame) (total : Nat), s.card.admits opStream f = true → s.card.link.mode = .up →
    total = (if f.arg = 0 then 16 * s.card.capacity - f.sector.toNat else f.arg.toNat) → 1 ≤ total →
    f.sector.toNat + total ≤ 16 * s.card.capacity →
    ∃ t, exec (.readStream f) s = .next t ∧ t.card.out = s.card.out ∧
      t.card.working opStream f (.stream
        { view := f.flags.getLsbD 0, next := f.sector.toNat, stop := f.sector.toNat + total, sent := 0, zeros := false,
          cur := { sector := f.sector.toNat, count := min 640 total, view := f.flags.getLsbD 0,
                   pieces := (s.card.piecesOf (f.flags.getLsbD 0) (baysOf f.sector.toNat (min 640 total))).map
                     (s.card.prefetch false) } })) ∧
  (∀ (s : State) (g : Tag) (e : TagEntry) (w : StreamWork), s.card.tagEntry g = some e →
    e.state = .outstanding (.stream w) → e.port = .ci → s.card.power.hclk = true → s.card.link.mode = .up →
    w.cur.ready = true → s.card.sourcesNow w = w.cur.pieces.map Piece.src →
    let sent : Out := .c2h { tag := g, issue := e.issue, lanes := s.card.link.lanes, seed := s.card.freeCount,
                             bytes := w.cur.data s.card.dataKey }
    let z := w.zeros || w.cur.zeros
    ∃ t, exec (.streamSegmentStart g) s = .next t ∧
      (w.cur.lostAt = none → w.next + w.cur.count < w.stop →
        t.card.out = s.card.respNow .ci 1 g stOk (BitVec.ofNat 24 w.sent) false :: sent :: s.card.out ∧
        ∃ v, t.card.cmdOf g = some (.stream v) ∧ v.sent = w.sent + 1 ∧ v.next = w.next + w.cur.count ∧ v.stop = w.stop ∧
          v.zeros = z ∧ v.cur.sector = v.next ∧ v.cur.count = min 640 (v.stop - v.next)) ∧
      (w.cur.lostAt = none → w.stop ≤ w.next + w.cur.count →
        t.card.out = s.card.respNow .ci 0 g stOk (info3 (w.sent + 1) ((w.sent + 1) / 256) 0) z :: sent :: s.card.out ∧
        t.card.tagEntry g =
          some { e with state := .completed stOk (info3 (w.sent + 1) ((w.sent + 1) / 256) 0) }) ∧
      (∀ o, w.cur.lostAt = some o →
        t.card.out = s.card.respNow .ci 0 g stLost (info3 o (o / 256) 0) z :: sent :: s.card.out ∧
        t.card.tagEntry g = some { e with state := .completed stLost (info3 o (o / 256) 0) })) ∧
  ∀ (s : State) (g : Tag), s.card.power.hclk = false → exec (.streamSegmentStart g) s = .next s

/-- A STOP that names an outstanding READ STREAM ends it with its final OK and then answers OK with info byte 3 =
0x01; one that names any other tag answers OK with info byte 3 = 0x00 and has no effect (R277). That the stream ends at once,
with the segments sent so far, is log entry 57 (DEDUCED). The STOP of a stream that an HCLK absence has cut waits for the
LANE-CHECK owed to it (R38, R220). -/
def Obligations.StopRule : Prop :=
  ∀ (s : State) (f : Frame) (g : Tag), s.card.admits opStop f = true → g = f.arg.setWidth 6 →
    ∃ t, exec (.stop f) s = .next t ∧
      (∀ e w, s.card.tagEntry g = some e → e.state = .outstanding (.stream w) → e.port = .ci → f.port = .ci →
        t.card.ended opStop f stOk (info3 1 0 0) ∧
        t.card.tagEntry g = some { e with state := .completed stOk (info3 w.sent (w.sent / 256) 0) } ∧
        ∃ r q : Resp, t.card.out = .resp .ci r :: .resp .ci q :: s.card.out ∧ r.code = f.tag ∧ q.code = g ∧
          r.kind = 0 ∧ q.kind = 0 ∧ q.status = stOk) ∧
      ((∀ w, s.card.cmdOf g ≠ some (.stream w)) →
        (g = f.tag ∨ s.card.cutStream g = false → t.card.ended opStop f stOk 0 ∧
          ∀ h, h ≠ f.tag → (∀ w, s.card.cmdOf h ≠ some (.write w)) → t.card.tagEntry h = s.card.tagEntry h) ∧
        (g ≠ f.tag → s.card.cutStream g = true → t.card.working opStop f .timed ∧ t.card.out = s.card.out ∧
          t.card.tagEntry g = s.card.tagEntry g))

/-- WRITE completes where R261 does not refuse it: it waits for its GO in the open flight, wanting 64 KiB of credit for every
bay it touches (R283, R369). WRITE_GO completes with the GO, status OK and info zero, once credit and erased bays are held:
the transfer is open for 4,096 bytes a sector; without them the WRITE goes on waiting (R191, R237, R283). DELAYED_MERGE_START
completes once no earlier command shares a bay with the WRITE, whose merge reads then begin (R289); until then nothing
happens. With HCLK absent neither does anything (R14, R34). -/
def Obligations.WriteRule : Prop :=
  (∀ (s : State) (f : Frame), s.card.admits opWrite f = true → s.card.link.mode = .up →
    (s.card.accept opWrite f .timed).writeRefusal opWrite f = none →
    ∃ t w, exec (.write f) s = .next t ∧ t.card.cmdOf f.tag = some (.write w) ∧ w.stage = .waitGo ∧
      w.sector = f.sector.toNat ∧ w.count = f.count.toNat ∧ w.discard = false ∧ w.ord = s.card.flights.openOrd ∧
      w.credit = (baysOf f.sector.toNat f.count.toNat).length ∧ w.applied = false ∧
      w.landAfter = (if f.flags.getLsbD 0 then some f.arg else none) ∧ t.card.media.cells = s.card.media.cells) ∧
  (∀ (s : State) (g : Tag) (e : TagEntry) (w : WriteWork), s.card.tagEntry g = some e →
    e.state = .outstanding (.write w) → e.port = .ci → w.stage = .waitGo → s.card.power.hclk = true →
    ∃ t, exec (.writeGo g) s = .next t ∧
      (s.card.mayGo w = true → t.card.out = s.card.respNow .ci 2 g stOk 0 false :: s.card.out ∧
        ∃ v x, t.card.openXfer g = some (v, x) ∧ x.bytes = 4096 * w.count ∧ x.frames = [] ∧ x.trailers = [] ∧
          x.failed = 0 ∧ v.credit = w.credit) ∧
      (s.card.mayGo w = false → ∃ v, t.card.cmdOf g = some (.write v) ∧ v.stage = .waitGo)) ∧
  (∀ (s : State) (g : Tag), s.card.power.hclk = false →
    exec (.writeGo g) s = .next s ∧ exec (.delayedMergeStart g) s = .next s) ∧
  (∀ (s : State) (g : Tag) (w : WriteWork), s.card.cmdOf g = some (.write w) → w.delayed = true →
    s.card.power.hclk = true →
    (s.card.earlierShares w.order w.sector w.count = true → exec (.delayedMergeStart g) s = .next s) ∧
    (s.card.earlierShares w.order w.sector w.count = false → w.stage = .waitGo →
      ∃ t, exec (.delayedMergeStart g) s = .next t ∧ t.card.cmdOf g = some (.write { w with delayed := false })) ∧
    (s.card.earlierShares w.order w.sector w.count = false → w.stage = .data → w.mergesIssued = false →
      ∃ t, exec (.delayedMergeStart g) s = .next t ∧ t.card.cmdOf g = some (.write { w with
        delayed := false, mergesIssued := true, merges := (partBays w.sector w.count).map s.card.mergePiece })))

/-- DISCARD.Z completes where R261 does not refuse it. One of whole bays that no earlier command delays programs one
DISCARD bay, which records its range, and nothing else; where no position is to be had, it waits for one (log entry 87;
DESIGN CHOICE). One with bays it covers in part reads each of these first, as a merge; with every one at hand it programs a
DATA bay for each and the DISCARD bay, which serves no other command (log entry 101; DESIGN CHOICE). One that an earlier
command delays waits for that command (R288, R289, R299, R300, R430). -/
def Obligations.DiscardZRule : Prop :=
  ∀ (s : State) (f : Frame), s.card.admits opDiscardZ f = true →
    (s.card.accept opDiscardZ f .timed).writeRefusal opDiscardZ f = none →
    let c := s.card.accept opDiscardZ f .timed
    let v := c.newWrite f true
    let c1 := (c.setWrite f.tag v).pumpAll
    let ps := (partBays f.sector.toNat f.count.toNat).map c1.mergePiece
    let w' := { v with mergesIssued := true, merges := ps }
    (partBays f.sector.toNat f.count.toNat = [] →
      let r : DRange := { first := f.sector.toNat, count := f.count.toNat, ord := s.card.flights.openOrd, seq := 0 }
      let place := (c1.setWrite f.tag { v with mergesIssued := true }).placeNew false
        (newBay .discard 0 0 s.card.flights.openOrd (.discard [r]))
      ∃ t w, exec (.discardZ f) s = .next t ∧ t.card.working opDiscardZ f (.write w) ∧ w.discard = true ∧
        w.sector = f.sector.toNat ∧ w.count = f.count.toNat ∧ w.ord = s.card.flights.openOrd ∧
        t.card.out = s.card.out ∧ t.card.media.cells = s.card.media.cells ∧ t.card.views = s.card.views ∧
        (v.delayed = true → w = v) ∧
        (v.delayed = false → place.2 = none → w.stage = .merging ∧ w.mergesIssued = true ∧ w.bays = []) ∧
        ∀ k, v.delayed = false → place.2 = some k →
          w.stage = .programming ∧ w.bays = [{ bay := none, key := k, done := false }] ∧
          ∃ b, KV.find t.card.media.vest k = some b ∧ b.kind = .discard ∧ b.ord = s.card.flights.openOrd ∧
            b.body = .discard [r]) ∧
    (v.delayed = false → ¬ ps.all Piece.ready = true → ∃ t, exec (.discardZ f) s = .next t ∧
      t.card.working opDiscardZ f (.write w') ∧ t.card.out = s.card.out ∧ t.card.media.cells = s.card.media.cells ∧
      t.card.views = s.card.views) ∧
    ∀ d ks, v.delayed = false → ps.all Piece.ready = true → (∀ p, p ∈ ps → p.val ≠ .lost) →
      (c1.setWrite f.tag w').placeWrite f.tag w' ((w'.toProgram c.dataKey).map Prod.snd) = some (d, ks) →
      ∃ t, exec (.discardZ f) s = .next t ∧ t.card.media.cells = s.card.media.cells ∧ t.card.views = s.card.views ∧
        t.card.working opDiscardZ f (.write { w' with
          stage := .programming, credit := 0
          bays := (((w'.toProgram c.dataKey).map Prod.fst).zip ks).map
            (fun x => { bay := x.1, key := x.2, done := false }) })

/-- DISCARD.H completes where R261 does not refuse it, with its final OK at once: it programs nothing; from then on both
views return zeros for every bay its range covers whole, and every other bay reads as before (R302, R303). -/
def Obligations.DiscardHRule : Prop :=
  ∀ (s : State) (f : Frame), s.card.admits opDiscardH f = true →
    (s.card.accept opDiscardH f .timed).writeRefusal opDiscardH f = none →
    ∃ t, exec (.discardH f) s = .next t ∧ t.card.ended opDiscardH f stOk 0 ∧
      t.card.out = s.card.respNow f.port 0 f.tag stOk 0 false :: s.card.out ∧
      t.card.media.cells = s.card.media.cells ∧
      (∀ k, KV.find s.card.media.vest k = none → KV.find t.card.media.vest k = none) ∧
      t.card.flights = s.card.flights ∧
      ∀ view b, t.card.resolve view b =
        if b ∈ wholeBays f.sector.toNat f.count.toNat then .zeroed else s.card.resolve view b

/-- What a WRITE or DISCARD.Z programs: for each of its bays a DATA bay with its own data in the sectors it covers, none for
DISCARD.Z, and in the others what the merge read of the bay gave (R284, R288, R299). Once every bay of a WRITE or DISCARD.Z is
programmed it enters the working view as its final OK is sent: each bay it programmed resolves to its copy, each that a
DISCARD.Z covers whole to zero, and every other bay, and the landed view, stay (R264, R265, R286, R299). -/
def Obligations.WriteAppliedAtOk : Prop :=
  (∀ (w : WriteWork) (key : Option (BitVec 512)) (b : Nat) (x : Bay), (some b, x) ∈ w.toProgram key →
    x.kind = .data ∧ x.addr = b ∧ x.ord = w.ord ∧
    ∀ n, n < 16 → x.sector key n =
      if w.covers (16 * b + n) then (if w.discard then none else some (w.sectorData (16 * b + n)))
      else match w.merges.find? (fun p => p.bay == b) with
        | some p => (match p.val with
          | .got y => y.sector key n
          | _ => none)
        | none => none) ∧
  ∀ (c : Card) (g : Tag) (e : TagEntry) (w : WriteWork), c.tagEntry g = some e → e.state = .outstanding (.write w) →
    (w.stage = .programming → c.advanceWrite g = if w.bays.all BayWork.done then c.completeWrite g w else c) ∧
    (w.landAfter = none → w.inlineDone = true → c.flights.acts = [] → c.flights.due = [] →
      (c.completeWrite g w).tagEntry g = some { e with state := .completed stOk 0 } ∧
      (∀ b, ((c.completeWrite g w).entry b).landed = (c.entry b).landed) ∧
      (∀ x b, x ∈ w.bays → x.bay = some b → (∀ y, y ∈ w.bays → y.bay = some b → y.key = x.key) →
        ¬ (w.discard = true ∧ b ∈ wholeBays w.sector w.count) →
        (c.completeWrite g w).resolve true b = .at x.key) ∧
      (∀ b, w.discard = true → b ∈ wholeBays w.sector w.count → (c.completeWrite g w).resolve true b = .zeroed) ∧
      ∀ b, (∀ x, x ∈ w.bays → x.bay ≠ some b) → ¬ (w.discard = true ∧ b ∈ wholeBays w.sector w.count) →
        (c.completeWrite g w).entry b = c.entry b)

/-- LAND completes: one that is not past is held and LND is pulled; one late by at most 1,024 treads executes at once in the
open flight, which closes, and SYNC-LATE tells it; otherwise it is answered (R311, R315, R317 to R319, R389; the order
of the refusals is log entry 19). ROLLBACK completes, held for its tread; SERVICE and QUIET complete, held and answered OK at
once with T[23:0] in the info bytes; a duration out of its limits or no kind granted is RANGE, a third window or an overlap
PROTOCOL (R309, R311, R315, R316, R320, R321). -/
def Obligations.TimedCommands : Prop :=
  (∀ (s : State) (f : Frame), s.card.admits opLand f = true →
    let now := s.card.treads.c
    let t := nameTread f.sector now
    ∃ u, exec (.land f) s = .next u ∧
      (treadNotPast t now = true → 2 ^ 24 < treadAhead t now → u.card.ended opLand f stRange 0) ∧
      (treadNotPast t now = false → 1024 < treadAhead now t → u.card.ended opLand f stTreadPast 0) ∧
      (treadNotPast t now = true ∧ treadAhead t now ≤ 2 ^ 24 ∨ treadNotPast t now = false ∧ treadAhead now t ≤ 1024 →
        (s.card.flights.held.isSome = true ∨ s.card.landAfterOut = true → u.card.ended opLand f stProtocol 0) ∧
        (s.card.flights.held = none → s.card.landAfterOut = false →
          (s.card.landingOk f.arg = false → u.card.ended opLand f stFlightStale (s.card.lastFlight.setWidth 24)) ∧
          (s.card.landingOk f.arg = true → u.card.working opLand f .timed ∧ u.card.power.lnd = true ∧
            (treadNotPast t now = true → u.card.out = s.card.out ∧ u.card.flights.acts = s.card.flights.acts ∧
              u.card.flights.held = some { rollback := false, tread := t, flight := f.arg, src := .cmd f.tag }) ∧
            (treadNotPast t now = false → s.card.flights.acts = [] → u.card.flights.held = none ∧
              u.card.flights.openOrd = s.card.flights.nextOrd ∧
              (∃ p q, u.card.out = p ++ .resp .ci q :: s.card.out ∧
                List.length p = (if s.card.power.dock then 1 else 0) ∧ q.kind = 3 ∧ q.code = ntSyncLate ∧
                q.info = info3 (treadAhead now t) (treadAhead now t / 256) f.arg.toNat) ∧
              ∃ a, a ∈ u.card.flights.acts ∧ a.rollback = false ∧ a.flight = f.arg ∧ a.late = treadAhead now t ∧
                a.closed = s.card.flights.openOrd))))) ∧
  (∀ (s : State) (f : Frame),
    let now := s.card.treads.c
    let t := nameTread f.sector now
    treadNotPast t now = true → treadAhead t now ≤ 2 ^ 24 →
    (s.card.admits opRollback f = true → s.card.flights.held = none → s.card.landAfterOut = false →
      ∃ u, exec (.rollback f) s = .next u ∧
        (s.card.rollbackOk f.arg = true → u.card.working opRollback f .timed ∧ u.card.out = s.card.out ∧
          u.card.flights.held = some { rollback := true, tread := t, flight := f.arg, src := .cmd f.tag }) ∧
        (s.card.rollbackOk f.arg = false →
          u.card.ended opRollback f stFlightStale (s.card.lastFlight.setWidth 24))) ∧
    ∀ (quiet : Bool) (i : Instr) (op : Byte), (quiet = false ∧ i = .service f ∧ op = opService) ∨
        (quiet = true ∧ i = .quiet f ∧ op = opQuiet) → s.card.admits op f = true →
      let w : Window := { seq := 0, quiet := quiet, kinds := if quiet then 0 else f.flags, start := t,
                          duration := f.arg.toNat, began := 0 }
      let fit : Prop := 64 ≤ f.arg.toNat ∧ f.arg.toNat ≤ 2 ^ 24 ∧ (quiet = true ∨ f.flags &&& 0x7F ≠ 0)
      ∃ u, exec i s = .next u ∧
        (¬ fit → u.card.ended op f stRange 0 ∧ u.card.maint.held = s.card.maint.held) ∧
        (fit → s.card.windowFits w = false →
          u.card.ended op f stProtocol 0 ∧ u.card.maint.held = s.card.maint.held) ∧
        (fit → s.card.windowFits w = true → u.card.maint.held = s.card.maint.held ++ [w] ∧
          u.card.ended op f stOk (t.setWidth 24) ∧
          u.card.out = s.card.respNow f.port 0 f.tag stOk (t.setWidth 24) false :: s.card.out))

/-- MOUNT completes: NOT-READY with info byte 3 = 1 on a card without a profile; otherwise the card is MOUNTING, no die is
fenced, C2H lane 0 is to be held and every contact is read (R111, R136, R139, R145, R150, R513). MOUNT_COMPLETE completes
once every contact has been read: the card is MOUNTED with MOUNT's final response, the flags as they are then, and the tag table emptied but for INQUIREs that wait: by the fast remount, which keeps the map, with info byte 3 = 1; by the full scan
with 2, which goes on until the reset of a hall has ended (R139, R154, R157, R164, R248, R312, R510). -/
def Obligations.MountRule : Prop :=
  (∀ (s : State) (f : Frame), s.card.admits opMount f = true →
    ∃ t, exec (.mount f) s = .next t ∧
      (s.card.profile = none → t.card.ended opMount f stNotReady (info3 1 0 0) ∧ t.card.phase = s.card.phase) ∧
      (s.card.profile.isSome = true → t.card.phase = .mounting ∧
        t.card.working opMount f (.mount (s.card.phase == .closed)) ∧ t.card.link.holdDue = true ∧
        t.card.straps.reading = some { kind := .mount, pass := 0, todo := allStraps, got := .unread } ∧
        (∀ n, (t.card.die n).fenced = false) ∧ t.card.media.cells = s.card.media.cells ∧ t.card.out = s.card.out)) ∧
  (∀ (s : State) (r : ScanReport) (g : Tag) (e : TagEntry) (fc : Bool), s.card.phase = .mounting →
    s.card.power.hclk = true → s.card.straps.reading = none → s.card.mounting = some (g, e, fc) →
    ((fc && s.card.views.selfRefresh && r.canary) = false → s.card.halls.resets ≠ [] →
      exec (.mountComplete r) s = .next s) ∧
    ((fc && s.card.views.selfRefresh && r.canary) = true ∨ s.card.halls.resets = [] →
    ∃ t, exec (.mountComplete r) s = .next t ∧ t.card.phase = .mounted ∧ t.card.maint.held = [] ∧
      t.card.maint.running = [] ∧ t.card.maint.victim = none ∧
      (∀ h x, t.card.tagEntry h = some x → ∃ n, x.state = .outstanding (.inquire n)) ∧
      (let fast := fc && s.card.views.selfRefresh && r.canary
       (fast = true → t.card.views.map = s.card.views.map ∧ t.card.flights.last = s.card.flights.last ∧
         t.card.flights.base = s.card.flights.nextOrd) ∧
       (s.card.portUp e.port = true → ∃ q rest, t.card.out = .resp e.port q :: rest ∧ q.kind = 0 ∧ q.code = g ∧
         q.status = stOk ∧ q.flags = t.card.flags false ∧ infoByte q.info 0 = if fast then 1 else 2))))

/-- CLOSE completes with nothing outstanding, held or in progress: with DISCARD, or an empty open flight, the card is CLOSED
with DRAM in self-refresh and answers OK with info byte 3 = 2 or 0; otherwise the landing of F begins and CLOSE waits
for it, or F is FLIGHT-STALE; that DISCARD of an empty open flight answers 2 is log entry 110 (DESIGN CHOICE). A second CLOSE
answers OK, and one that is blocked PROTOCOL (R139, R159, R160, R163, R313, R314). FORCE CLOSE completes: every field tag outstanding, and a MOUNT or CLOSE on DCI, ends with ABORTED; the map and
everything scheduled are dropped, and the card is READY-UNMOUNTED with the final OK. The ABORTED of a READ STREAM that has sent
sectors without data has Z (R251). In READY-UNMOUNTED it only answers (R139, R167, R248, R330). -/
def Obligations.CloseRules : Prop :=
  (∀ (s : State) (f : Frame), s.card.admits opClose f = true →
    (s.card.phase = .closed → ∃ t, exec (.close f) s = .next t ∧ t.card.ended opClose f stOk 0 ∧ t.card.phase = .closed) ∧
    (s.card.phase = .mounted →
      (s.card.flights.held.isSome = true ∨ s.card.flights.acts ≠ [] ∨
        (∃ g, g ≠ f.tag ∧ (s.card.cmdOf g).isSome = true) →
        ∃ t, exec (.close f) s = .next t ∧ t.card.ended opClose f stProtocol 0 ∧ t.card.phase = .mounted) ∧
      (s.card.flights.held = none → s.card.flights.acts = [] → s.card.outstanding = [] →
        ∃ t, exec (.close f) s = .next t ∧
          (f.flags.getLsbD 0 = true → t.card.phase = .closed ∧ t.card.ended opClose f stOk (info3 2 0 0) ∧
            t.card.views.selfRefresh = true ∧ t.card.maint.held = [] ∧ t.card.flights.marks = [] ∧
            ∀ b, (t.card.entry b).working = (t.card.entry b).landed) ∧
          (f.flags.getLsbD 0 = false → s.card.openEmpty = true → t.card.phase = .closed ∧
            t.card.ended opClose f stOk 0 ∧ t.card.views.selfRefresh = true ∧ t.card.views.map = s.card.views.map) ∧
          (f.flags.getLsbD 0 = false → s.card.openEmpty = false → s.card.closeAhead f.arg = false →
            t.card.ended opClose f stFlightStale (s.card.lastFlight.setWidth 24) ∧ t.card.phase = .mounted) ∧
          (f.flags.getLsbD 0 = false → s.card.openEmpty = false → s.card.closeAhead f.arg = true →
            t.card.working opClose f .close ∧ t.card.phase = .mounted ∧ t.card.maint.held = [] ∧
            ∃ a, a ∈ t.card.flights.acts ∧ a.flight = f.arg ∧ a.src = .close f.tag ∧
              a.closed = s.card.flights.openOrd)))) ∧
  (∀ (s : State) (f : Frame), s.card.admits opForceClose f = true →
    ∃ t, exec (.forceClose f) s = .next t ∧ t.card.ended opForceClose f stOk 0 ∧ t.card.phase = .readyUnmounted ∧
      t.card.media.cells = s.card.media.cells ∧
      (s.card.phase ≠ .readyUnmounted → t.card.views.map = [] ∧ t.card.views.valid = false ∧
        t.card.flights.held = none ∧ t.card.flights.acts = [] ∧ t.card.flights.marks = [] ∧ t.card.maint.held = [] ∧
        t.card.maint.running = [] ∧ t.card.power.lnd = false ∧ t.card.straps.reading = none ∧
        ∀ g e, s.card.tagEntry g = some e → e.aborted = true → t.card.tagEntry g = none ∧
          (s.card.portUp e.port = true →
            ∃ r, .resp e.port r ∈ t.card.out ∧ r.kind = 0 ∧ r.code = g ∧ r.status = stAborted ∧
              (s.card.phase = .mounted → r.flags.getLsbD 0 = s.card.abortZ g))) ∧
      (s.card.phase = .readyUnmounted → t.card.views = s.card.views ∧
        t.card.out = s.card.respNow f.port 0 f.tag stOk 0 false :: s.card.out))

/-- INQUIRE completes: on CI with the page as one C2H transfer and the final OK; while C2H lane 0 is held low the transfer
waits, and INQUIRE_DEFERRED_TRANSFER completes with it after; on DCI with eight extended responses, seven INTERIMs and the
final one, whose payloads together are the page. After page 3 no listed loss is unreported (R192, R256, R257, R323, R326,
R327). The lanes' scramblers start a transfer at free values (log entry 71); that the losses of page 3 are reported only
after its final OK, whose P still shows them, is log entry 109 (DESIGN CHOICE). -/
def Obligations.InquireRule : Prop :=
  ∀ (s : State) (f : Frame), s.card.admits opInquire f = true →
    let page := s.card.page f.arg.toNat
    (f.port = .ci → s.card.link.hold = false → s.card.link.mode = .up → ∃ t, exec (.inquire f) s = .next t ∧
      t.card.ended opInquire f stOk 0 ∧ (f.arg = 3 → t.card.flagP = false) ∧
      t.card.out = s.card.respNow .ci 0 f.tag stOk 0 false ::
        .c2h { tag := f.tag, issue := f.issue, lanes := s.card.link.lanes, seed := s.card.freeCount, bytes := page } ::
        s.card.out) ∧
    (f.port = .ci → s.card.link.hold = true → ∃ t, exec (.inquire f) s = .next t ∧
      t.card.working opInquire f (.inquire f.arg.toNat) ∧ t.card.out = s.card.out) ∧
    (f.port = .dci → ∃ t ps, exec (.inquire f) s = .next t ∧ t.card.ended opInquire f stOk (info3 7 8 0) ∧
      (f.arg = 3 → t.card.flagP = false) ∧ List.length ps = 8 ∧ List.flatten ps = page ∧
      t.card.out = (ps.zipIdx.map (fun x => Out.ext
        { kind := if x.2 = 7 then 0 else 1, code := f.tag, status := stOk, flags := s.card.flags false,
          info := info3 x.2 8 0, seq := s.card.ports.seqDco + BitVec.ofNat 8 x.2 } x.1)).reverse ++ s.card.out) ∧
    ∀ g e n, s.card.tagEntry g = some e → e.state = .outstanding (.inquire n) → e.port = .ci →
      s.card.link.hold = false → s.card.link.mode = .up → s.card.power.hclk = true →
      ∃ t, exec (.inquireDeferredTransfer g) s = .next t ∧ t.card.tagEntry g = some { e with state := .completed stOk 0 } ∧
        t.card.out = s.card.respNow .ci 0 g stOk 0 false ::
          .c2h { tag := g, issue := e.issue, lanes := s.card.link.lanes, seed := s.card.freeCount,
                 bytes := s.card.page n } :: s.card.out

/-- FORMAT completes: it begins with a strap read whose first pass covers all seven contacts. SANITIZE completes: it leaves
CLOSED, takes profile and key away, asks for the hold and voids and rewrites the records of both alcoves (R112, R139, R166,
R328, R329, R332, R335, R562, R565, R601). ALCOVE LOAD completes: it programs its payload, after an erase where asked, in the
alcove not in use, or is RANGE; ALCOVE SWAP completes: it waits for the operations under way on the device, then programs the
target's sequence field, answers OK where it already stands, or is ALCOVE-BAD where the target's header or sections are not in
order, which in CLOSED leaves the card CLOSED (R337, R339, R543, R558, R559, R560; log entry 104, DESIGN CHOICE). -/
def Obligations.DockCommands : Prop :=
  (∀ (s : State) (f : Frame),
    (s.card.admits opFormat f = true → ∃ t, exec (.format f) s = .next t ∧ t.card.working opFormat f .dockOp ∧
      t.card.alcove.service = some (f.tag, .formatRead) ∧ t.card.phase = s.card.phase ∧ t.card.out = s.card.out ∧
      t.card.straps.reading = some { kind := .format, pass := 0, todo := allStraps, got := .unread }) ∧
    ∀ r, s.card.admits opSanitize f = true → s.card.record = some r → ∃ t, exec (.sanitize f) s = .next t ∧
      t.card.working opSanitize f .dockOp ∧ t.card.alcove.service = some (f.tag, .sanitizeRecord none r.sanitized) ∧
      t.card.phase = .readyUnmounted ∧ t.card.profile = none ∧ t.card.dataKey = none ∧ t.card.link.holdDue = true ∧
      t.card.out = s.card.out ∧
      (let a := s.card.freeSlot .a
       let b := s.card.freeSlot .b
       t.card.alcove.ops = s.card.alcove.ops ++ s.card.voidOps ++ [.eraseSlot .a a, .programRecord .a a r.sanitized,
         .eraseHead .a (!a), .eraseSlot .b b, .programRecord .b b r.sanitized, .eraseHead .b (!b)])) ∧
  (∀ (s : State) (f : Frame),
    let i := s.card.alcove.target
    let m := s.card.alcove.mem i
    (∀ bs, s.card.admits opAlcoveLoad f = true → f.ext = some bs → ∃ t, exec (.alcoveLoad f) s = .next t ∧
      (loadRange f.sector.toNat bs.length (f.flags.getLsbD 0) = true →
        t.card.working opAlcoveLoad f .dockOp ∧
        t.card.alcove.service = some (f.tag, .load i f.sector.toNat bs) ∧ t.card.phase ≠ .closed ∧
        t.card.alcove.ops = s.card.alcove.ops ++
          (if f.flags.getLsbD 0 then [.eraseSector i f.sector.toNat] else []) ++ [.programBytes i f.sector.toNat bs]) ∧
      (loadRange f.sector.toNat bs.length (f.flags.getLsbD 0) = false →
        t.card.ended opAlcoveLoad f stRange 0 ∧ t.card.alcove = s.card.alcove)) ∧
    (s.card.admits opAlcoveSwap f = true → ∃ t, exec (.alcoveSwap f) s = .next t ∧
      (s.card.alcove.ops ≠ [] → t.card.working opAlcoveSwap f .dockOp ∧ t.card.phase = s.card.phase ∧
        t.card.alcove = { s.card.alcove with service := some (f.tag, .swapCheck) }) ∧
      (s.card.alcove.ops = [] →
       let good := decide (Mem.bytes m 0 8 = alcoveMagic) && m.lengthsOk && m.sectionsOk
       (good = false → t.card.ended opAlcoveSwap f stAlcoveBad 0 ∧ t.card.phase = s.card.phase ∧
        t.card.alcove = { s.card.alcove with service := none }) ∧
       ∀ n, good = true → s.card.swapSeq = some n →
        (Mem.bytes m 8 8 = seqField n → t.card.ended opAlcoveSwap f stOk (n.setWidth 24) ∧
          t.card.alcove = { s.card.alcove with service := none }) ∧
        (Mem.bytes m 8 8 = List.replicate 8 0xFF → (m.read 36).toNat ≤ (s.card.alcove.conf.map Conf.p).getD 0 →
          t.card.working opAlcoveSwap f .dockOp ∧ t.card.alcove.service = some (f.tag, .swap i n) ∧
          t.card.alcove.ops = [.programSeq i n]))))

/-- SYNC_SET_TREAD completes: it loads the counter and queues a load record. SYNC_CHECK_TREAD completes: it keeps the
difference, and one above one tread is told by TREAD-SLIP, the counter uncorrected. Both take effect in every state from the
power-up read on but LOADING and LINK-TRAINING, where they are dropped (R144, R345, R358, R360, R361, R584). Each row stands at
its message's take point; a message sent as samples of SY whose take point is still to come would be taken before it (R359, log
entry 76). -/
def Obligations.SyncTreadMessages : Prop :=
  ∀ (s : State) (m : SyncMsg), s.card.hearsSync = true → s.card.treads.taking = none → s.card.addressed m = true →
    m.kind ≠ 3 →
    (m.kind = 1 → m.addr.toNat < 16) → m.arg = 0 →
    (s.card.treads.lastMsg ≠ some (syncTypeSet, m) → ∃ t, exec (.syncSetTread m) s = .next t ∧
      t.card.treads.lastMsg = some (syncTypeSet, m) ∧
      (s.card.phase ≠ .loading ∧ s.card.phase ≠ .linkTraining → t.card.treads.c = m.tread ∧
        (s.card.flights.held = none → s.card.maint.running = [] →
          t.card.media = s.card.media ∧ t.card.flights.acts = s.card.flights.acts) ∧
        (s.card.flights.held = none → s.card.power.dock = true → s.card.flights.marks = [] → s.card.maint.held = [] →
          s.card.maint.running = [] →
          t.card.bal.queue.getLast? = some (t.card.fullTread 0x01) ∧ t.card.out = s.card.out)) ∧
      (s.card.phase = .loading ∨ s.card.phase = .linkTraining → t.card.treads.c = s.card.treads.c)) ∧
    (s.card.treads.lastMsg ≠ some (syncTypeCheck, m) → ∃ t, exec (.syncCheckTread m) s = .next t ∧
      t.card.treads.lastMsg = some (syncTypeCheck, m) ∧ t.card.treads.c = s.card.treads.c ∧
      (s.card.phase ≠ .loading ∧ s.card.phase ≠ .linkTraining →
        let d := treadDiff s.card.treads.c m.tread
        t.card.treads.checkDiff = d ∧ (-1 ≤ d ∧ d ≤ 1 → t.card.out = s.card.out) ∧
        (d < -1 ∨ 1 < d → t.card.out =
          s.card.noticeNow ntTreadSlip (BitVec.ofInt 24 (clampInt 0x7FFFFF d)) ++ s.card.out)))

/-- SYNC_LAND and SYNC_ROLLBACK complete, held for their tread, SYNC_SERVICE and SYNC_QUIET with their windows held and
SYNC_MARK with its MARK held, up to eight; a LAND late by at most 1,024 treads executes at once. Outside MOUNTED each is
dropped and counted in BC-13 (R143, R315, R316, R354 to R357, R364). A repeat of the last message taken and one for another
card are counted in BC-12 and change nothing else but what the card last took (R353, R358). That SY's receiver stands at rest
after a row, and that no other message's take point is still to come before it, is log entry 76. -/
def Obligations.SyncEffects : Prop :=
  (∀ (s : State) (m : SyncMsg), s.card.hearsSync = true → s.card.treads.taking = none → s.card.addressed m = true →
    m.kind ≠ 3 →
    (m.kind = 1 → m.addr.toNat < 16) →
    (∀ x, s.card.treads.lastMsg = some x → x.2 ≠ m) →
    let now := s.card.treads.c
    (s.card.phase ≠ .mounted → ∀ i, i = .syncLand m ∨ i = .syncRollback m ∨ i = .syncService m ∨
      (i = .syncQuiet m ∧ m.arg.toNat < 2 ^ 24) ∨ i = .syncMark m → ∃ t, exec i s = .next t ∧
        t.card.flights = s.card.flights ∧ t.card.maint = s.card.maint ∧ t.card.out = s.card.out ∧
        KV.getD t.card.bal.counts 13 0 = (KV.getD s.card.bal.counts 13 0 + 1) % 2 ^ 32) ∧
    (s.card.phase = .mounted → treadNotPast m.tread now = true → treadAhead m.tread now ≤ 2 ^ 24 →
      (s.card.flights.held = none → s.card.landAfterOut = false →
        (s.card.landingOk m.arg = true → ∃ t, exec (.syncLand m) s = .next t ∧ t.card.power.lnd = true ∧
          t.card.flights.held = some { rollback := false, tread := m.tread, flight := m.arg, src := .sync m.seq }) ∧
        (s.card.rollbackOk m.arg = true → ∃ t, exec (.syncRollback m) s = .next t ∧
          t.card.flights.held = some { rollback := true, tread := m.tread, flight := m.arg, src := .sync m.seq })) ∧
      (∀ (quiet : Bool) (i : Instr), (quiet = false ∧ i = .syncService m) ∨ (quiet = true ∧ i = .syncQuiet m) →
        let w : Window := { seq := m.seq, quiet := quiet, kinds := (m.arg >>> 24).setWidth 8, start := m.tread,
                            duration := m.arg.toNat % 2 ^ 24 + 1, began := 0 }
        (quiet = true → m.arg.toNat < 2 ^ 24) → ∃ t, exec i s = .next t ∧
          (64 ≤ w.duration → (quiet = true ∨ w.kinds &&& 0x7F ≠ 0) → s.card.windowFits w = true →
            t.card.maint.held = s.card.maint.held ++ [w]) ∧
          (w.duration < 64 ∨ (quiet = false ∧ w.kinds &&& 0x7F = 0) ∨ s.card.windowFits w = false →
            t.card.maint.held = s.card.maint.held)) ∧
      ∃ t, exec (.syncMark m) s = .next t ∧ t.card.flights.marks =
        (if s.card.flights.marks.length < 8 then s.card.flights.marks ++ [{ seq := m.seq, tread := m.tread, value := m.arg }]
         else s.card.flights.marks)) ∧
    (s.card.phase = .mounted → treadNotPast m.tread now = false → treadAhead now m.tread ≤ 1024 →
      s.card.flights.held = none → s.card.landAfterOut = false → s.card.landingOk m.arg = true →
      s.card.flights.acts = [] → ∃ t a, exec (.syncLand m) s = .next t ∧ a ∈ t.card.flights.acts ∧ a.rollback = false ∧
        a.flight = m.arg ∧ a.late = treadAhead now m.tread ∧ a.src = .sync m.seq ∧ a.closed = s.card.flights.openOrd ∧
        t.card.power.lnd = true)) ∧
  (∀ (s : State), s.card.hearsSync = true → s.card.treads.taking = none →
    ∀ (m : SyncMsg) (type : Byte) (i : Instr), (type = syncTypeSet ∧ i = .syncSetTread m) ∨
        (type = syncTypeCheck ∧ i = .syncCheckTread m) ∨ (type = syncTypeLand ∧ i = .syncLand m) ∨
        (type = syncTypeRollback ∧ i = .syncRollback m) ∨ (type = syncTypeService ∧ i = .syncService m) ∨
        (type = syncTypeQuiet ∧ i = .syncQuiet m) ∨ (type = syncTypeMark ∧ i = .syncMark m) →
      syncFieldsOk type m = true → s.card.treads.lastMsg = some (type, m) ∨ s.card.addressed m = false →
      ∃ t, exec i s = .next t ∧ t.card.treads = { s.card.treads with lastMsg := some (type, m), rx := .rest } ∧
        t.card.flights = s.card.flights ∧ t.card.maint = s.card.maint ∧ t.card.out = s.card.out ∧
        KV.getD t.card.bal.counts 12 0 = (KV.getD s.card.bal.counts 12 0 + 1) % 2 ^ 32)

/-- BAD_SYNC_MESSAGE and SYNC_IDLE_TIMEOUT complete: each is a stretch of SY, which the card samples cycle by cycle. After 240
idle cycles the 160 samples of the character 0x7E start a message, those of any other character none. A start bit that reads
high at its sample 8 is none; a stop bit that reads low there is a framing error; the next start edge must come within 48
cycles of a stop bit's sample 8; the eighteenth character's stop bit completes a message, which is judged at its take point,
256 cycles later. One that ends early, or whose CRC or fields are not in order, is discarded, counted in BC-11 and traced, and
does nothing else; any other is taken (R346 to R348, R350, R352, R359, R588; the readings are log entry 76). -/
def Obligations.SyLineIsJudged : Prop :=
  ∀ (s : State) (line : SyLine) (i : Instr), s.card.hearsSync = true →
    i = .badSyncMessage line ∨ i = .syncIdleTimeout line →
    let taking := s.card.treads.taking
    let rx := s.card.treads.rx
    let discarded (why : Byte) (bs : List Byte) : Prop := ∃ t, exec i s = .next t ∧ t.card.flights = s.card.flights ∧
      t.card.maint = s.card.maint ∧ t.card.out = s.card.out ∧ t.card.treads.c = s.card.treads.c ∧
      t.card.treads.rx.msg = none ∧ t.card.treads.rx.char = none ∧ t.card.treads.lastMsg = s.card.treads.lastMsg ∧
      KV.getD t.card.bal.counts 11 0 = (KV.getD s.card.bal.counts 11 0 + 1) % 2 ^ 32 ∧
      (s.card.power.dock = true → s.card.bal.queue.length < 480 → ∃ r, t.card.bal.queue.getLast? = some r ∧
        r.type = 0x16 ∧ r.payload = [why, bs.getD 2 0, bs.getD 1 0, 0, 0, 0, 0, 0])
    let silent (x : SyRx) : Prop :=
      exec i s = .next { s with card := { s.card with treads := { s.card.treads with rx := x } } }
    (∀ b, taking = none → rx = .rest → line = charLine b →
      silent { idle := 8, char := none, msg := if b = 0x7E then some [0x7E] else none, since := 8 }) ∧
    (∀ ch, taking = none → rx.char = some ch → ch.cycle = 6 → line = [true] → silent { rx with char := none, since := rx.since + 1 }) ∧
    (∀ bs, taking = none → rx.char = none → rx.msg = some bs → 48 ≤ rx.since + 1 → line = [true] →
      discarded 0x02 bs) ∧
    (∀ ch bs, taking = none → rx.char = some ch → ch.cycle = 150 → rx.msg = some bs →
      (line = [false] → discarded 0x01 bs) ∧
      (bs.length = 17 → line = [true] → ∃ x, x.msg = none ∧ x.char = none ∧
        exec i s = .next { s with card := { s.card with
          treads := { s.card.treads with rx := x, taking := some (256, bs ++ [ch.bits]) } } })) ∧
    ∀ n all, taking = some (n, all) → rx = .rest → 1 ≤ n → line = List.replicate n true →
      let crc : Prop := leNat (all.drop 16) = (crc16 (all.take 16)).toNat
      (¬ crc → discarded 0x03 all) ∧
      (crc → syncBytesOk all = false → discarded 0x04 all) ∧
      (crc → syncBytesOk all = true → ∃ t, exec i s = .next t ∧ t.card.treads.taking = none ∧
        t.card.treads.lastMsg = some (all.getD 2 0, syncFields all) ∧ t.card.treads.rx.msg = none)

/-- The 18 bytes of a SYNC message give its type and every field back and pass the checks of R352, so that the card takes them
as that message (R350, R352, R354). -/
def Obligations.SyncBytesRoundTrip : Prop :=
  ∀ (type : Byte) (m : SyncMsg), type ∈ syncTypes → syncFieldsOk type m = true →
    (syncBytes type m).length = 18 ∧ (syncBytes type m).getD 0 0 = 0x7E ∧ (syncBytes type m).getD 2 0 = type ∧
      syncFields (syncBytes type m) = m ∧ syncBytesOk (syncBytes type m) = true ∧
      ∀ c : Card, c.judgeSync (syncBytes type m) = c.takeSync type m (fun d => d.syncAct type m)

/-- LANDING_EXECUTE completes at a held LAND's tread, no window ending and no MARK standing before it: the open flight closes
and its landing begins, LND pulled; where the numbering no longer takes it, a command is FLIGHT-STALE (R318, R365, R366, R371,
R379, R389). LANDING_BAY_ISSUE completes: the landing bay, with what R387 records, takes a position while the cut-off has not
passed, and is issued once its PROGRAM is in the hall's queue. LANDING_CUTOFF completes: the landing fails, told by
LANDING-FAILED, BC-08 and the command's info byte 3 = 0 (R379 to R381). -/
def Obligations.LandingActions : Prop :=
  ∀ s : State, s.card.phase = .mounted → s.card.power.hclk = true →
    (∀ h, s.card.flights.held = some h → h.rollback = false → h.tread = s.card.treads.c →
      s.card.firstOfTread = true → s.card.flights.acts = [] → ∃ t, exec .landingExecute s = .next t ∧
        t.card.flights.held = none ∧
        (s.card.unhold.landingOk h.flight = true → t.card.power.lnd = true ∧
          t.card.flights.openOrd = s.card.flights.nextOrd ∧ ∃ a, a ∈ t.card.flights.acts ∧ a.rollback = false ∧
            a.flight = h.flight ∧ a.exec = s.card.treads.c ∧ a.late = 0 ∧ a.src = h.src ∧
            a.closed = s.card.flights.openOrd ∧ a.opened = s.card.flights.nextOrd) ∧
        (s.card.unhold.landingOk h.flight = false → t.card.flights.acts = [] ∧ t.card.power.lnd = false ∧
          ∀ g e k, h.src = .cmd g → s.card.tagEntry g = some e → e.state = .outstanding k → t.card.tagEntry g =
            some { e with state := .completed stFlightStale (s.card.lastFlight.setWidth 24) })) ∧
    (∀ a r since, s.card.flights.acts = a :: r → a.rollback = false → s.card.mayIssue a = true →
      (281250 < since.toNat → exec (.landingBayIssue since) s = .next s) ∧
      ∀ c k, since.toNat ≤ 281250 →
        s.card.placeNew false (newBay .landing 0 0 a.closed (.landing (s.card.landingRec a))) = (c, some k) →
        ∃ t, exec (.landingBayIssue since) s = .next t ∧
          (∃ x, x ∈ t.card.flights.acts ∧ x.closed = a.closed ∧ x.flight = a.flight ∧
            x.stage = if c.programIssued k then .issued k else .assigned k) ∧
          ∃ b, KV.find t.card.media.vest k = some b ∧ b.kind = .landing ∧ b.body = .landing (s.card.landingRec a)) ∧
    ∀ a g e k, s.card.flights.acts = [a] → a.rollback = false → (∀ n, a.stage ≠ .issued n) → a.src = .cmd g →
      s.card.tagEntry g = some e → e.state = .outstanding k → s.card.portUp e.port = true → s.card.straps.role = .solo →
      s.card.twin.waits = [] → s.card.flights.held = none → ∃ t q, exec .landingCutoff s = .next t ∧
        t.card.flights.acts = [] ∧ t.card.power.lnd = false ∧
        t.card.out = .resp e.port q :: (s.card.noticeNow ntLandingFailed (a.flight.setWidth 24) ++ s.card.out) ∧
        q.kind = 0 ∧ q.code = g ∧ q.status = stOk ∧ infoByte q.info 0 = 0 ∧
        t.card.tagEntry g =
          some { e with state := .completed stOk (info3 0 (if a.late = 0 then 0 else 1) 0) } ∧
        KV.getD t.card.bal.counts 8 0 = (KV.getD s.card.bal.counts 8 0 + 1) % 2 ^ 32

/-- ROLLBACK_EXECUTE completes at a held ROLLBACK's tread: the open flight closes, and every WRITE and DISCARD.Z of it and of
the flights above the landing base ends with ROLLED-BACK (R392). ROLLBACK_BAY_ISSUE completes: its bay takes a position, or
its command is FLIGHT-STALE. ROLLBACK_CUTOFF completes: it fails, told by ROLLBACK-FAILED and info 0 (R386, R393, R395).
MARK_EXECUTE completes: a MARK is programmed at its tread in the open flight, or waits for a position (R357, R366; log entry
87). -/
def Obligations.RollbackAndMarkActions : Prop :=
  ∀ s : State, s.card.phase = .mounted → s.card.power.hclk = true →
    (∀ h, s.card.flights.held = some h → h.rollback = true → h.tread = s.card.treads.c →
      s.card.firstOfTread = true → s.card.flights.acts = [] → s.card.rollbackOk h.flight = true →
      ∃ t, exec .rollbackExecute s = .next t ∧ t.card.flights.held = none ∧
        t.card.flights.openOrd = s.card.flights.nextOrd ∧
        t.card.flights.acts = [{ rollback := true, flight := h.flight, exec := s.card.treads.c, late := 0, src := h.src,
                                 closed := s.card.flights.openOrd, opened := s.card.flights.nextOrd,
                                 stage := .completing, begun := s.card.treads.ticks, bay := none, failed := false }] ∧
        ∀ g e w, s.card.tagEntry g = some e → e.state = .outstanding (.write w) → s.card.flights.base ≤ w.ord →
          w.ord ≤ s.card.flights.openOrd →
          t.card.tagEntry g = some { e with state := .completed stRolledBack 0 }) ∧
    (∀ a r since l, s.card.flights.acts = a :: r → a.rollback = true → s.card.mayIssue a = true →
      s.card.flights.last = some l →
      (s.card.rollbackOk a.flight = true → since.toNat ≤ 281250 → ∀ c k,
        (s.card.rollCommands a).placeNew false (newBay .rollback 0 0 a.closed
          (.rollback ((s.card.rollCommands a).rollbackRec a l))) = (c, some k) →
        ∃ t, exec (.rollbackBayIssue since) s = .next t ∧
          (∃ x, x ∈ t.card.flights.acts ∧ x.closed = a.closed ∧ x.flight = a.flight ∧
            x.stage = if c.programIssued k then .issued k else .assigned k) ∧
          ∃ b q, KV.find t.card.media.vest k = some b ∧ b.kind = .rollback ∧ b.body = .rollback q ∧
            q.flight = a.flight ∧ q.restored = l.prev ∧ q.landFirst = l.first ∧ q.landLast = l.last ∧
            q.base = s.card.flights.base ∧ q.closed = a.closed) ∧
      ∀ g e k, s.card.rollbackOk a.flight = false → r = [] → a.src = .cmd g → s.card.tagEntry g = some e →
        e.state = .outstanding k → ∃ t, exec (.rollbackBayIssue since) s = .next t ∧ t.card.flights.acts = [] ∧
          t.card.tagEntry g =
            some { e with state := .completed stFlightStale (s.card.lastFlight.setWidth 24) }) ∧
    (∀ a g e k, s.card.flights.acts = [a] → a.rollback = true → (∀ n, a.stage ≠ .issued n) → a.src = .cmd g →
      s.card.tagEntry g = some e → e.state = .outstanding k → s.card.portUp e.port = true →
      ∃ t q, exec .rollbackCutoff s = .next t ∧ t.card.flights.acts = [] ∧
        t.card.out = .resp e.port q :: (s.card.noticeNow ntRollbackFailed (a.flight.setWidth 24) ++ s.card.out) ∧
        q.kind = 0 ∧ q.code = g ∧ q.status = stOk ∧ q.info = 0 ∧
        t.card.tagEntry g = some { e with state := .completed stOk 0 }) ∧
    ∀ m, s.card.flights.marks.find? (fun x => x.tread == s.card.treads.c) = some m → s.card.windowEnding = false →
      let place := ({ s.card with flights :=
        { s.card.flights with marks := s.card.flights.marks.erase m } }).placeNew false
          (newBay .mark 0 0 s.card.flights.openOrd (.mark m.value m.tread))
      ∃ t, exec .markExecute s = .next t ∧ t.card.flights.marks = s.card.flights.marks.erase m ∧
        (∀ k, place.2 = some k →
          ∃ b, KV.find t.card.media.vest k = some b ∧ b.kind = .mark ∧ b.ord = s.card.flights.openOrd ∧
            b.body = .mark m.value m.tread) ∧
        (place.2 = none → t.card.flights.due = s.card.flights.due ++ [(m, s.card.flights.openOrd)])

/-- WINDOW_START completes: a held window whose start tread the counter takes begins running after everything else of that
tread. WINDOW_END completes: a window ends at its end tread, or when its duration has run out, of two the one whose duration
runs out first; with the last service window the patrol visit under way is forgotten (R365, R366, R368, R472). Nothing on the
media changes. -/
def Obligations.WindowsRun : Prop :=
  ∀ (s : State) (w : Window), s.card.power.hclk = true →
    (s.card.phase = .mounted → s.card.windowEnding = false →
      (∀ m, m ∈ s.card.flights.marks → m.tread ≠ s.card.treads.c) →
      (∀ h, s.card.flights.held = some h → h.tread ≠ s.card.treads.c) →
      s.card.maint.held.find? (fun x => x.start == s.card.treads.c) = some w →
      ∃ t, exec .windowStart s = .next t ∧ t.card.maint.running = s.card.maint.running ++ [{ w with began := s.card.treads.ticks }] ∧
        t.card.maint.held = s.card.maint.held.erase w ∧ t.card.flagQ = (s.card.flagQ || w.quiet) ∧
        t.card.out = s.card.out ∧ t.card.media = s.card.media) ∧
    (s.card.maint.running.find? (fun x => x.stop == s.card.treads.c) = some w ∨
      s.card.windowEnding = false ∧ s.card.firstOver = some w →
      ∃ t, exec .windowEnd s = .next t ∧ t.card.maint.running = s.card.maint.running.erase w ∧
        t.card.maint.held = s.card.maint.held ∧ t.card.flagQ = (s.card.maint.running.erase w).any Window.quiet ∧
        ((∀ x, x ∈ s.card.maint.running.erase w → x.quiet = true) → t.card.maint.visit = none) ∧
        t.card.media.cells = s.card.media.cells ∧ t.card.out = s.card.out) ∧
    (s.card.firstOver = some w → w ∈ s.card.maint.running ∧
      ∀ x, x ∈ s.card.maint.running → w.began + w.duration ≤ x.began + x.duration)

/-- A landing bay programmed lands its range: the last landed flight is the bay's, the base moves to the flight opened
at the execution, nothing counts as moved, BC-07 counts it and LND is released; the landed view takes of each bay the newest of
its changes in the range, and the working view stays. A LAND is then answered OK with info byte 3 = 1 and byte 4 = 1 where it
was late, a LAND-AFTER WRITE once its inline work has ended, and CLOSE as the card is CLOSED (R160, R266, R295, R313, R314,
R319, R372, R379). A ROLLBACK bay programmed makes the flight before the last one the last, and none can be rolled back; the
landed view goes back to what it was before that flight, the working view to it with the changes above the flight the rollback
closed, and the command is answered OK with info byte 3 = 1 (R320, R394, R396; of a flight whose landing bay is gone the tread
and digest are free values, log entry 80). -/
def Obligations.BaysOfActionsLand : Prop :=
  ∀ (c : Card) (a : Action) (b : Bay), c.flights.acts = [a] → c.flights.held = none → c.flights.due = [] →
    c.power.hclk = true →
    let answered (t : Card) (g : Tag) (st : Status) (info : BitVec 24) : Prop :=
      ∀ e k, c.tagEntry g = some e → e.state = .outstanding k → t.tagEntry g = some { e with state := .completed st info } ∧
        (c.portUp e.port = true → ∃ r, .resp e.port r ∈ t.out ∧ r.kind = 0 ∧ r.code = g ∧ r.status = st ∧ r.info = info)
    (∀ r, b.body = .landing r →
      let t := c.landed a b
      let takes (x : Change) (n : Nat) : Prop := x.bay = n ∧ r.first ≤ x.ord ∧ x.ord ≤ r.last
      t.flights.acts = [] ∧ t.power.lnd = false ∧
      t.flights.last = some { flight := r.flight, tread := r.tread, prev := r.prev, first := r.first, last := r.last,
                              seq := b.seq, digest := r.digest, slot := r.slot } ∧
      t.flights.base = a.opened ∧ t.flights.canRoll = true ∧ t.flights.moved = false ∧
      t.flights.before = c.flights.last ∧ t.media.cells = c.media.cells ∧
      KV.getD t.bal.counts 7 0 = (KV.getD c.bal.counts 7 0 + 1) % 2 ^ 32 ∧
      t.views.changes = c.views.changes.filter (fun x => !(decide (r.first ≤ x.ord ∧ x.ord ≤ r.last))) ∧
      (∀ n, (t.entry n).working = (c.entry n).working ∧ (t.entry n).hmark = (c.entry n).hmark) ∧
      (∀ n, (∀ x, x ∈ c.views.changes → ¬ takes x n) → (t.entry n).landed = (c.entry n).landed) ∧
      (∀ pre x post, c.views.changes = pre ++ x :: post → takes x x.bay →
        (∀ y, y ∈ pre → takes y x.bay → y.ord ≤ x.ord) → (∀ y, y ∈ post → takes y x.bay → y.ord < x.ord) →
        (t.entry x.bay).landed = x.loc) ∧
      (∀ g, a.src = .sync g → c.straps.role = .solo → c.twin.waits = [] → t.out = c.out) ∧
      (∀ g, a.src = .cmd g → answered t g stOk (info3 1 (if a.late = 0 then 0 else 1) 0)) ∧
      (∀ g w, a.src = .landAfter g → c.cmdOf g = some (.write w) →
        (w.inlineDone = true → answered t g stOk (info3 1 0 0)) ∧
        (w.inlineDone = false → t.cmdOf g = some (.write { w with stage := .landed 1 }))) ∧
      ∀ g, a.src = .close g → answered t g stOk (info3 1 0 0) ∧ t.phase = .closed ∧ t.views.selfRefresh = true) ∧
    ∀ r, b.body = .rollback r →
      let t := c.rolledBack a b
      t.flights.acts = [] ∧ (t.flights.last.map Landed.flight).getD 0 = r.restored ∧
      (∀ l, c.flights.before = some l → l.flight = r.restored → t.flights.last = some l) ∧
      t.flights.before = none ∧ t.flights.canRoll = false ∧ t.flights.base = a.opened ∧
      t.media.cells = c.media.cells ∧ t.views = c.views.undoLanding r.closed ∧
      KV.getD t.bal.counts 9 0 = (KV.getD c.bal.counts 9 0 + 1) % 2 ^ 32 ∧
      (∀ n, (∀ l, (n, l) ∉ c.views.undo) → (t.entry n).landed = (c.entry n).landed) ∧
      (∀ pre n l post, c.views.undo = pre ++ (n, l) :: post → (∀ m, (n, m) ∉ post) → (t.entry n).landed = l) ∧
      (∀ n, (∀ x, x ∈ c.views.changes → x.bay = n → x.ord ≤ r.closed) → (t.entry n).working = (t.entry n).landed) ∧
      (∀ pre x post, c.views.changes = pre ++ x :: post → r.closed < x.ord →
        (∀ y, y ∈ post → y.bay = x.bay → y.ord ≤ r.closed) → (t.entry x.bay).working = x.loc) ∧
      ∀ g, a.src = .cmd g → answered t g stOk (info3 1 0 0)

/-- What dies report while HCLK runs. PROGRAM_COMPLETE completes: a PROGRAM that ends well leaves the bay on its page.
READ_COMPLETE completes: a READ changes no page. A descriptor that completes is counted for its hall. ERASE_COMPLETE completes:
an ERASE that ends well leaves nothing on the wing's pages of that hall, the last one of the wing nothing on any of its pages.
ERASE_SUSPEND_COMPLETE completes: what waited runs; EXCLUSIVE_READ_WAIT_EXPIRY completes: the erase is being suspended (R435,
R438, R439). DESCRIPTOR_QUEUED completes: a descriptor held back enters a hall's queue once it has room (R433).
DESCRIPTOR_HUNG completes: whatever hung, an ERASE too, its hall is reset, and it is issued once more after the reset; the second
hang of a die's since the mount fences it, told by HALL-FENCED (R507, R508, R511). HALL_RESET_END completes: the reset ends
(R508). -/
def Obligations.DieReports : Prop :=
  (∀ (s : State) (h d : BitVec 4), s.card.power.hclk = true →
    let n := dieNo h.toNat d.toNat
    (∀ k b r, s.card.phase ≠ .absent → (s.card.die n).op = some (.program k) → KV.find s.card.media.vest k = some b →
      ∃ t, exec (.programComplete h d r) s = .next t ∧
        (r.ok = true → s.card.pageCode k = none →
          KV.find t.card.media.cells k = some (.bay b))) ∧
    (∀ id k margin mask shift r, (s.card.die n).op = some (.read id k margin mask shift) →
      ∃ t, exec (.readComplete h d r) s = .next t ∧ t.card.media.cells = s.card.media.cells) ∧
    (∀ k code, KV.getD (s.card.complete (.program k) code).bal.counts (16 + keyHall k) 0 =
      (KV.getD s.card.bal.counts (16 + keyHall k) 0 + 1) % 2 ^ 32) ∧
    (∀ id k margin mask shift code,
      KV.getD (s.card.complete (.read id k margin mask shift) code).bal.counts (32 + keyHall k) 0 =
        (KV.getD s.card.bal.counts (32 + keyHall k) 0 + 1) % 2 ^ 32) ∧
    (∀ e, (s.card.die n).erase = some e → e.stage ≠ .suspended →
      ∃ t, exec (.eraseComplete (.die h d true)) s = .next t ∧
        (∀ k, keyWing k = e.wing → keyHall k = h.toNat → KV.find t.card.media.cells k = none) ∧
        (∀ k, keyWing k ≠ e.wing → KV.find t.card.media.cells k = KV.find s.card.media.cells k) ∧
        ∀ x, KV.find s.card.halls.erases e.wing = some x →
          (x.left.filter (· != h.toNat) ≠ [] → ∀ k, keyHall k ≠ h.toNat →
            KV.find t.card.media.cells k = KV.find s.card.media.cells k) ∧
          (x.left.filter (· != h.toNat) = [] → x.failed = false →
            ∀ k, keyWing k = e.wing → KV.find t.card.media.cells k = none)) ∧
    ∀ e q, (s.card.die n).erase = some e →
      (e.stage = .running → (∃ i k g m x, s.card.firstFor n (s.card.queue h.toNat) = some (.read i k g m x)) →
        exec (.exclusiveReadWaitExpiry h d) s =
          run (fun c => c.setDie n { c.die n with erase := some { e with stage := .suspending } }) s) ∧
      (e.stage = .suspending → s.card.resetting h.toNat = false → (s.card.die n).fenced = false →
        (s.card.die n).heat.shut = false → (s.card.die n).op = none →
        s.card.firstFor n (s.card.queue h.toNat) = some q → (∀ w x, q ≠ .erase w x) →
        ∃ t, exec (.eraseSuspendComplete h d) s = .next t ∧ (t.card.die n).op = some q ∧
          (t.card.die n).erase = some { e with stage := .suspended })) ∧
  (∀ (s : State) (h d : BitVec 4), s.card.power.hclk = true →
    let n := dieNo h.toNat d.toNat
    (∀ x r, s.card.backList h.toNat = x :: r → (∀ y, y ∈ x :: r → s.card.lateDesc y = false) →
      (s.card.queue h.toNat).length < 64 →
      ∃ t, exec (.descriptorQueued h) s = .next t ∧ t.card.halls.back = (s.card.setBack h.toNat r).halls.back ∧
        ((s.card.die x.die).op.isSome = true → t.card.queue h.toNat = s.card.queue h.toNat ++ [x])) ∧
    (∀ o, s.card.phase ≠ .absent → (s.card.die n).fenced = false → s.card.resetting h.toNat = false →
      (s.card.die n).op = some o ∨ (s.card.die n).op = none ∧
        (∃ e, (s.card.die n).erase = some e ∧ e.stage ≠ .suspended ∧ o = .erase e.wing h.toNat) →
      ∃ t, exec (.descriptorHung h d) s = .next t ∧ (t.card.die n).hangs = (s.card.die n).hangs + 1 ∧
        (∃ x, KV.find t.card.halls.resets h.toNat = some x ∧ x.hung = d.toNat) ∧ (t.card.die n).op = none ∧
        (t.card.die n).erase = none ∧
        KV.getD t.card.bal.counts 82 0 = (KV.getD s.card.bal.counts 82 0 + 1) % 2 ^ 32 ∧
        (1 ≤ (s.card.die n).hangs → s.card.serviceErasing = false → (t.card.die n).fenced = true ∧
          ∃ o p, t.card.out = o ++ p ++ s.card.out ∧ p.length = (if s.card.power.dock then 2 else 1) ∧
            ∀ y, y ∈ p → ∃ port q, y = .resp port q ∧ q.kind = 3 ∧ q.code = ntHallFenced ∧
              q.info = info3 h.toNat d.toNat 0) ∧
        ((s.card.die n).hangs = 0 → (t.card.die n).fenced = false ∧
          (s.card.serviceErasing = false → s.card.halls.jobs = [] → s.card.writeWorks = [] → s.card.flights.acts = [] →
            s.card.flights.due = [] → s.card.media.homeless = [] →
            (∀ k, o = .program k → (s.card.openOf (keyWing k)).isSome = true) → t.card.out = s.card.out ∧
            ∃ x, KV.find t.card.halls.resets h.toNat = some x ∧ o ∈ x.again))) ∧
    ∀ x us, KV.find s.card.halls.resets h.toNat = some x → ∃ t, exec (.hallResetEnd h us) s = .next t ∧
      t.card.halls.resets.map Prod.fst = (KV.drop s.card.halls.resets h.toNat).map Prod.fst ∧
      t.card.media.cells = s.card.media.cells)

/-- What a service window lets the card do, the kinds in the order of R451. WINDOW_ERASE_START completes: the first wing
awaiting erase is erased. RECLAIM_RELOCATION, REFRESH_RELOCATION and STATIC_LEVEL_MOVE complete: a valid bay of the victim, of a
wing to refresh, and of the young wing is moved, the young wing at least three classes below the highest. PATROL_VISIT
completes: every programmed position of the next patrol wing is read at stricter thresholds (R447 to R451, R466, R467, R470
to R472). -/
def Obligations.WindowWork : Prop :=
  ∀ (s : State) (w k : Nat) (r : List Nat),
    let move (x : Card) (why : MoveWhy) : Move × Nat :=
      ({ src := k, dst := none, why := why, ended := false }, x.halls.nextId)
    (s.card.windowAllows 1 Config.eraseTreads = true → s.card.halls.erases = [] →
      (∀ x e, x ∈ s.card.halls.dies → x.2.erase = some e → e.stage ≠ .suspended) → s.card.eraseOrder = w :: r →
      ∃ t, exec .windowEraseStart s = .next t ∧ (KV.find t.card.halls.erases w).isSome = true ∧
        (t.card.wing w).state = .erasing ∧ t.card.media.cells = s.card.media.cells) ∧
    (s.card.windowAllows 0 Config.relocTreads = true → s.card.freeErased + s.card.waitingErase < 192 →
      s.card.reclaimYields = false → s.card.maint.emptying = none → s.card.chooseVictim = some w →
      s.card.movable w = k :: r → KV.find s.card.media.vest k = none → s.card.unreachable k = false →
      ∃ t, exec .reclaimRelocation s = .next t ∧ t.card.maint.emptying = some w ∧
        KV.find t.card.halls.moves (move s.card .reclaim).2 = some (move s.card .reclaim).1) ∧
    (s.card.windowAllows 4 Config.relocTreads = true → s.card.eraseFirst = false → s.card.refreshNext = some w →
      s.card.movable w = k :: r → KV.find s.card.media.vest k = none → s.card.unreachable k = false →
      ∃ t, exec .refreshRelocation s = .next t ∧
        KV.find t.card.halls.moves (move s.card .refresh).2 = some (move s.card .refresh).1) ∧
    (∀ c, s.card.windowAllows 2 Config.relocTreads = true → s.card.levelYields = false →
      s.card.levelWing = (c, some w) → c.movable w = k :: r → KV.find c.media.vest k = none → c.unreachable k = false →
      (s.card.maint.young = none → s.card.youngWing = some w ∧ (s.card.wing w).cls + 3 ≤ s.card.topClass) ∧
      ∃ t, exec .staticLevelMove s = .next t ∧
        KV.find t.card.halls.moves (move c .staticLevel).2 = some (move c .staticLevel).1) ∧
    (s.card.windowAllows 3 Config.marginTreads = true → s.card.maint.visit = none → s.card.passLeft = w :: r →
      s.card.halls.jobs = [] → s.card.writeWorks = [] → s.card.flights.acts = [] → (∀ n, s.card.dieShut n = false) →
      ∃ t, exec .patrolVisit s = .next t ∧
        (s.card.positionsOf w = [] → (∃ v, v ∈ r ∧ v ≠ w) → (t.card.wing w).visited = true) ∧
        (s.card.positionsOf w ≠ [] → t.card.maint.visit = some (w, (s.card.positionsOf w).length, false) ∧
          ∀ p, p ∈ s.card.positionsOf w → ∃ x j, (x, j) ∈ t.card.halls.jobs ∧ j.key = p ∧ j.purpose = .patrol ∧
            j.stage = .strict))

/-- ANNEAL_START completes: the first due die that may be heated is. HEAT_COMPLETE completes: it cools. ANNEAL_PROBE completes:
after the second probe the anneal is counted; HEATER_TIMEOUT completes: an anneal cut short is not counted and leaves its die
hot (R451, R460, R462 to R464). THERMAL_STAGE_CHANGE completes: H, HOT and pacing go by the hottest die listed that no anneal
has heated and left at 80 °C or above; where none is listed it stays (log entry 92; DESIGN CHOICE); stage 2 from 92 °C on; from
85 °C stage 1; back to 1 at 89 °C, to 0 at 82 °C; H stands in every stage but 0 (R251, R465, R593). Temperatures are in eighths
of a degree. -/
def Obligations.AnnealAndThermal : Prop :=
  (∀ (s : State),
    (∀ p n, s.card.windowAllows 6 Config.annealTreads = true → s.card.maint.hottest ≤ 560 →
      s.card.annealYields = false → s.card.dueDies.find? s.card.mayAnneal = some n →
      ∃ t, exec (.annealStart p) s = .next t ∧
        t.card.maint.anneals = s.card.maint.anneals ++ [{ die := n, p0 := programClass p.toNat }] ∧
        (t.card.die n).heat = .heating ∧ (∀ m, m ≠ n → (t.card.die m).heat = (s.card.die m).heat) ∧
        t.card.media.cells = s.card.media.cells) ∧
    ∀ (h d : BitVec 4),
      let n := dieNo h.toNat d.toNat
      ((s.card.die n).heat = .heating → s.card.power.hclk = true → ∃ t, exec (.heatComplete h d) s = .next t ∧
        (t.card.die n).heat = .cooling ∧ t.card.maint = s.card.maint) ∧
      (s.card.power.hclk = false → exec (.heatComplete h d) s = .next s) ∧
      ∀ a, s.card.maint.anneals.find? (fun x => x.die == n) = some a →
        (∀ p, (s.card.die n).heat = .cooling → s.card.power.hclk = true →
          ∃ t, exec (.annealProbe h d p) s = .next t ∧
          (t.card.die n).heat = .cold ∧ t.card.maint.anneals = s.card.maint.anneals.filter (fun x => x.die != n) ∧
          t.card.maint.annealCount = s.card.maint.annealCount + 1 ∧ t.card.media.cells = s.card.media.cells) ∧
        ((s.card.die n).heat = .heating → s.card.power.hclk = true → ∃ t, exec (.heaterTimeout h d) s = .next t ∧
          (t.card.die n).heat = .hot ∧ t.card.maint.anneals = s.card.maint.anneals.filter (fun x => x.die != n) ∧
          t.card.maint.annealCount = s.card.maint.annealCount) ∧
        ((s.card.die n).heat = .heating → s.card.power.hclk = false → ∃ t, exec (.heaterTimeout h d) s = .next t ∧
          (t.card.die n).heat = .cooling ∧ t.card.maint = s.card.maint)) ∧
  (∀ (s : State) (die : DieTemp) (others : List DieTemp) (ctl : BitVec 16),
    let dies := die :: others
    let heat (x : DieTemp) : HeatStage := (s.card.die (dieNo x.hall.toNat x.die.toNat)).heat
    let counts (x : DieTemp) : Prop := heat x = .cold ∨ (heat x = .cooling ∨ heat x = .hot) ∧ x.temp.toInt < 640
    ∃ t, exec (.thermalStageChange die others ctl) s = .next t ∧ t.card.maint.controller = ctl.toInt ∧
      (∀ x, x ∈ dies → x.temp.toInt ≤ t.card.maint.hottestAll) ∧
      (∀ x, x ∈ dies → counts x → x.temp.toInt ≤ t.card.maint.hottest) ∧
      ((∃ x, x ∈ dies ∧ counts x ∧ t.card.maint.hottest = x.temp.toInt) ∨
        (∀ x, x ∈ dies → ¬ counts x) ∧ t.card.maint.hottest = s.card.maint.hottest) ∧
      (t.card.maint.h = true ↔ t.card.maint.stage ≠ 0) ∧ t.card.out = s.card.out ∧
      { t.card.halls with dies := s.card.halls.dies } = s.card.halls ∧
      (∀ n, t.card.die n = { s.card.die n with heat :=
        if (s.card.die n).heat = .hot ∧ (∃ x, x ∈ dies ∧ dieNo x.hall.toNat x.die.toNat = n ∧ x.temp.toInt < 640) then .cold
        else (s.card.die n).heat }) ∧
      (let hot := t.card.maint.hottest
       (736 ≤ hot → t.card.maint.stage = 2) ∧ (hot ≤ 656 → t.card.maint.stage = 0) ∧
       (656 < hot → hot < 736 →
         (s.card.maint.stage = 0 → t.card.maint.stage = if 680 ≤ hot then 1 else 0) ∧
         (s.card.maint.stage = 1 → t.card.maint.stage = 1) ∧
         (s.card.maint.stage = 2 → t.card.maint.stage = if hot ≤ 712 then 1 else 2))))

/-- KEEPALIVE_INTERIM completes: an INTERIM keeps a command alive, but none a WRITE between GO and the end of its transfer, nor
a FORMAT before its void word is programmed (R562).
REFUSED_FRAME completes: a frame that fails R229 is answered by an INTERIM BAD-FRAME with the bytes as they arrived, and is no
command; the bytes of a frame of a length its port allows never fail it. ALIGNMENT_LOST and ALIGNMENT_REGAINED complete: a port
without alignment takes no frame (log entry 22; DEDUCED). CHARACTER_OUTSIDE_FRAME completes: it is counted (R228 to R232, R243,
R247, R254). -/
def Obligations.FramesWithoutCommand : Prop :=
  (∀ (op : Byte) (f : Frame), lengthOk f = true →
    badCause f.port { code := false, bytes := wireFrame op f } = none) ∧
  ∀ (s : State),
    (∀ g e k, s.card.tagEntry g = some e → e.state = .outstanding k → s.card.portUp e.port = true →
      s.card.power.hclk = true →
      ((∀ w, k = .write w → w.stage ≠ .data) → s.card.mustVoid g = false → ∃ t, exec (.keepaliveInterim g) s = .next t ∧
        t.card.out = s.card.respNow e.port 1 g stOk 0 false :: s.card.out ∧ t.card.ports.tags = s.card.ports.tags) ∧
      (∀ w, k = .write w → w.stage = .data → exec (.keepaliveInterim g) s = .next s) ∧
      (s.card.mustVoid g = true → exec (.keepaliveInterim g) s = .next s)) ∧
    ∀ p, s.card.hears p = true →
      (∀ b cause, badCause p b = some cause → ∃ t, exec (.refusedFrame p b) s = .next t ∧
        t.card.out = s.card.respNow p 1 ((b.bytes.getD 1 0).setWidth 6) stBadFrame
          (info3 cause.toNat (b.bytes.getD 0 0).toNat 0) false :: s.card.out ∧
        t.card.ports.tags = s.card.ports.tags ∧
        KV.getD t.card.bal.counts 4 0 = (KV.getD s.card.bal.counts 4 0 + 1) % 2 ^ 32) ∧
      (∃ t, exec (.alignmentLost p) s = .next t ∧ t.card.receives p = false ∧ t.card.ports.tags = s.card.ports.tags) ∧
      (∃ t, exec (.alignmentRegained p) s = .next t ∧ t.card.receives p = true ∧
        t.card.ports.tags = s.card.ports.tags) ∧
      ∃ t, exec (.characterOutsideFrame p) s = .next t ∧ t.card.ports = s.card.ports ∧ t.card.out = s.card.out ∧
        KV.getD t.card.bal.counts 5 0 = (KV.getD s.card.bal.counts 5 0 + 1) % 2 ^ 32

/-- The twin link. TWIN_HELLO completes: a partner's HELLO brings the link up, but for the time between a MOUNT and its first
verdict, and calls for a replay where another serial was heard; the same role takes it down; a message that fails its checks is counted in BC-88. TWIN_DIGEST completes: the last DIGEST
of a burst stores it. TWIN_WAIT_EXPIRY completes: the pair is not verified and the link is down (R514, R526, R528 to R533,
R536, R537). A twin verdict: once a landing has ended and a burst is stored, the newest flight both hold decides;
equal digests verify the pair, others make it diverged, with TWIN-DIVERGED naming the flight at the first; with no flight in
common it is not verified, or unverified after a replay (R532 to R535, R538); every verdict that can be reached is. Bursts go
with landings oldest first (log entry 45; DESIGN CHOICE). -/
def Obligations.TwinRules : Prop :=
  (∀ (s : State), s.card.hearsTwin = true →
    (∀ bs,
      let serial := fieldAt bs 8 4
      let own : Nat := if s.card.straps.role = .twinA then 1 else 2
      let counted (t : State) : Prop :=
        KV.getD t.card.bal.counts 88 0 = (KV.getD s.card.bal.counts 88 0 + 1) % 2 ^ 32
      ∃ t, exec (.twinHello bs) s = .next t ∧
        (twinOk 0x01 20 bs = false ∨ serial = s.card.serialCrc.toNat → t.card.twin = s.card.twin ∧ counted t) ∧
        (twinOk 0x01 20 bs = true → serial ≠ s.card.serialCrc.toNat → (bs.getD 1 0).toNat = own →
          t.card.twin = { s.card.twin with linkUp := false } ∧ counted t) ∧
        (twinOk 0x01 20 bs = true → serial ≠ s.card.serialCrc.toNat → (bs.getD 1 0).toNat ≠ own →
          s.card.twin.waits = [] →
          t.card.out = s.card.out ∧ t.card.twin.linkUp = (s.card.twin.linkUp || !s.card.twin.fresh) ∧ t.card.twin.partner = some (BitVec.ofNat 32 serial) ∧
          (∀ p, s.card.twin.partner = some p → p.toNat ≠ serial → t.card.twin.replayDue = true))) ∧
    (∀ bs b, s.card.twin.burst = some b → b.left = none → s.card.twin.waits = [] →
      ∃ t, exec (.twinDigest bs) s = .next t ∧
        (twinOk 0x02 24 bs = false → t.card.twin = s.card.twin ∧
          KV.getD t.card.bal.counts 88 0 = (KV.getD s.card.bal.counts 88 0 + 1) % 2 ^ 32) ∧
        (twinOk 0x02 24 bs = true → (bs.getD 1 0).getLsbD 0 = false → t.card.twin.burst = none ∧
          t.card.twin.heard = s.card.twin.heard ++ [{ b with digests := b.digests ++ [digestOfBytes bs] }]) ∧
        (twinOk 0x02 24 bs = true → (bs.getD 1 0).getLsbD 0 = true → t.card.twin.heard = s.card.twin.heard ∧
          t.card.twin.burst = some { b with digests := b.digests ++ [digestOfBytes bs] })) ∧
    ∀ v r, s.card.twin.waits = v :: r → ∃ t, exec .twinWaitExpiry s = .next t ∧ t.card.twin.waits = r ∧
      t.card.twin.linkUp = false ∧ t.card.twin.replayDue = true ∧ t.card.twin.pair = 2 ∧ t.card.out = s.card.out) ∧
  (∀ c : Card, c.judge.twin.waits = [] ∨ c.judge.twin.heard = [] ∨
    ∃ v r, c.judge.twin.waits = v :: r ∧ v.ended = false) ∧
  (∀ (c : Card) (v : Verdict) (r : List Verdict) (b : Burst) (bs : List Burst), c.twin.waits = v :: r → v.ended = true →
    c.twin.heard = b :: bs → bs = [] ∨ (∀ x, r.head? = some x → x.ended = false) →
    c.judge.twin.waits = r ∧ c.judge.twin.heard = bs ∧ c.judge.twin.fresh = false ∧
      c.judge.twin.linkUp = (c.twin.linkUp || c.twin.fresh) ∧
      (∀ x y, sharedFlight c.flights.history b.digests = some (x, y) →
        c.judge.twin.lastCompared = x.flight ∧
        (x.digest = y.digest → c.judge.twin.pair = 1 ∧ c.judge.out = c.out) ∧
        (x.digest ≠ y.digest → c.judge.twin.pair = 3 ∧
          (c.twin.pair = 3 → c.judge.out = c.out) ∧
          (c.twin.pair ≠ 3 → c.judge.twin.firstDiverged = x.flight ∧
            c.judge.out = ({ c with twin := c.judge.twin }).noticeNow ntTwinDiverged (x.flight.setWidth 24) ++ c.out))) ∧
      (sharedFlight c.flights.history b.digests = none → c.judge.twin.pair = (if b.replay then 4 else 2) ∧
        c.judge.out = c.out))

/-- BALCONY_PERIOD completes: where the stream starts, or the slots of the last period are over, a period opens with a
full-tread record in slot 0; before that nothing happens. BALCONY_SLOT completes: slots 1 to 96 carry
BC-00 to BC-95 in order, the later ones the head of the trace queue or nothing; while a load record stands in the queue each slot carries the queue's head, and the load record is slot 0 of the next period. A drop record is built in its slot, with
the stamp of then (log entry 96). The record sequence counts each (R572 to R574, R576, R577, R584, R586). -/
def Obligations.BalconyPeriod : Prop :=
  ∀ (s : State), s.card.drivesBal = true →
    let sent (t : State) (r : BalRec) : Prop := t.card.bal.seq = s.card.bal.seq + 1 ∧
      t.card.out = .balcony s.card.bal.seq r :: s.card.out
    (s.card.bal.startDue = false → s.card.slotsOver = false ∨ s.card.loadQueued = true →
      exec .balconyPeriod s = .next s) ∧
    (s.card.bal.startDue = true ∨ s.card.slotsOver = true ∧ s.card.loadQueued = false → ∃ t, exec .balconyPeriod s = .next t ∧
      sent t (s.card.fullTread (if s.card.bal.startDue then 0x02 else 0x00)) ∧ t.card.bal.slot = some 1 ∧
      t.card.bal.startDue = false) ∧
    ∀ n, s.card.bal.slot = some n →
      (s.card.loadQueued = false →
        (1 ≤ n → n < 97 → ∃ t, exec .balconySlot s = .next t ∧ t.card.bal.slot = some (n + 1) ∧
          t.card.bal.queue = s.card.bal.queue ∧
          sent t { type := BitVec.ofNat 8 (0x7F + n), stamp := s.card.treads.c.setWidth 32,
                   payload := leBytes 8 (s.card.counter (n - 1)).toNat }) ∧
        (97 ≤ n → n < 1562 → s.card.bal.queue = [] → ∃ t, exec .balconySlot s = .next t ∧
          t.card.bal.slot = some (n + 1) ∧ t.card.out = s.card.out ∧ t.card.bal.seq = s.card.bal.seq) ∧
        ∀ r q, 97 ≤ n → n < 1562 → s.card.bal.queue = r :: q → ∃ t, exec .balconySlot s = .next t ∧
          t.card.bal.slot = some (n + 1) ∧ t.card.bal.queue = q ∧ sent t (s.card.builtNow r)) ∧
      (s.card.loadQueued = true → ∀ r q, s.card.bal.queue = r :: q → ∃ t, exec .balconySlot s = .next t ∧
        t.card.bal.queue = q ∧ sent t (s.card.builtNow r) ∧ t.card.bal.slot = some (if r.type = 0x01 then 1 else n))

/-- Parity bays: in a gallery the parity bay's hall is the first one not missing from g mod 16 upward, wrapping, and
the data positions are the other halls not missing, ascending; the summary bay has the highest of gallery 383 (R405 to
R407). -/
def Obligations.GalleryPlaces : Prop :=
  ∀ (g : Nat) (missing : List Nat), (∃ h, h < 16 ∧ h ∉ missing) →
    parityHall g missing < 16 ∧ parityHall g missing ∉ missing ∧
      (∀ j, j < 16 → (∀ i, i ≤ j → (g + i) % 16 ∈ missing) → parityHall g missing ≠ (g + j) % 16) ∧
      (∀ j, j < 16 → (∀ i, i < j → (g + i) % 16 ∈ missing) → (g + j) % 16 ∉ missing →
        parityHall g missing = (g + j) % 16) ∧
      (∀ h, h ∈ dataHalls g missing ↔ h < 16 ∧ h ∉ missing ∧ h ≠ parityHall g missing) ∧
      (dataHalls g missing).Pairwise (· < ·) ∧
      (∀ h, h ∈ dataHalls 383 missing → h ≤ summaryHall missing) ∧
      (dataHalls 383 missing ≠ [] → summaryHall missing ∈ dataHalls 383 missing)
end

