-- ==== Sys2Proof/Laws/Store.lean ====
section
/-! SUPPORT. Laws of sparse tables and byte memories: what a read gives after a write, and that every operation keeps
the canonical form. -/

namespace Sys2Proof.Machine

variable {α : Type}

@[simp] theorem KV.find_put_same (m : KV α) (k : Nat) (v : α) : KV.find (KV.put m k v) k = some v := by
  induction m with
  | nil => simp [KV.put, KV.find]
  | cons x r ih =>
    obtain ⟨j, w⟩ := x
    simp only [KV.put]
    split
    · simp [KV.find]
    · split
      · simp [KV.find]
      · next h => simp only [KV.find, ih]; rw [if_neg (Ne.symm h)]

theorem KV.find_put_other (m : KV α) {k j : Nat} (v : α) (h : j ≠ k) :
    KV.find (KV.put m k v) j = KV.find m j := by
  induction m with
  | nil => simp [KV.put, KV.find, Ne.symm h]
  | cons x r ih =>
    obtain ⟨i, w⟩ := x
    simp only [KV.put]
    split
    · simp [KV.find, Ne.symm h]
    · split
      · next e => subst e; simp [KV.find, Ne.symm h]
      · simp only [KV.find, ih]

theorem KV.find_drop_other (m : KV α) {k j : Nat} (h : j ≠ k) : KV.find (KV.drop m k) j = KV.find m j := by
  induction m with
  | nil => rfl
  | cons x r ih =>
    obtain ⟨i, w⟩ := x
    simp only [KV.drop]
    split
    · next e => subst e; simp [KV.find, Ne.symm h]
    · simp only [KV.find, ih]

theorem KV.risingFrom_le {m : KV α} {a b : Nat} (h : a ≤ b) (w : KV.risingFrom b m = true) :
    KV.risingFrom a m = true := by
  cases m with
  | nil => rfl
  | cons x r => obtain ⟨j, v⟩ := x; simp [KV.risingFrom] at *; exact ⟨by omega, w.2⟩

theorem KV.find_below {m : KV α} {a k : Nat} (w : KV.risingFrom a m = true) (h : k < a) : KV.find m k = none := by
  induction m generalizing a with
  | nil => rfl
  | cons x r ih =>
    obtain ⟨j, v⟩ := x
    simp [KV.risingFrom] at w
    simp only [KV.find]
    rw [if_neg (by omega)]
    exact ih w.2 (by omega)

theorem KV.risingFrom_put {m : KV α} {a k : Nat} (v : α) (w : KV.risingFrom a m = true) (h : a ≤ k) :
    KV.risingFrom a (KV.put m k v) = true := by
  induction m generalizing a with
  | nil => simp [KV.put, KV.risingFrom, h]
  | cons x r ih =>
    obtain ⟨j, y⟩ := x
    simp [KV.risingFrom] at w
    simp only [KV.put]
    split
    · simp [KV.risingFrom]; exact ⟨h, by omega, w.2⟩
    · split
      · next e => subst e; simp [KV.risingFrom]; exact w
      · simp [KV.risingFrom]; exact ⟨w.1, ih w.2 (by omega)⟩

theorem KV.risingFrom_drop {m : KV α} {a : Nat} (k : Nat) (w : KV.risingFrom a m = true) :
    KV.risingFrom a (KV.drop m k) = true := by
  induction m generalizing a with
  | nil => rfl
  | cons x r ih =>
    obtain ⟨j, y⟩ := x
    simp [KV.risingFrom] at w
    simp only [KV.drop]
    split
    · exact KV.risingFrom_le (by omega) w.2
    · simp [KV.risingFrom]; exact ⟨w.1, ih w.2⟩

theorem KV.risingFrom_filter {m : KV α} {a : Nat} (p : Nat × α → Bool) (w : KV.risingFrom a m = true) :
    KV.risingFrom a (m.filter p) = true := by
  induction m generalizing a with
  | nil => rfl
  | cons x r ih =>
    obtain ⟨j, y⟩ := x
    simp [KV.risingFrom] at w
    by_cases hp : p (j, y) = true
    · rw [List.filter_cons_of_pos hp]; simp [KV.risingFrom]; exact ⟨w.1, ih w.2⟩
    · rw [List.filter_cons_of_neg hp]; exact KV.risingFrom_le (by omega) (ih w.2)

/-- Putting an entry keeps a table's form. -/
theorem KV.wf_put {m : KV α} (k : Nat) (v : α) (w : KV.wf m = true) : KV.wf (KV.put m k v) = true :=
  KV.risingFrom_put v w (Nat.zero_le k)

/-- Dropping an entry keeps a table's form. -/
theorem KV.wf_drop {m : KV α} (k : Nat) (w : KV.wf m = true) : KV.wf (KV.drop m k) = true := KV.risingFrom_drop k w

/-- A table with fewer entries keeps its form. -/
theorem KV.wf_filter {m : KV α} (p : Nat × α → Bool) (w : KV.wf m = true) : KV.wf (m.filter p) = true :=
  KV.risingFrom_filter p w

theorem KV.mem_put {m : KV α} {k : Nat} {v : α} {x : Nat × α} (h : x ∈ KV.put m k v) : x = (k, v) ∨ x ∈ m := by
  induction m with
  | nil => simp [KV.put] at h; exact Or.inl h
  | cons y r ih =>
    obtain ⟨j, w⟩ := y
    simp only [KV.put] at h
    split at h
    · simpa using h
    · split at h
      · simp at h; rcases h with h | h
        · exact Or.inl h
        · exact Or.inr (List.mem_cons_of_mem _ h)
      · simp at h; rcases h with h | h
        · exact Or.inr (by simp [h])
        · rcases ih h with h | h
          · exact Or.inl h
          · exact Or.inr (List.mem_cons_of_mem _ h)

theorem KV.mem_drop {m : KV α} {k : Nat} {x : Nat × α} (h : x ∈ KV.drop m k) : x ∈ m := by
  induction m with
  | nil => exact h
  | cons y r ih =>
    obtain ⟨j, w⟩ := y
    simp only [KV.drop] at h
    split at h
    · exact List.mem_cons_of_mem _ h
    · simp at h; rcases h with h | h
      · simp [h]
      · exact List.mem_cons_of_mem _ (ih h)

theorem KV.find_drop_same {m : KV α} {a : Nat} (k : Nat) (w : KV.risingFrom a m = true) :
    KV.find (KV.drop m k) k = none := by
  induction m generalizing a with
  | nil => rfl
  | cons x r ih =>
    obtain ⟨j, v⟩ := x
    simp [KV.risingFrom] at w
    simp only [KV.drop]
    split
    · next e => subst e; exact KV.find_below w.2 (Nat.lt_succ_self _)
    · next e => simp only [KV.find]; rw [if_neg e]; exact ih w.2

/-- A write keeps the canonical form. -/
theorem Mem.wf_write {m : Mem} (a : Nat) (b : BitVec 8) (w : m.wf = true) : (Mem.write m a b).wf = true := by
  simp only [Mem.wf, Bool.and_eq_true, List.all_eq_true, decide_eq_true_eq] at w ⊢
  unfold Mem.write
  split
  · exact ⟨KV.wf_drop a w.1, fun x hx => w.2 x (KV.mem_drop hx)⟩
  · next h =>
    refine ⟨KV.wf_put a b w.1, fun x hx => ?_⟩
    rcases KV.mem_put hx with e | e
    · simpa [e] using h
    · exact w.2 x e

/-- Programming keeps the canonical form. -/
theorem Mem.wf_program {m : Mem} (a : Nat) (bs : List (BitVec 8)) (w : m.wf = true) :
    (Mem.program m a bs).wf = true := by
  induction bs generalizing m a with
  | nil => exact w
  | cons b r ih => exact ih _ (Mem.wf_write a _ w)

/-- Bytes the device failed to program keep the canonical form. -/
theorem Mem.wf_force {m : Mem} (a : Nat) (bs : List (BitVec 8)) (w : m.wf = true) : (Mem.force m a bs).wf = true := by
  induction bs generalizing m a with
  | nil => exact w
  | cons b r ih => exact ih _ (Mem.wf_write a _ w)

/-- Erasing keeps the canonical form. -/
theorem Mem.wf_erase {m : Mem} (a n : Nat) (w : m.wf = true) : (Mem.erase m a n).wf = true := by
  simp only [Mem.wf, Bool.and_eq_true, List.all_eq_true, decide_eq_true_eq] at w ⊢
  exact ⟨KV.wf_filter _ w.1, fun x hx => w.2 x (List.mem_of_mem_filter hx)⟩

/-- A read gives what was written there. -/
theorem Mem.read_write_same {m : Mem} (a : Nat) (b : BitVec 8) (w : m.wf = true) :
    Mem.read (Mem.write m a b) a = b := by
  simp only [Mem.wf, Bool.and_eq_true] at w
  unfold Mem.read Mem.write
  split
  · next h => rw [KV.find_drop_same a w.1, h]; rfl
  · simp

/-- A write leaves every other byte alone. -/
theorem Mem.read_write_other (m : Mem) {a j : Nat} (b : BitVec 8) (h : j ≠ a) :
    Mem.read (Mem.write m a b) j = Mem.read m j := by
  unfold Mem.read Mem.write
  split
  · rw [KV.find_drop_other m h]
  · rw [KV.find_put_other m b h]

/-- Programming leaves every byte outside its range alone. -/
theorem Mem.read_program_out {m : Mem} {a j : Nat} (bs : List (BitVec 8)) (h : j < a ∨ a + bs.length ≤ j) :
    Mem.read (Mem.program m a bs) j = Mem.read m j := by
  induction bs generalizing m a with
  | nil => rfl
  | cons b r ih =>
    simp only [List.length_cons] at h
    simp only [Mem.program]
    rw [ih (by omega), Mem.read_write_other _ _ (by omega)]

/-- A programmed byte is the AND of what it held and what was programmed. -/
theorem Mem.read_program_in {m : Mem} {a : Nat} {bs : List (BitVec 8)} (w : m.wf = true) {i : Nat}
    (h : i < bs.length) : Mem.read (Mem.program m a bs) (a + i) = Mem.read m (a + i) &&& bs[i] := by
  induction bs generalizing m a i with
  | nil => simp at h
  | cons b r ih =>
    simp only [Mem.program]
    cases i with
    | zero =>
      simp only [Nat.add_zero]
      rw [Mem.read_program_out _ (by omega), Mem.read_write_same _ _ w]
      rfl
    | succ n =>
      simp only [List.length_cons] at h
      have e : a + (n + 1) = a + 1 + n := by omega
      rw [e, ih (Mem.wf_write a _ w) (by omega), Mem.read_write_other _ _ (by omega)]
      rfl

theorem KV.find_filter_key {m : KV α} (p : Nat → Bool) (k : Nat) :
    KV.find (m.filter (fun x => p x.1)) k = if p k then KV.find m k else none := by
  induction m with
  | nil => simp [KV.find]
  | cons x r ih =>
    obtain ⟨j, v⟩ := x
    by_cases hp : p j = true
    · rw [List.filter_cons_of_pos (by simpa using hp)]
      simp only [KV.find, ih]
      by_cases e : j = k
      · subst e; simp [hp]
      · simp [e]
    · rw [List.filter_cons_of_neg (by simpa using hp), ih]
      by_cases e : j = k
      · subst e; simp [hp]
      · simp [KV.find, e]

/-- Erased bytes read blank, the others as before. -/
theorem Mem.read_erase (m : Mem) (a n j : Nat) :
    Mem.read (Mem.erase m a n) j = if a ≤ j ∧ j < a + n then Mem.blank else Mem.read m j := by
  have h := KV.find_filter_key (m := m) (fun k => decide (k < a ∨ a + n ≤ k)) j
  simp only [Mem.read, Mem.erase, h, decide_eq_true_eq]
  by_cases c : a ≤ j ∧ j < a + n
  · rw [if_neg (by omega), if_pos c]; rfl
  · rw [if_pos (by omega), if_neg c]

end Sys2Proof.Machine
end

