-- ==== Sys2Proof/Laws/Keep.lean ====
section
/-! SUPPORT. The functions of the model that leave alone the part of the card that the invariant and the frames speak of
(`_keep`). -/

namespace Sys2Proof.Machine

open Sys2Proof

/-- Each kept field read from the card is the field of its kept part. -/
theorem Keep.parts (c : Card) :
    c.phase = c.keep.phase ∧
    c.power.hclk = c.keep.hclk ∧
    c.power.dock = c.keep.dock ∧
    c.straps.role = c.keep.role ∧
    c.alcove.inUse = c.keep.inUse ∧
    c.flights.marks = c.keep.marks ∧
    c.maint.held = c.keep.held ∧
    c.maint.running = c.keep.running ∧
    c.link.lanes = c.keep.lanes ∧
    c.treads.c = c.keep.tread ∧
    c.media.cells = c.keep.cells ∧
    c.alcove.memA = c.keep.bytes.1 ∧
    c.alcove.memB = c.keep.bytes.2 ∧
    c.straps.slot = c.keep.place.1 ∧
    c.straps.group = c.keep.place.2 :=
  ⟨rfl, rfl, rfl, rfl, rfl, rfl, rfl, rfl, rfl, rfl, rfl, rfl, rfl, rfl, rfl⟩

@[simp] theorem Keep.of_mk (ph : Phase) (pw : Power) (st : Straps) (tr : Treads) (lk : Link) (po : Ports) (fl : Flights)
    (vi : Views) (me : Media) (ha : Halls) (ma : Maint) (lo : Losses) (tw : Twin) (al : Alcove) (ba : Balcony)
    (ou : List Out) (fr : Nat) :
    Card.keep ⟨ph, pw, st, tr, lk, po, fl, vi, me, ha, ma, lo, tw, al, ba, ou, fr⟩ =
      ⟨ph, (al.memA, al.memB), me.cells, (st.slot, st.group), lk.lanes, tr.c, pw.hclk, pw.dock, st.role, al.inUse, fl.marks,
        ma.held, ma.running⟩ := rfl

@[simp] theorem Keep.foldl {α : Type} (f : Card → α → Card) (h : ∀ c x, (f c x).keep = c.keep) (l : List α) (c : Card) :
    (l.foldl f c).keep = c.keep := by
  induction l generalizing c with
  | nil => rfl
  | cons a r ih => simp [ih, h]


theorem Keep.foldl_from {α : Type} (f : Card → α → Card) (h : ∀ c x, (f c x).keep = c.keep) (l : List α) (c d : Card)
    (e : d.keep = c.keep) : (l.foldl f d).keep = c.keep := (Keep.foldl f h l d).trans e

theorem Keep.withMaint (c : Card) (m : Maint) (h : m.held = c.maint.held) (hr : m.running = c.maint.running) :
    ({ c with maint := m } : Card).keep = c.keep := by
  simp [Keep.parts, h, hr]


@[simp] theorem Card.setWing_keep (c : Card) (w : Nat) (v : Wing) :
    (c.setWing w v).keep = c.keep := by
  unfold Card.setWing
  (try dsimp only)
  (repeat' split) <;> simp [Keep.parts]

@[simp] theorem Card.setDie_keep (c : Card) (n : Nat) (v : Die) :
    (c.setDie n v).keep = c.keep := by
  unfold Card.setDie
  (try dsimp only)
  (repeat' split) <;> simp [Keep.parts]

@[simp] theorem Card.bump_keep (c : Card) (n k : Nat) :
    (c.bump n k).keep = c.keep := by
  unfold Card.bump
  (try dsimp only)
  (repeat' split) <;> simp [Keep.parts]

@[simp] theorem Card.ev_keep (c : Card) (n : Nat) (bs : List Byte) :
    (c.ev n bs).keep = c.keep := by
  unfold Card.ev
  (try dsimp only)
  (repeat' split) <;> simp [Keep.parts]

@[simp] theorem Card.enterEvent_keep (c : Card) (e : BalRec) :
    (c.enterEvent e).keep = c.keep := by
  unfold Card.enterEvent
  (try dsimp only)
  (repeat' split) <;> simp [Keep.parts]

@[simp] theorem Card.enterEvents_keep (c : Card) (n : Nat) : (c.enterEvents n).keep = c.keep := by
  unfold Card.enterEvents
  split
  · rfl
  · exact Keep.foldl_from _ (fun c e => by simp) _ _ _ (by simp [Keep.parts])

@[simp] theorem Card.queueLoad_keep (c : Card) :
    c.queueLoad.keep = c.keep := by
  unfold Card.queueLoad
  (try dsimp only)
  (repeat' split) <;> simp [Keep.parts]

@[simp] theorem Card.send_keep (c : Card) (o : Out) :
    (c.send o).keep = c.keep := by
  unfold Card.send
  (try dsimp only)
  (repeat' split) <;> simp [Keep.parts]

@[simp] theorem Card.respond_keep (c : Card) (p : Port) (kind : BitVec 2) (code : BitVec 6) (st : Status) (info : BitVec 24) (z : Bool) :
    (c.respond p kind code st info z).keep = c.keep := by
  unfold Card.respond
  (try dsimp only)
  (repeat' split) <;> simp [Keep.parts]

@[simp] theorem Card.traceFinal_keep (c : Card) (p : Port) (t : Tag) (st : Status) (info : BitVec 24) (z : Bool) :
    (c.traceFinal p t st info z).keep = c.keep := by
  unfold Card.traceFinal
  (try dsimp only)
  (repeat' split) <;> simp [Keep.parts]

@[simp] theorem Card.sendFinal_keep (c : Card) (p : Port) (t : Tag) (st : Status) (info : BitVec 24) (z : Bool) :
    (c.sendFinal p t st info z).keep = c.keep := by
  unfold Card.sendFinal
  (try dsimp only)
  (repeat' split) <;> simp [Keep.parts]

@[simp] theorem Card.sendInterim_keep (c : Card) (p : Port) (t : Tag) (st : Status) (info : BitVec 24) :
    (c.sendInterim p t st info).keep = c.keep := by
  unfold Card.sendInterim
  (try dsimp only)
  (repeat' split) <;> simp [Keep.parts]

@[simp] theorem Card.putTag_keep (c : Card) (t : Tag) (e : TagEntry) :
    (c.putTag t e).keep = c.keep := by
  unfold Card.putTag
  (try dsimp only)
  (repeat' split) <;> simp [Keep.parts]

@[simp] theorem Card.setCmd_keep (c : Card) (t : Tag) (k : Cmd) :
    (c.setCmd t k).keep = c.keep := by
  unfold Card.setCmd
  (try dsimp only)
  (repeat' split) <;> simp [Keep.parts]

@[simp] theorem Card.traceCode_keep (c : Card) (n kind : Nat) (code : DescCode) (blk page : Nat) :
    (c.traceCode n kind code blk page).keep = c.keep := by
  unfold Card.traceCode
  (try dsimp only)
  (repeat' split) <;> simp [Keep.parts]

@[simp] theorem Card.countDesc_keep (c : Card) (d : Desc) :
    (c.countDesc d).keep = c.keep := by
  unfold Card.countDesc
  (try dsimp only)
  (repeat' split) <;> simp [Keep.parts]

@[simp] theorem Card.complete_keep (c : Card) (d : Desc) (code : DescCode) :
    (c.complete d code).keep = c.keep := by
  unfold Card.complete
  (try dsimp only)
  (repeat' split) <;> simp [Keep.parts]

@[simp] theorem Card.keepDescs_keep (c : Card) (p : Desc → Bool) : (c.keepDescs p).keep = c.keep :=
  Keep.foldl_from _ (fun c d => by simp) _ _ _ (by simp [Keep.parts])

@[simp] theorem Card.keepJobs_keep (c : Card) (p : Nat × ReadJob → Bool) :
    (c.keepJobs p).keep = c.keep := by
  unfold Card.keepJobs
  (try dsimp only)
  (repeat' split) <;> simp [Keep.parts]

@[simp] theorem Card.endMoves_keep (c : Card) (p : MoveWhy → Bool) :
    (c.endMoves p).keep = c.keep := by
  unfold Card.endMoves
  (try dsimp only)
  (repeat' split) <;> simp [Keep.parts]

@[simp] theorem Card.untake_keep (c : Card) (k : Nat) :
    (c.untake k).keep = c.keep := by
  unfold Card.untake
  (try dsimp only)
  (repeat' split) <;> simp [Keep.parts]

@[simp] theorem Card.sweep_keep (c : Card) : c.sweep.keep = c.keep :=
  Keep.foldl _ (fun c x => by simp) _ _

@[simp] theorem Card.newPass_keep (c : Card) :
    c.newPass.keep = c.keep := by
  unfold Card.newPass
  (try dsimp only)
  (repeat' split) <;> simp [Keep.parts]

@[simp] theorem Card.passOver_keep (c : Card) :
    (c.passOver).keep = c.keep := by
  unfold Card.passOver
  (try dsimp only)
  (repeat' split) <;> simp [Keep.parts]

@[simp] theorem Card.awaitErase_keep (c : Card) (w : Nat) :
    (c.awaitErase w).keep = c.keep := by
  unfold Card.awaitErase
  (try dsimp only)
  (repeat' split) <;> simp [Keep.parts]

@[simp] theorem Card.inlineErased_keep (c : Card) (w : Nat) (o : EraseOwner) :
    (c.inlineErased w o).keep = c.keep := by
  unfold Card.inlineErased
  (try dsimp only)
  (repeat' split) <;> simp [Keep.parts]

@[simp] theorem Card.cutErase_keep (c : Card) (w : Nat) (hs : List Nat) :
    (c.cutErase w hs).keep = c.keep := by
  unfold Card.cutErase
  (try dsimp only)
  (repeat' split) <;> simp [Keep.parts]

@[simp] theorem Card.endErases_keep (c : Card) (o : EraseOwner) :
    (c.endErases o).keep = c.keep := by
  unfold Card.endErases
  (try dsimp only)
  (repeat' split) <;> simp [Keep.parts]

@[simp] theorem Card.dropWork_keep (c : Card) (t : Tag) :
    (c.dropWork t).keep = c.keep := by
  unfold Card.dropWork
  (try dsimp only)
  (repeat' split) <;> simp [Keep.parts]

@[simp] theorem Card.finish_keep (c : Card) (t : Tag) (st : Status) (info : BitVec 24) (z : Bool) :
    (c.finish t st info z).keep = c.keep := by
  unfold Card.finish
  (try dsimp only)
  (repeat' split) <;> simp [Keep.parts]

@[simp] theorem Card.interim_keep (c : Card) (t : Tag) (info : BitVec 24) :
    (c.interim t info).keep = c.keep := by
  unfold Card.interim
  (try dsimp only)
  (repeat' split) <;> simp [Keep.parts]

@[simp] theorem Card.notice_keep (c : Card) (code : BitVec 6) (info : BitVec 24) :
    (c.notice code info).keep = c.keep := by
  unfold Card.notice
  (try dsimp only)
  (repeat' split) <;> simp [Keep.parts]

@[simp] theorem Card.driveLnd_keep (c : Card) :
    c.driveLnd.keep = c.keep := by
  unfold Card.driveLnd
  (try dsimp only)
  (repeat' split) <;> simp [Keep.parts]

@[simp] theorem Card.askHold_keep (c : Card) :
    c.askHold.keep = c.keep := by
  unfold Card.askHold
  (try dsimp only)
  (repeat' split) <;> simp [Keep.parts]

@[simp] theorem Card.startHold_keep (c : Card) (hostTrains : Bool) :
    (c.startHold hostTrains).keep = c.keep := by
  unfold Card.startHold
  (try dsimp only)
  (repeat' split) <;> simp [Keep.parts]

@[simp] theorem Card.enterTraining_keep (c : Card) (request : Bool) :
    (c.enterTraining request).keep = c.keep := by
  unfold Card.enterTraining
  (try dsimp only)
  (repeat' split) <;> simp [Keep.parts]

@[simp] theorem Card.endHold_keep (c : Card) :
    c.endHold.keep = c.keep := by
  unfold Card.endHold
  (try dsimp only)
  (repeat' split) <;> simp [Keep.parts]

@[simp] theorem Card.sendC2h_keep (c : Card) (t : Tag) (bytes : List Byte) :
    (c.sendC2h t bytes).keep = c.keep := by
  unfold Card.sendC2h
  (try dsimp only)
  (repeat' split) <;> simp [Keep.parts]

@[simp] theorem Card.nextFree_keep (c : Card) :
    c.nextFree.keep = c.keep := by
  unfold Card.nextFree
  (try dsimp only)
  (repeat' split) <;> simp [Keep.parts]

@[simp] theorem Card.badFrame_keep (c : Card) (p : Port) (tagBits : Tag) (cause byte0 : Byte) :
    (c.badFrame p tagBits cause byte0).keep = c.keep := by
  unfold Card.badFrame
  (try dsimp only)
  (repeat' split) <;> simp [Keep.parts]

@[simp] theorem Card.answer_keep (c : Card) (op : Byte) (f : Frame) (st : Status) (info : BitVec 24) :
    (c.answer op f st info).keep = c.keep := by
  unfold Card.answer
  (try dsimp only)
  (repeat' split) <;> simp [Keep.parts]

@[simp] theorem Card.countTaken_keep (c : Card) (p : Port) :
    (c.countTaken p).keep = c.keep := by
  unfold Card.countTaken
  (try dsimp only)
  (repeat' split) <;> simp [Keep.parts]

@[simp] theorem Card.taken_keep (c : Card) (op : Byte) (f : Frame) (k : Cmd) :
    (c.taken op f k).keep = c.keep := by
  unfold Card.taken
  (try dsimp only)
  (repeat' split) <;> simp [Keep.parts]

@[simp] theorem Card.needLanes_keep (c : Card) (t : Tag) (body : Card → Card) (hb : ∀ d : Card, (body d).keep = d.keep) :
    (c.needLanes t body).keep = c.keep := by
  unfold Card.needLanes
  split <;> simp [hb]

@[simp] theorem Card.setStage_keep (c : Card) (n : Nat) (s : EraseStage) :
    (c.setStage n s).keep = c.keep := by
  unfold Card.setStage
  (try dsimp only)
  (repeat' split) <;> simp [Keep.parts]

@[simp] theorem Card.issue_keep (c : Card) (d : Desc) :
    (c.issue d).keep = c.keep := by
  unfold Card.issue
  (try dsimp only)
  (repeat' split) <;> simp [Keep.parts]

@[simp] theorem Card.setPointer_keep (c : Card) (w h n : Nat) :
    (c.setPointer w h n).keep = c.keep := by
  unfold Card.setPointer
  (try dsimp only)
  (repeat' split) <;> simp [Keep.parts]

@[simp] theorem Card.setQueue_keep (c : Card) (h : Nat) (q : List Desc) :
    (c.setQueue h q).keep = c.keep := by
  unfold Card.setQueue
  (try dsimp only)
  (repeat' split) <;> simp [Keep.parts]

@[simp] theorem Card.setBack_keep (c : Card) (h : Nat) (q : List Desc) :
    (c.setBack h q).keep = c.keep := by
  unfold Card.setBack
  (try dsimp only)
  (repeat' split) <;> simp [Keep.parts]

@[simp] theorem Card.startDesc_keep (c : Card) (n : Nat) (d : Desc) :
    (c.startDesc n d).keep = c.keep := by
  unfold Card.startDesc
  (try dsimp only)
  (repeat' split) <;> simp [Keep.parts]

@[simp] theorem Card.pumpOne_keep (c : Card) (n : Nat) :
    (c.pumpOne n).keep = c.keep := by
  unfold Card.pumpOne
  (try dsimp only)
  (repeat' split) <;> simp [Keep.parts]

@[simp] theorem Card.pump_keep (c : Card) (n : Nat) :
    (c.pump n).keep = c.keep := by
  unfold Card.pump
  (try dsimp only)
  (repeat' split) <;> simp [Keep.parts]

@[simp] theorem Card.pumpAll_keep (c : Card) :
    c.pumpAll.keep = c.keep := by
  unfold Card.pumpAll
  (try dsimp only)
  (repeat' split) <;> simp [Keep.parts]

@[simp] theorem Card.noteIssued_keep (c : Card) (a : Action) (k cycles : Nat) :
    (c.noteIssued a k cycles).keep = c.keep := by
  unfold Card.noteIssued
  (try dsimp only)
  (repeat' split) <;> simp [Keep.parts]

@[simp] theorem Card.noteActs_keep (c : Card) :
    (c.noteActs).keep = c.keep := by
  unfold Card.noteActs
  exact Keep.foldl _ (fun c x => by (try dsimp only); (repeat' split) <;> simp) _ _

@[simp] theorem Card.enqueue_keep (c : Card) (d : Desc) :
    (c.enqueue d).keep = c.keep := by
  unfold Card.enqueue
  (try dsimp only)
  (repeat' split) <;> simp [Keep.parts]

@[simp] theorem Card.enqueueAll_keep (c : Card) (ds : List Desc) :
    (c.enqueueAll ds).keep = c.keep := by
  unfold Card.enqueueAll
  (try dsimp only)
  (repeat' split) <;> simp [Keep.parts]

@[simp] theorem Card.issueProgram_keep (c : Card) (k : Nat) :
    (c.issueProgram k).keep = c.keep := by
  unfold Card.issueProgram
  (try dsimp only)
  (repeat' split) <;> simp [Keep.parts]

@[simp] theorem Card.requeue_keep (c : Card) (h : Nat) :
    (c.requeue h).keep = c.keep := by
  unfold Card.requeue
  (try dsimp only)
  (repeat' split) <;> simp [Keep.parts]

@[simp] theorem Card.abortQueued_keep (c : Card) :
    c.abortQueued.keep = c.keep := by
  unfold Card.abortQueued
  (try dsimp only)
  (repeat' split) <;> simp [Keep.parts]

@[simp] theorem Card.putJob_keep (c : Card) (id : Nat) (j : ReadJob) :
    (c.putJob id j).keep = c.keep := by
  unfold Card.putJob
  (try dsimp only)
  (repeat' split) <;> simp [Keep.parts]

@[simp] theorem Card.dropJob_keep (c : Card) (id : Nat) :
    (c.dropJob id).keep = c.keep := by
  unfold Card.dropJob
  (try dsimp only)
  (repeat' split) <;> simp [Keep.parts]

@[simp] theorem Card.newId_keep (c : Card) :
    c.newId.1.keep = c.keep := by
  unfold Card.newId
  (try dsimp only)
  (repeat' split) <;> simp [Keep.parts]

@[simp] theorem Card.startKid_keep (c : Card) (parent : Nat) (mask : BitVec 16) (k : Nat) :
    (c.startKid parent mask k).keep = c.keep := by
  unfold Card.startKid
  (try dsimp only)
  (repeat' split) <;> simp [Keep.parts]

@[simp] theorem Card.markRefresh_keep (c : Card) (w trigger : Nat) :
    (c.markRefresh w trigger).keep = c.keep := by
  unfold Card.markRefresh
  (try dsimp only)
  (repeat' split) <;> simp [Keep.parts]

@[simp] theorem Card.markRead_keep (c : Card) (j : ReadJob) :
    (c.markRead j).keep = c.keep := by
  unfold Card.markRead
  (try dsimp only)
  (repeat' split) <;> simp [Keep.parts]

@[simp] theorem Card.traceStep_keep (c : Card) (j : ReadJob) (step : Nat) :
    (c.traceStep j step).keep = c.keep := by
  unfold Card.traceStep
  (try dsimp only)
  (repeat' split) <;> simp [Keep.parts]

@[simp] theorem Card.startRebuild_keep (c : Card) (id : Nat) (j : ReadJob) :
    (c.startRebuild id j).keep = c.keep := by
  unfold Card.startRebuild
  (try dsimp only)
  (repeat' split) <;> simp [Keep.parts]

@[simp] theorem Card.startJob_keep (c : Card) (k : Nat) (p : Purpose) (strict : Bool) :
    (c.startJob k p strict).keep = c.keep := by
  unfold Card.startJob
  (try dsimp only)
  (repeat' split) <;> simp [Keep.parts]

@[simp] theorem Card.countRead_keep (c : Card) (w : Nat) :
    (c.countRead w).keep = c.keep := by
  unfold Card.countRead
  (try dsimp only)
  (repeat' split) <;> simp [Keep.parts]

@[simp] theorem Card.noteSteps_keep (c : Card) (j : ReadJob) (retry : Nat) :
    (c.noteSteps j retry).keep = c.keep := by
  unfold Card.noteSteps
  (try dsimp only)
  (repeat' split) <;> simp [Keep.parts]

@[simp] theorem Card.endJob_keep (c : Card) (id : Nat) (j : ReadJob) (bad : Bool) :
    (c.endJob id j bad).keep = c.keep := by
  unfold Card.endJob
  (try dsimp only)
  (repeat' split) <;> simp [Keep.parts]

@[simp] theorem Card.dropMoveJob_keep (c : Card) (id : Nat) (j : ReadJob) :
    (c.dropMoveJob id j).keep = c.keep := by
  unfold Card.dropMoveJob
  (try dsimp only)
  (repeat' split) <;> simp [Keep.parts]

@[simp] theorem Card.stepJob_keep (c : Card) (id : Nat) (j : ReadJob) (r : ReadReport) :
    (c.stepJob id j r).keep = c.keep := by
  unfold Card.stepJob
  (try dsimp only)
  (repeat' split) <;> simp [Keep.parts]

@[simp] theorem Card.kidEnded_keep (c : Card) (parent : Nat) (kid : ReadJob) :
    (c.kidEnded parent kid).keep = c.keep := by
  unfold Card.kidEnded
  (try dsimp only)
  (repeat' split) <;> simp [Keep.parts]

@[simp] theorem Card.divertRead_keep (c : Card) (d : Desc) :
    (c.divertRead d).keep = c.keep := by
  unfold Card.divertRead
  (try dsimp only)
  (repeat' split) <;> simp [Keep.parts]

@[simp] theorem Card.divertReads_keep (c : Card) (n : Nat) :
    (c.divertReads n).keep = c.keep := by
  unfold Card.divertReads
  (try dsimp only)
  (repeat' split) <;> simp [Keep.parts]

@[simp] theorem Card.collectKids_keep (c : Card) :
    c.collectKids.keep = c.keep := by
  unfold Card.collectKids
  (try dsimp only)
  (repeat' split) <;>
    (try rw [Keep.foldl _ (fun c x => by (try dsimp only); (repeat' split) <;> simp)]) <;> simp [Keep.parts]

@[simp] theorem Card.crossMark_keep (c : Card) (old new mark code : Nat) :
    (c.crossMark old new mark code).keep = c.keep := by
  unfold Card.crossMark
  (try dsimp only)
  (repeat' split) <;> simp [Keep.parts]

@[simp] theorem Card.evalMarks_keep (c : Card) :
    c.evalMarks.keep = c.keep := by
  unfold Card.evalMarks
  (try dsimp only)
  (repeat' split) <;> simp [Keep.parts]

@[simp] theorem Card.openWing_keep (c : Card) (w : Nat) (move : Bool) :
    (c.openWing w move).keep = c.keep := by
  unfold Card.openWing
  (try dsimp only)
  (repeat' split) <;> simp [Keep.parts]

@[simp] theorem Card.ensureOpen_keep (c : Card) (user : Bool) :
    (c.ensureOpen user).keep = c.keep := by
  unfold Card.ensureOpen
  (try dsimp only)
  (repeat' split) <;> simp [Keep.parts]

@[simp] theorem Card.setOpen_keep (c : Card) (o : OpenWing) :
    (c.setOpen o).keep = c.keep := by
  unfold Card.setOpen
  (try dsimp only)
  (repeat' split) <;> simp [Keep.parts]

@[simp] theorem Card.lodge_keep (c : Card) (o : OpenWing) (g : Gallery) (b : Bay) :
    (c.lodge o g b).keep = c.keep := by
  unfold Card.lodge
  (try dsimp only)
  (repeat' split) <;> simp [Keep.parts]

@[simp] theorem Card.takeHall_keep (c : Card) (o : OpenWing) (g : Gallery) (h : Nat) (b : Bay) :
    (c.takeHall o g h b).keep = c.keep := by
  unfold Card.takeHall
  (try dsimp only)
  (repeat' split) <;> simp [Keep.parts]

@[simp] theorem Card.assignIn_keep (c : Card) (w : Nat) (b : Bay) :
    (c.assignIn w b).1.keep = c.keep := by
  unfold Card.assignIn
  (try dsimp only)
  (repeat' split) <;> simp [Keep.parts]

@[simp] theorem Card.stampBay_keep (c : Card) (b : Bay) :
    (c.stampBay b).1.keep = c.keep := by
  unfold Card.stampBay
  (try dsimp only)
  (repeat' split) <;> simp [Keep.parts]

@[simp] theorem Card.addOwn_keep (c : Card) (w : Nat) (g : Gallery) (h : Nat) (kind : BayKind) (body : Body) :
    (c.addOwn w g h kind body).keep = c.keep := by
  unfold Card.addOwn
  (try dsimp only)
  (repeat' split) <;> simp [Keep.parts]

@[simp] theorem Card.release_keep (c : Card) (ks : List Nat) :
    (c.release ks).keep = c.keep := by
  unfold Card.release
  (try dsimp only)
  (repeat' split) <;> simp [Keep.parts]

@[simp] theorem Card.closeWing_keep (c : Card) (w : Nat) :
    (c.closeWing w).keep = c.keep := by
  unfold Card.closeWing
  (try dsimp only)
  (repeat' split) <;> simp [Keep.parts]

@[simp] theorem Card.startGallery_keep (c : Card) (w : Nat) (g : Gallery) :
    (c.startGallery w g).keep = c.keep := by
  unfold Card.startGallery
  (try dsimp only)
  (repeat' split) <;> simp [Keep.parts]

@[simp] theorem Card.leaveGallery_keep (c : Card) (w : Nat) :
    (c.leaveGallery w).keep = c.keep := by
  unfold Card.leaveGallery
  (try dsimp only)
  (repeat' split) <;> simp [Keep.parts]

@[simp] theorem Card.leaveBare_keep (c : Card) (w cause : Nat) :
    (c.leaveBare w cause).keep = c.keep := by
  unfold Card.leaveBare
  (try dsimp only)
  (repeat' split) <;> simp [Keep.parts]

@[simp] theorem Card.tryParity_keep (c : Card) (w : Nat) :
    (c.tryParity w).keep = c.keep := by
  unfold Card.tryParity
  (try dsimp only)
  (repeat' split) <;> simp [Keep.parts]

@[simp] theorem Card.fillGallery_keep (c : Card) (w n : Nat) :
    (c.fillGallery w n).keep = c.keep := by
  unfold Card.fillGallery
  exact Keep.foldl _ (fun c x => by (try dsimp only); (repeat' split) <;> simp) _ _

@[simp] theorem Card.fillTo_keep (c : Card) (w n : Nat) :
    (c.fillTo w n).keep = c.keep := by
  unfold Card.fillTo
  split
  · rfl
  · rw [Card.tryParity_keep]
    exact Keep.foldl _ (fun c x => by simp) _ _

@[simp] theorem Card.fillWing_keep (c : Card) (w : Nat) : (c.fillWing w).keep = c.keep := by
  unfold Card.fillWing
  (repeat' split) <;> simp

@[simp] theorem Card.continueWing_keep (c : Card) (w : Nat) :
    (c.continueWing w).keep = c.keep := by
  unfold Card.continueWing
  (try dsimp only)
  (repeat' split) <;> simp [Keep.parts]

@[simp] theorem Card.prepare_keep (c : Card) (user : Bool) (n : Nat) : (c.prepare user n).keep = c.keep := by
  induction n generalizing c with
  | zero => rfl
  | succ k ih =>
    simp only [Card.prepare]
    repeat' split
    all_goals simp [ih]

@[simp] theorem Card.draw_keep (c : Card) (user : Bool) (kind : BayKind) (k : Nat) :
    (c.draw user kind k).keep = c.keep := by
  unfold Card.draw
  (try dsimp only)
  (repeat' split) <;> simp [Keep.parts]

@[simp] theorem Card.place_keep (c : Card) (user fresh : Bool) (b : Bay) :
    (c.place user fresh b).1.keep = c.keep := by
  have key (d : Card) (w : Nat) (b : Bay) (h : d.keep = c.keep) :
      (match ({ d with media := { d.media with lastWing := some w } } : Card).assignIn w b with
        | (c, some k) => (c.draw user b.kind k, some k)
        | (c, none) => ((c, none) : Card × Option Nat)).1.keep = c.keep := by
    have e : (({ d with media := { d.media with lastWing := some w } } : Card).assignIn w b).1.keep = c.keep := by
      rw [Card.assignIn_keep]
      exact Eq.trans rfl h
    split <;> next h => rw [h] at e; simpa using e
  unfold Card.place
  dsimp only
  split
  · rfl
  · split
    · simp
    · cases fresh
      · exact key _ _ _ (by simp)
      · exact key _ _ _ (by simp)

@[simp] theorem Card.placeNew_keep (c : Card) (user : Bool) (b : Bay) :
    (c.placeNew user b).1.keep = c.keep := by
  unfold Card.placeNew
  (try dsimp only)
  (repeat' split) <;> simp [Keep.parts]

theorem Card.placeAll_keep (u : Bool) (bs : List Bay) (c d : Card) (ks : List Nat)
    (h : c.placeAll u bs = some (d, ks)) : d.keep = c.keep := by
  induction bs generalizing c d ks with
  | nil => simp only [Card.placeAll, Option.some.injEq, Prod.mk.injEq] at h; rw [← h.1]
  | cons b r ih =>
    unfold Card.placeAll at h
    split at h
    · cases h
    · next x k e =>
      split at h
      · next y ks' e' =>
        simp only [Option.some.injEq, Prod.mk.injEq] at h
        rw [← h.1, ih _ _ _ e', ← Card.placeNew_keep c u b, e]
      · cases h

@[simp] theorem Card.rekey_keep (c : Card) (old new : Nat) :
    (c.rekey old new).keep = c.keep := by
  unfold Card.rekey
  (try dsimp only)
  (repeat' split) <;> simp [Keep.parts]

@[simp] theorem Card.supersede_keep (c : Card) (k : Nat) :
    (c.supersede k).keep = c.keep := by
  unfold Card.supersede
  (try dsimp only)
  (repeat' split) <;> simp [Keep.parts]

@[simp] theorem Card.awaitHome_keep (c : Card) (x : Homeless) :
    (c.awaitHome x).keep = c.keep := by
  unfold Card.awaitHome
  (try dsimp only)
  (repeat' split) <;> simp [Keep.parts]

@[simp] theorem Card.traceRedrive_keep (c : Card) (cause k n : Nat) :
    (c.traceRedrive cause k n).keep = c.keep := by
  unfold Card.traceRedrive
  (try dsimp only)
  (repeat' split) <;> simp [Keep.parts]

@[simp] theorem Card.redrive_keep (c : Card) (k cause : Nat) :
    (c.redrive k cause).keep = c.keep := by
  unfold Card.redrive
  (try dsimp only)
  (repeat' split) <;> (try simp only [Prod.ext_iff] at *) <;> (try casesm* _ ∧ _) <;> (try subst_vars) <;>
    simp_all

@[simp] theorem Card.recopy_keep (c : Card) (cause k : Nat) : (c.recopy cause k).keep = c.keep := by
  unfold Card.recopy
  split
  · rfl
  · next b _ =>
    split
    · have h := Card.place_keep c (c.isUser k b) false { b with reloc := false }
      split
      · next d n e =>
        rw [e] at h
        simpa [Keep.parts] using h
      · simp
    · rfl

@[simp] theorem Card.releaseBare_keep (c : Card) (k : Nat) : (c.releaseBare k).keep = c.keep := by
  unfold Card.releaseBare
  split <;> simp

@[simp] theorem Card.rehome_keep (c : Card) : c.rehome.keep = c.keep := by
  unfold Card.rehome
  refine Keep.foldl_from _ (fun c x => by simp) _ _ _ ?_
  exact Keep.foldl_from _ (fun c x => by split <;> simp) _ _ _ (by simp [Keep.parts])

@[simp] theorem Card.loseHall_keep (c : Card) (k : Nat) (seq : Nat) :
    (c.loseHall k seq).keep = c.keep := by
  unfold Card.loseHall
  (try dsimp only)
  (repeat' split) <;> simp [Keep.parts]

@[simp] theorem Card.missHall_keep (c : Card) (n : Nat) :
    (c.missHall n).keep = c.keep := by
  unfold Card.missHall
  (try dsimp only)
  (repeat' split) <;> simp [Keep.parts]

@[simp] theorem Card.closeShort_keep (c : Card) (w cause : Nat) : (c.closeShort w cause).keep = c.keep := by
  unfold Card.closeShort
  dsimp only
  split
  · simp
  · rw [Card.fillWing_keep]
    exact Keep.foldl_from _ (fun c x => by (repeat' split) <;> simp) _ _ _ (by simp)

@[simp] theorem Card.decideWear_keep (c : Card) :
    c.decideWear.keep = c.keep := by
  unfold Card.decideWear
  (try dsimp only)
  (repeat' split) <;> simp [Keep.parts]

@[simp] theorem Card.appendLedger_keep (c : Card) (e : LedgerEntry) :
    (c.appendLedger e).keep = c.keep := by
  unfold Card.appendLedger
  (try dsimp only)
  (repeat' split) <;> simp [Keep.parts]

@[simp] theorem Card.reclass_keep (c : Card) (w : Nat) :
    (c.reclass w).keep = c.keep := by
  unfold Card.reclass
  (try dsimp only)
  (repeat' split) <;> simp [Keep.parts]

@[simp] theorem Card.retire_keep (c : Card) (h d b : Nat) (cause : LedgerCause) (epoch : Nat) :
    (c.retire h d b cause epoch).keep = c.keep := by
  unfold Card.retire
  (try dsimp only)
  (repeat' split) <;> simp [Keep.parts]

@[simp] theorem Card.countPulses_keep (c : Card) (k pulses : Nat) :
    (c.countPulses k pulses).keep = c.keep := by
  unfold Card.countPulses
  (try dsimp only)
  (repeat' split) <;> simp [Keep.parts]

@[simp] theorem Card.advanceGallery_keep (c : Card) (k : Nat) (kind : BayKind) :
    (c.advanceGallery k kind).keep = c.keep := by
  unfold Card.advanceGallery
  (try dsimp only)
  (repeat' split) <;> simp [Keep.parts]

@[simp] theorem Card.programLost_keep (c : Card) (k cause : Nat) (bad : Bool) :
    (c.programLost k cause bad).keep = c.keep := by
  unfold Card.programLost
  (try dsimp only)
  (repeat' split) <;> simp [Keep.parts]

@[simp] theorem Card.applyAll_keep (c : Card) (xs : List Change) :
    (c.applyAll xs).keep = c.keep := by
  unfold Card.applyAll
  (try dsimp only)
  (repeat' split) <;> simp [Keep.parts]

@[simp] theorem Card.storeLoss_keep (c : Card) (e : Loss) :
    (c.storeLoss e).keep = c.keep := by
  unfold Card.storeLoss
  (try dsimp only)
  (repeat' split) <;> simp [Keep.parts]

@[simp] theorem Card.addLoss_keep (c : Card) (k : Nat) (source : LossSource) (blind : Bool) :
    (c.addLoss k source blind).keep = c.keep := by
  unfold Card.addLoss
  (try dsimp only)
  (repeat' split) <;> simp [Keep.parts]

@[simp] theorem Card.carryLosses_keep (c : Card) (f : Flight) (seq : Nat) (rec : List Loss) :
    (c.carryLosses f seq rec).keep = c.keep := by
  unfold Card.carryLosses
  (try dsimp only)
  (repeat' split) <;> simp [Keep.parts]

@[simp] theorem Card.reportLosses_keep (c : Card) :
    c.reportLosses.keep = c.keep := by
  unfold Card.reportLosses
  (try dsimp only)
  (repeat' split) <;> simp [Keep.parts]

@[simp] theorem Card.notePiece_keep (c : Card) (p : Piece) (q : Purpose) (strict : Bool) (k : Nat) :
    (c.notePiece p q strict k).keep = c.keep := by
  unfold Card.notePiece
  (try dsimp only)
  (repeat' split) <;> simp [Keep.parts]

@[simp] theorem Card.startReads_keep (c : Card) (ps : List Piece) (p : Nat → Purpose) (strict : Bool) :
    (c.startReads ps p strict).keep = c.keep := by
  unfold Card.startReads
  (try dsimp only)
  (repeat' split) <;>
    (try rw [Keep.foldl _ (fun c x => by (try dsimp only); (repeat' split) <;> simp)]) <;> simp [Keep.parts]

@[simp] theorem Card.countBytes_keep (c : Card) (n : Nat) :
    (c.countBytes n).keep = c.keep := by
  unfold Card.countBytes
  (try dsimp only)
  (repeat' split) <;> simp [Keep.parts]

@[simp] theorem Card.finishRead_keep (c : Card) (t : Tag) (w : ReadWork) :
    (c.finishRead t w).keep = c.keep := by
  unfold Card.finishRead
  (try dsimp only)
  (repeat' split) <;> simp [Keep.parts]

@[simp] theorem Card.finishVerify_keep (c : Card) (t : Tag) (w : ReadWork) :
    (c.finishVerify t w).keep = c.keep := by
  unfold Card.finishVerify
  (try dsimp only)
  (repeat' split) <;> simp [Keep.parts]

@[simp] theorem Card.openSegment_keep (c : Card) (t : Tag) (s : StreamWork) :
    (c.openSegment t s).keep = c.keep := by
  unfold Card.openSegment
  (try dsimp only)
  (repeat' split) <;> simp [Keep.parts]

@[simp] theorem Card.doRead_keep (c : Card) (f : Frame) :
    (c.doRead f).keep = c.keep := by
  unfold Card.doRead
  (try dsimp only)
  (repeat' split) <;> simp [Keep.parts]

@[simp] theorem Card.doVerify_keep (c : Card) (f : Frame) :
    (c.doVerify f).keep = c.keep := by
  unfold Card.doVerify
  (try dsimp only)
  (repeat' split) <;> simp [Keep.parts]

@[simp] theorem Card.doStream_keep (c : Card) (f : Frame) :
    (c.doStream f).keep = c.keep := by
  unfold Card.doStream
  (try dsimp only)
  (repeat' split) <;> simp [Keep.parts]

@[simp] theorem Card.endStream_keep (c : Card) (t : Tag) (s : StreamWork) :
    (c.endStream t s).keep = c.keep := by
  unfold Card.endStream
  (try dsimp only)
  (repeat' split) <;> simp [Keep.parts]

@[simp] theorem Card.segmentStart_keep (c : Card) (t : Tag) :
    (c.segmentStart t).keep = c.keep := by
  unfold Card.segmentStart
  (try dsimp only)
  (repeat' split) <;> simp [Keep.parts]

@[simp] theorem Card.doStop_keep (c : Card) (f : Frame) :
    (c.doStop f).keep = c.keep := by
  unfold Card.doStop
  (try dsimp only)
  (repeat' split) <;> simp [Keep.parts]

@[simp] theorem Card.answerStops_keep (c : Card) :
    (c.answerStops).keep = c.keep := by
  unfold Card.answerStops
  (try dsimp only)
  (repeat' split) <;> simp [Keep.parts]

@[simp] theorem Card.emptied_keep (c : Card) (w : Nat) :
    (c.emptied w).keep = c.keep := by
  unfold Card.emptied
  (try dsimp only)
  (repeat' split) <;> simp [Keep.parts]

@[simp] theorem Card.traceVictim_keep (c : Card) (w : Nat) (inl : Bool) :
    (c.traceVictim w inl).keep = c.keep := by
  unfold Card.traceVictim
  (try dsimp only)
  (repeat' split) <;> simp [Keep.parts]

@[simp] theorem Card.countInline_keep (c : Card) (t : Tag) (again : Nat) :
    (c.countInline t again).keep = c.keep := by
  unfold Card.countInline
  (try dsimp only)
  (repeat' split) <;> simp [Keep.parts]

@[simp] theorem Card.dropMove_keep (c : Card) (id : Nat) :
    (c.dropMove id).keep = c.keep := by
  unfold Card.dropMove
  (try dsimp only)
  (repeat' split) <;> simp [Keep.parts]

@[simp] theorem Card.moveBack_keep (c : Card) (id : Nat) (m : Move) :
    (c.moveBack id m).keep = c.keep := by
  unfold Card.moveBack
  (try dsimp only)
  (repeat' split) <;> simp [Keep.parts]

@[simp] theorem Card.copyBay_keep (c : Card) (id : Nat) (m : Move) (b : Bay) :
    (c.copyBay id m b).keep = c.keep := by
  unfold Card.copyBay
  (try dsimp only)
  (repeat' split) <;> simp [Keep.parts]

@[simp] theorem Card.moveLost_keep (c : Card) (id : Nat) (blind : Bool) :
    (c.moveLost id blind).keep = c.keep := by
  unfold Card.moveLost
  (try dsimp only)
  (repeat' split) <;> simp [Keep.parts]

@[simp] theorem Card.startMove_keep (c : Card) (k : Nat) (why : MoveWhy) :
    (c.startMove k why).keep = c.keep := by
  unfold Card.startMove
  (try dsimp only)
  (repeat' split) <;> simp [Keep.parts]

@[simp] theorem Card.moveGot_keep (c : Card) (id : Nat) :
    (c.moveGot id).keep = c.keep := by
  unfold Card.moveGot
  (try dsimp only)
  (repeat' split) <;> simp [Keep.parts]

@[simp] theorem Card.startErase_keep (c : Card) (w : Nat) (o : EraseOwner) :
    (c.startErase w o).keep = c.keep := by
  unfold Card.startErase
  (try dsimp only)
  (repeat' split) <;> simp [Keep.parts]

@[simp] theorem Card.abortSuspended_keep (c : Card) (w : Nat) :
    (c.abortSuspended w).keep = c.keep := by
  unfold Card.abortSuspended
  (try dsimp only)
  (repeat' split) <;> simp [Keep.parts]

@[simp] theorem Card.abortErases_keep (c : Card) :
    c.abortErases.keep = c.keep := by
  unfold Card.abortErases
  (try dsimp only)
  (repeat' split) <;> simp [Keep.parts]

@[simp] theorem Card.newVictim_keep (c : Card) :
    c.newVictim.1.keep = c.keep := by
  unfold Card.newVictim
  (try dsimp only)
  (repeat' split) <;> simp [Keep.parts]

@[simp] theorem Card.inlineVictim_keep (c : Card) :
    c.inlineVictim.1.keep = c.keep := by
  unfold Card.inlineVictim
  (try dsimp only)
  (repeat' split) <;> simp [Keep.parts]

@[simp] theorem Card.setInline_keep (c : Card) (t : Tag) (f : WriteWork → WriteWork) :
    (c.setInline t f).keep = c.keep := by
  unfold Card.setInline
  (try dsimp only)
  (repeat' split) <;> simp [Keep.parts]

@[simp] theorem Card.inlineErase_keep (c : Card) (t : Tag) (w : Nat) :
    (c.inlineErase t w).keep = c.keep := by
  unfold Card.inlineErase
  (try dsimp only)
  (repeat' split) <;> simp [Keep.parts]

@[simp] theorem Card.inlineTry_keep (c : Card) (t : Tag) (w : Nat) :
    (c.inlineTry t w).keep = c.keep := by
  unfold Card.inlineTry
  (try dsimp only)
  (repeat' split) <;> simp [Keep.parts]

@[simp] theorem Card.inlineSpent_keep (c : Card) (t : Tag) (w : Nat) :
    (c.inlineSpent t w).keep = c.keep := by
  unfold Card.inlineSpent
  (try dsimp only)
  (repeat' split) <;> simp [Keep.parts]

@[simp] theorem Card.inlineTake_keep (c : Card) (t : Tag) (due w : Nat) :
    (c.inlineTake t due w).keep = c.keep := by
  unfold Card.inlineTake
  (try dsimp only)
  (repeat' split) <;> simp [Keep.parts]

@[simp] theorem Card.inlineMore_keep (c : Card) (t : Tag) (n : Nat) : (c.inlineMore t n).keep = c.keep := by
  induction n generalizing c with
  | zero => simp [Card.inlineMore]
  | succ n ih =>
    unfold Card.inlineMore
    (repeat' split) <;> (try simp only [Prod.ext_iff] at *) <;> (try casesm* _ ∧ _) <;> (try subst_vars) <;>
      simp_all

@[simp] theorem Card.inlineStep_keep (c : Card) (t : Tag) :
    (c.inlineStep t).keep = c.keep := by
  unfold Card.inlineStep
  (try dsimp only)
  (repeat' split) <;> simp [Keep.parts]

@[simp] theorem Card.inlineReclaim_keep (c : Card) (t : Tag) (b : Nat) :
    (c.inlineReclaim t b).keep = c.keep := by
  unfold Card.inlineReclaim
  (try dsimp only)
  (repeat' split) <;> (try simp only [Prod.ext_iff] at *) <;> (try casesm* _ ∧ _) <;> (try subst_vars) <;>
    simp_all

@[simp] theorem Card.leaveTarget_keep (c : Card) :
    c.leaveTarget.keep = c.keep := by
  unfold Card.leaveTarget
  (try dsimp only)
  (repeat' split) <;> simp [Keep.parts]

@[simp] theorem Card.moveOver_keep (c : Card) (w : Nat) :
    (c.moveOver w).keep = c.keep := by
  unfold Card.moveOver
  (try dsimp only)
  (repeat' split) <;> simp [Keep.parts]

@[simp] theorem Card.moveDone_keep (c : Card) (id : Nat) (m : Move) (dst : Nat) :
    (c.moveDone id m dst).keep = c.keep := by
  unfold Card.moveDone
  (try dsimp only)
  (repeat' split) <;> simp [Keep.parts]

@[simp] theorem Card.cutVisit_keep (c : Card) :
    c.cutVisit.keep = c.keep := by
  unfold Card.cutVisit
  (try dsimp only)
  (repeat' split) <;> simp [Keep.parts]

@[simp] theorem Card.cutWindow_keep (c : Card) :
    c.cutWindow.keep = c.keep := by
  unfold Card.cutWindow
  (try dsimp only)
  (repeat' split) <;> simp [Keep.parts]

@[simp] theorem Card.dropSync_keep (c : Card) (reason type seq : Byte) :
    (c.dropSync reason type seq).keep = c.keep := by
  unfold Card.dropSync
  (try dsimp only)
  (repeat' split) <;> simp [Keep.parts]

@[simp] theorem Card.closeFlight_keep (c : Card) :
    c.closeFlight.keep = c.keep := by
  unfold Card.closeFlight
  (try dsimp only)
  (repeat' split) <;> simp [Keep.parts]

@[simp] theorem Card.completeRange_keep (c : Card) (lo hi : Nat) :
    (c.completeRange lo hi).keep = c.keep := by
  unfold Card.completeRange
  (try dsimp only)
  (repeat' split) <;> simp [Keep.parts]

@[simp] theorem Card.setAct_keep (c : Card) (a : Action) :
    (c.setAct a).keep = c.keep := by
  unfold Card.setAct
  (try dsimp only)
  (repeat' split) <;> simp [Keep.parts]

@[simp] theorem Card.stepAct_keep (c : Card) (a : Action) : (c.stepAct a).keep = c.keep := by
  unfold Card.stepAct
  repeat' split
  all_goals first | (simp; done) | (have h := Card.placeAll_keep _ _ _ _ _ (by assumption); simp [h])

@[simp] theorem Card.placeMark_keep (c : Card) (x : HeldMark × Nat) : (c.placeMark x).keep = c.keep := by
  unfold Card.placeMark
  split
  · next h => rw [← Card.placeNew_keep c, h]
  · rfl

@[simp] theorem Card.placeDue_keep (c : Card) :
    c.placeDue.keep = c.keep := by
  unfold Card.placeDue
  (try dsimp only)
  (repeat' split) <;> simp [Keep.parts]

@[simp] theorem Card.stepActs_keep (c : Card) :
    c.stepActs.keep = c.keep := by
  unfold Card.stepActs
  (try dsimp only)
  (repeat' split) <;> simp [Keep.parts]

@[simp] theorem Card.executeLanding_keep (c : Card) (f : Flight) (late : Nat) (src : ActSrc) :
    (c.executeLanding f late src).keep = c.keep := by
  unfold Card.executeLanding
  (try dsimp only)
  (repeat' split) <;> simp [Keep.parts]

@[simp] theorem Card.sendBurst_keep (c : Card) (failed : Bool) :
    (c.sendBurst failed).keep = c.keep := by
  unfold Card.sendBurst
  (try dsimp only)
  (repeat' split) <;> simp [Keep.parts]

@[simp] theorem Card.setPair_keep (c : Card) (p : BitVec 8) (f : Flight) :
    (c.setPair p f).keep = c.keep := by
  unfold Card.setPair
  (try dsimp only)
  (repeat' split) <;> simp [Keep.parts]

@[simp] theorem Card.judgeUp_keep (c : Card) (n : Nat) : (c.judgeUp n).keep = c.keep := by
  induction n generalizing c with
  | zero => rfl
  | succ k ih =>
    unfold Card.judgeUp
    split
    · next e _ _ =>
      cases e
      split
      · dsimp only
        rw [ih]
        split <;> simp [Keep.parts]
      · rfl
    · rfl

@[simp] theorem Card.judge_keep (c : Card) :
    c.judge.keep = c.keep := by
  unfold Card.judge
  (try dsimp only)
  (repeat' split) <;> simp [Keep.parts]

@[simp] theorem Card.twinEnd_keep (c : Card) (f : Flight) (failed : Bool) :
    (c.twinEnd f failed).keep = c.keep := by
  unfold Card.twinEnd
  (try dsimp only)
  (repeat' split) <;> simp [Keep.parts]

@[simp] theorem Card.removeAct_keep (c : Card) (a : Action) :
    (c.removeAct a).keep = c.keep := by
  unfold Card.removeAct
  (try dsimp only)
  (repeat' split) <;> simp [Keep.parts]

@[simp] theorem Card.countWritten_keep (c : Card) (w : WriteWork) :
    (c.countWritten w).keep = c.keep := by
  unfold Card.countWritten
  (try dsimp only)
  (repeat' split) <;> simp [Keep.parts]

@[simp] theorem Card.landedResponse_keep (c : Card) (t : Tag) (info : Nat) :
    (c.landedResponse t info).keep = c.keep := by
  unfold Card.landedResponse
  (try dsimp only)
  (repeat' split) <;> simp [Keep.parts]

@[simp] theorem Card.landingResponse_false (c : Card) (a : Action) : (c.landingResponse a false).keep = c.keep := by
  unfold Card.landingResponse
  split <;> simp

@[simp] theorem Card.failAct_keep (c : Card) (a : Action) :
    (c.failAct a).keep = c.keep := by
  unfold Card.failAct
  (try dsimp only)
  (repeat' split) <;> simp [Keep.parts]

@[simp] theorem Card.failLanding_keep (c : Card) (a : Action) :
    (c.failLanding a).keep = c.keep := by
  unfold Card.failLanding
  (try dsimp only)
  (repeat' split) <;> simp [Keep.parts]

@[simp] theorem Card.lodgeAct_keep (c : Card) (a : Action) (k since : Nat) :
    (c.lodgeAct a k since).keep = c.keep := by
  unfold Card.lodgeAct
  (try dsimp only)
  (repeat' split) <;> simp [Keep.parts]

@[simp] theorem Card.issueLanding_keep (c : Card) (since : Nat) :
    (c.issueLanding since).keep = c.keep := by
  unfold Card.issueLanding
  (try dsimp only)
  (repeat' split) <;> (try simp only [Prod.ext_iff] at *) <;> (try casesm* _ ∧ _) <;> (try subst_vars) <;>
    simp_all

@[simp] theorem Card.landingCutoff_keep (c : Card) :
    c.landingCutoff.keep = c.keep := by
  unfold Card.landingCutoff
  (try dsimp only)
  (repeat' split) <;> simp [Keep.parts]

@[simp] theorem Card.disown_keep (c : Card) (w : WriteWork) :
    (c.disown w).keep = c.keep := by
  unfold Card.disown
  (try dsimp only)
  (repeat' split) <;> simp [Keep.parts]

@[simp] theorem Card.rollCommands_keep (c : Card) (a : Action) :
    (c.rollCommands a).keep = c.keep := by
  unfold Card.rollCommands
  (try dsimp only)
  (repeat' split) <;> simp [Keep.parts]

@[simp] theorem Card.executeRollback_keep (c : Card) (f : Flight) (src : ActSrc) :
    (c.executeRollback f src).keep = c.keep := by
  unfold Card.executeRollback
  (try dsimp only)
  (repeat' split) <;> simp [Keep.parts]

@[simp] theorem Card.staleAct_keep (c : Card) (src : ActSrc) (rollback : Bool) :
    (c.staleAct src rollback).keep = c.keep := by
  unfold Card.staleAct
  (try dsimp only)
  (repeat' split) <;> simp [Keep.parts]

@[simp] theorem Card.issueRollback_keep (c : Card) (since : Nat) :
    (c.issueRollback since).keep = c.keep := by
  unfold Card.issueRollback
  (try dsimp only)
  (repeat' split) <;> (try simp only [Prod.ext_iff] at *) <;> (try casesm* _ ∧ _) <;> (try subst_vars) <;>
    simp_all

@[simp] theorem Card.failRollback_keep (c : Card) (a : Action) :
    (c.failRollback a).keep = c.keep := by
  unfold Card.failRollback
  (try dsimp only)
  (repeat' split) <;> simp [Keep.parts]

@[simp] theorem Card.rollbackCutoff_keep (c : Card) :
    c.rollbackCutoff.keep = c.keep := by
  unfold Card.rollbackCutoff
  (try dsimp only)
  (repeat' split) <;> simp [Keep.parts]

@[simp] theorem Card.rolledBack_keep (c : Card) (a : Action) (b : Bay) :
    (c.rolledBack a b).keep = c.keep := by
  unfold Card.rolledBack
  (try dsimp only)
  (repeat' split) <;> simp [Keep.parts]

@[simp] theorem Card.unhold_keep (c : Card) :
    c.unhold.keep = c.keep := by
  unfold Card.unhold
  (try dsimp only)
  (repeat' split) <;> simp [Keep.parts]

@[simp] theorem Card.landingExecute_keep (c : Card) :
    c.landingExecute.keep = c.keep := by
  unfold Card.landingExecute
  (try dsimp only)
  (repeat' split) <;> simp [Keep.parts]

@[simp] theorem Card.rollbackExecute_keep (c : Card) :
    c.rollbackExecute.keep = c.keep := by
  unfold Card.rollbackExecute
  (try dsimp only)
  (repeat' split) <;> simp [Keep.parts]

@[simp] theorem Card.hold_keep (c : Card) (h : Held) :
    (c.hold h).keep = c.keep := by
  unfold Card.hold
  (try dsimp only)
  (repeat' split) <;> simp [Keep.parts]

@[simp] theorem Card.lateLanding_keep (c : Card) (f : Flight) (late : Nat) (src : ActSrc) :
    (c.lateLanding f late src).keep = c.keep := by
  unfold Card.lateLanding
  (try dsimp only)
  (repeat' split) <;> simp [Keep.parts]

@[simp] theorem Card.doLand_keep (c : Card) (f : Frame) :
    (c.doLand f).keep = c.keep := by
  unfold Card.doLand
  (try dsimp only)
  (repeat' split) <;> simp [Keep.parts]

@[simp] theorem Card.doRollback_keep (c : Card) (f : Frame) :
    (c.doRollback f).keep = c.keep := by
  unfold Card.doRollback
  (try dsimp only)
  (repeat' split) <;> simp [Keep.parts]

@[simp] theorem Card.setWrite_keep (c : Card) (t : Tag) (w : WriteWork) :
    (c.setWrite t w).keep = c.keep := by
  unfold Card.setWrite
  (try dsimp only)
  (repeat' split) <;> simp [Keep.parts]

@[simp] theorem Card.issueMerges_keep (c : Card) (t : Tag) (w : WriteWork) :
    (c.issueMerges t w).keep = c.keep := by
  unfold Card.issueMerges
  (try dsimp only)
  (repeat' split) <;> simp [Keep.parts]

@[simp] theorem Card.applyWrite_keep (c : Card) (t : Tag) (w : WriteWork) :
    (c.applyWrite t w).keep = c.keep := by
  unfold Card.applyWrite
  (try dsimp only)
  (repeat' split) <;> simp [Keep.parts]

@[simp] theorem Card.lateInline_keep (c : Card) (t : Tag) (w : WriteWork) (n : Nat) :
    (c.lateInline t w n).keep = c.keep := by
  unfold Card.lateInline
  (try dsimp only)
  (repeat' split) <;> simp [Keep.parts]

theorem Card.placeWrite_keep (c d : Card) (t : Tag) (w : WriteWork) (bs : List Bay) (ks : List Nat)
    (h : c.placeWrite t w bs = some (d, ks)) : d.keep = c.keep := by
  unfold Card.placeWrite at h
  split at h
  · exact (Card.placeAll_keep _ _ _ _ _ h).trans (by simp)
  · exact Card.placeAll_keep _ _ _ _ _ h

@[simp] theorem Card.assignWrite_keep (c : Card) (t : Tag) (w : WriteWork) : (c.assignWrite t w).keep = c.keep := by
  unfold Card.assignWrite
  dsimp only
  repeat' split
  all_goals first | (simp; done) | (have h := Card.placeWrite_keep _ _ _ _ _ _ (by assumption); simp [h])

@[simp] theorem Card.completeWrite_keep (c : Card) (t : Tag) (w : WriteWork) :
    (c.completeWrite t w).keep = c.keep := by
  unfold Card.completeWrite
  (try dsimp only)
  (repeat' split) <;> simp [Keep.parts]

@[simp] theorem Card.advanceWrite_keep (c : Card) (t : Tag) :
    (c.advanceWrite t).keep = c.keep := by
  unfold Card.advanceWrite
  (try dsimp only)
  (repeat' split) <;> simp [Keep.parts]

@[simp] theorem Card.delayedStart_keep (c : Card) (t : Tag) :
    (c.delayedStart t).keep = c.keep := by
  unfold Card.delayedStart
  (try dsimp only)
  (repeat' split) <;> simp [Keep.parts]

@[simp] theorem Card.doDiscardZ_keep (c : Card) (f : Frame) :
    (c.doDiscardZ f).keep = c.keep := by
  unfold Card.doDiscardZ
  (try dsimp only)
  (repeat' split) <;> simp [Keep.parts]

@[simp] theorem Card.markH_keep (c : Card) (b : Nat) :
    (c.markH b).keep = c.keep := by
  unfold Card.markH
  (try dsimp only)
  (repeat' split) <;> simp [Keep.parts]

@[simp] theorem Card.doDiscardH_keep (c : Card) (f : Frame) :
    (c.doDiscardH f).keep = c.keep := by
  unfold Card.doDiscardH
  (try dsimp only)
  (repeat' split) <;> simp [Keep.parts]

@[simp] theorem Card.laneDecode_keep (c : Card) (lane : BitVec 2) (x : RxFrame) (idle : Bool) :
    (c.laneDecode lane x idle).1.keep = c.keep := by
  unfold Card.laneDecode
  (try dsimp only)
  (repeat' split) <;> simp [Keep.parts]

@[simp] theorem Card.dataFrame_keep (c : Card) (w : LaneWord) :
    (c.dataFrame w).keep = c.keep := by
  unfold Card.dataFrame
  (try dsimp only)
  (repeat' split) <;> simp [Keep.parts]

@[simp] theorem Card.endXfer_keep (c : Card) (t : Tag) (w : WriteWork) (x : Xfer) :
    (c.endXfer t w x).keep = c.keep := by
  unfold Card.endXfer
  (try dsimp only)
  (repeat' split) <;> simp [Keep.parts]

@[simp] theorem Card.trailerFrame_keep (c : Card) (w : LaneWord) :
    (c.trailerFrame w).keep = c.keep := by
  unfold Card.trailerFrame
  (try dsimp only)
  (repeat' split) <;> simp [Keep.parts]

@[simp] theorem Card.trailerTimeout_keep (c : Card) (t : Tag) :
    (c.trailerTimeout t).keep = c.keep := by
  unfold Card.trailerTimeout
  (try dsimp only)
  (repeat' split) <;> simp [Keep.parts]

@[simp] theorem Card.idleFrame_keep (c : Card) (w : LaneWord) :
    (c.idleFrame w).keep = c.keep := by
  unfold Card.idleFrame
  (try dsimp only)
  (repeat' split) <;> simp [Keep.parts]

@[simp] theorem Card.traceAlcove_keep (c : Card) (o : AlcoveOp) :
    (c.traceAlcove o).keep = c.keep := by
  unfold Card.traceAlcove
  (try dsimp only)
  (repeat' split) <;> simp [Keep.parts]

@[simp] theorem Card.setService_keep (c : Card) (x : Option (Tag × Service)) :
    (c.setService x).keep = c.keep := by
  unfold Card.setService
  (try dsimp only)
  (repeat' split) <;> simp [Keep.parts]

@[simp] theorem Card.addOps_keep (c : Card) (os : List AlcoveOp) :
    (c.addOps os).keep = c.keep := by
  unfold Card.addOps
  (try dsimp only)
  (repeat' split) <;> simp [Keep.parts]

@[simp] theorem Card.unfence_keep (c : Card) :
    c.unfence.keep = c.keep := by
  unfold Card.unfence
  (try dsimp only)
  (repeat' split) <;> simp [Keep.parts]

@[simp] theorem Card.endService_keep (c : Card) (t : Tag) (st : Status) (info : BitVec 24) :
    (c.endService t st info).keep = c.keep := by
  unfold Card.endService
  (try dsimp only)
  (repeat' split) <;> simp [Keep.parts]

@[simp] theorem Card.voidConf_keep (c : Card) :
    c.voidConf.keep = c.keep := by
  unfold Card.voidConf
  (try dsimp only)
  (repeat' split) <;> simp [Keep.parts]

@[simp] theorem Card.doFormat_keep (c : Card) (f : Frame) :
    (c.doFormat f).keep = c.keep := by
  unfold Card.doFormat
  (try dsimp only)
  (repeat' split) <;> simp [Keep.parts]

@[simp] theorem Card.sendExt_keep (c : Card) (kind : BitVec 2) (t : Tag) (info : BitVec 24) (payload : List Byte) :
    (c.sendExt kind t info payload).keep = c.keep := by
  unfold Card.sendExt
  (try dsimp only)
  (repeat' split) <;> simp [Keep.parts]

@[simp] theorem Card.sendParts_keep (c : Card) (t : Tag) (parts : List (List Byte)) :
    (c.sendParts t parts).keep = c.keep := by
  unfold Card.sendParts
  (try dsimp only)
  (repeat' split) <;> simp [Keep.parts]

@[simp] theorem Card.withConf_keep (c : Card) (g : Conf → Conf) :
    (c.withConf g).keep = c.keep := by
  unfold Card.withConf
  (try dsimp only)
  (repeat' split) <;> simp [Keep.parts]

@[simp] theorem Card.recordBack_keep (c : Card) (good : Option (AlcoveId × Bool)) (i : AlcoveId) (s : Bool) (r : Record) :
    (c.recordBack good i s r).1.keep = c.keep := by
  unfold Card.recordBack
  (try dsimp only)
  (repeat' split) <;> simp [Keep.parts]

@[simp] theorem Card.serviceOp_keep (c : Card) (o : AlcoveOp) :
    (c.serviceOp o).keep = c.keep := by
  unfold Card.serviceOp
  (try dsimp only)
  (repeat' split) <;> simp [Keep.parts]

@[simp] theorem Card.traceRefusal_keep (c : Card) (n b : Nat) (ok : Bool) :
    (c.traceRefusal n b ok).keep = c.keep := by
  unfold Card.traceRefusal
  (try dsimp only)
  (repeat' split) <;> simp [Keep.parts]

@[simp] theorem Card.formatRefusal_keep (c : Card) (h d b : Nat) :
    (c.formatRefusal h d b).keep = c.keep := by
  unfold Card.formatRefusal
  (try dsimp only)
  (repeat' split) <;> simp [Keep.parts]

@[simp] theorem Card.fencedErase_keep (c : Card) (t : Tag) (n : Nat) (p : KV Nat) (running : List Nat) :
    (c.fencedErase t n p running).keep = c.keep := by
  unfold Card.fencedErase
  (try dsimp only)
  (repeat' split) <;> simp [Keep.parts]

@[simp] theorem Card.serviceFenced_keep (c : Card) (h d : Nat) :
    (c.serviceFenced h d).keep = c.keep := by
  unfold Card.serviceFenced
  (try dsimp only)
  (repeat' split) <;> simp [Keep.parts]

@[simp] theorem Card.lossIf_keep (c : Card) (j : ReadJob) (s : LossSource) :
    (c.lossIf j s).keep = c.keep := by
  unfold Card.lossIf
  (try dsimp only)
  (repeat' split) <;> simp [Keep.parts]

@[simp] theorem Card.renewPass_keep (c : Card) :
    c.renewPass.keep = c.keep := by
  unfold Card.renewPass
  (try dsimp only)
  (repeat' split) <;> simp [Keep.parts]

@[simp] theorem Card.visited_keep (c : Card) (w : Nat) :
    (c.visited w).keep = c.keep := by
  unfold Card.visited
  (try dsimp only)
  (repeat' split) <;> simp [Keep.parts]

@[simp] theorem Card.patrolRewrite_keep (c : Card) (k : Nat) :
    (c.patrolRewrite k).keep = c.keep := by
  unfold Card.patrolRewrite
  (try dsimp only)
  (repeat' split) <;> simp [Keep.parts]

@[simp] theorem Card.patrolResult_keep (c : Card) (j : ReadJob) (bad : Bool) :
    (c.patrolResult j bad).keep = c.keep := by
  unfold Card.patrolResult
  (try dsimp only)
  (repeat' split) <;> simp [Keep.parts]

@[simp] theorem Card.keepRead_keep (c : Card) (k : Nat) (bad : Bool) :
    (c.keepRead k bad).keep = c.keep := by
  unfold Card.keepRead
  (try dsimp only)
  (repeat' split) <;> simp [Keep.parts]

@[simp] theorem Card.deliver_keep (c : Card) (j : ReadJob) :
    (c.deliver j).keep = c.keep := by
  unfold Card.deliver
  (try dsimp only)
  (repeat' split) <;> simp [Keep.parts]

@[simp] theorem Card.collectJobs_keep (c : Card) :
    c.collectJobs.keep = c.keep := by
  unfold Card.collectJobs
  (try dsimp only)
  (repeat' split) <;>
    (try rw [Keep.foldl _ (fun c x => by (try dsimp only); (repeat' split) <;> simp)]) <;> simp [Keep.parts]

@[simp] theorem Card.settle_keep (c : Card) :
    c.settle.keep = c.keep := by
  unfold Card.settle
  (try dsimp only)
  (repeat' split) <;> simp [Keep.parts]

@[simp] theorem Card.freeDie_keep (c : Card) (n : Nat) :
    (c.freeDie n).keep = c.keep := by
  unfold Card.freeDie
  (try dsimp only)
  (repeat' split) <;> simp [Keep.parts]

@[simp] theorem Card.nextOn_keep (c : Card) (n : Nat) :
    (c.nextOn n).keep = c.keep := by
  unfold Card.nextOn
  (try dsimp only)
  (repeat' split) <;> simp [Keep.parts]

@[simp] theorem Card.markDone_keep (c : Card) (k : Nat) :
    (c.markDone k).keep = c.keep := by
  unfold Card.markDone
  (try dsimp only)
  (repeat' split) <;>
    (try rw [Keep.foldl _ (fun c x => by (try dsimp only); (repeat' split) <;> simp)]) <;> simp [Keep.parts]

@[simp] theorem Card.traceMark_keep (c : Card) (b : Bay) :
    (c.traceMark b).keep = c.keep := by
  unfold Card.traceMark
  (try dsimp only)
  (repeat' split) <;> simp [Keep.parts]

@[simp] theorem Card.actBayLost_keep (c : Card) (a : Action) (k : Nat) (b : Bay) (bad : Bool) :
    (c.actBayLost a k b bad).keep = c.keep := by
  unfold Card.actBayLost
  (try dsimp only)
  (repeat' split) <;> simp [Keep.parts]

@[simp] theorem Card.lostAt_keep (c : Card) (k cause : Nat) (bad : Bool) :
    (c.lostAt k cause bad).keep = c.keep := by
  unfold Card.lostAt
  (try dsimp only)
  (repeat' split) <;> simp [Keep.parts]

@[simp] theorem Card.pastPage_keep (c : Card) (k : Nat) :
    (c.pastPage k).keep = c.keep := by
  unfold Card.pastPage
  (try dsimp only)
  (repeat' split) <;> simp [Keep.parts]

@[simp] theorem Card.countPaced_keep (c : Card) (b : Bay) (paced : Bool) :
    (c.countPaced b paced).keep = c.keep := by
  unfold Card.countPaced
  (try dsimp only)
  (repeat' split) <;> simp [Keep.parts]

@[simp] theorem Card.dieReport_keep (c : Card) (n : Nat) (x : DieReport) (f : Card → Card) (hf : (f c).keep = c.keep) :
    (c.dieReport n x f).keep = c.keep := by
  unfold Card.dieReport
  (repeat' split) <;> simp [hf]

@[simp] theorem Card.readTaken_keep (c : Card) (h d : Nat) (r : ReadReport) :
    (c.readTaken h d r).keep = c.keep := by
  unfold Card.readTaken
  (try dsimp only)
  (repeat' split) <;> simp [Keep.parts]

@[simp] theorem Card.readComplete_keep (c : Card) (h d : Nat) (r : ReadReport) :
    (c.readComplete h d r).keep = c.keep := by
  unfold Card.readComplete
  (try dsimp only)
  (repeat' split) <;> simp [Keep.parts]

@[simp] theorem Card.suspendTaken_keep (c : Card) (h d : Nat) :
    (c.suspendTaken h d).keep = c.keep := by
  unfold Card.suspendTaken
  (try dsimp only)
  (repeat' split) <;> simp [Keep.parts]

@[simp] theorem Card.suspendComplete_keep (c : Card) (h d : Nat) :
    (c.suspendComplete h d).keep = c.keep := by
  unfold Card.suspendComplete
  (try dsimp only)
  (repeat' split) <;> simp [Keep.parts]

@[simp] theorem Card.readWaitExpiry_keep (c : Card) (h d : Nat) :
    (c.readWaitExpiry h d).keep = c.keep := by
  unfold Card.readWaitExpiry
  (try dsimp only)
  (repeat' split) <;> simp [Keep.parts]

@[simp] theorem Card.completeCut_keep (c : Card) (k : Nat) (code : DescCode) :
    (c.completeCut k code).keep = c.keep := by
  unfold Card.completeCut
  (try dsimp only)
  (repeat' split) <;> simp [Keep.parts]

@[simp] theorem Card.endAnneal_keep (c : Card) (n p0 p1 retired : Nat) (done : Bool) :
    (c.endAnneal n p0 p1 retired done).keep = c.keep := by
  unfold Card.endAnneal
  (try dsimp only)
  (repeat' split) <;> simp [Keep.parts]

@[simp] theorem Card.cutAnneal_keep (c : Card) (n : Nat) :
    (c.cutAnneal n).keep = c.keep := by
  unfold Card.cutAnneal
  (try dsimp only)
  (repeat' split) <;> simp [Keep.parts]

@[simp] theorem Card.clearFenced_keep (c : Card) (n : Nat) : (c.clearFenced n).keep = c.keep := by
  unfold Card.clearFenced
  rw [Card.cutAnneal_keep]
  refine Keep.foldl_from _ (fun c w => by simp) _ _ _ ?_
  exact Keep.foldl_from _ (fun c x => by simp) _ _ _ (by simp)

@[simp] theorem Card.fence_keep (c : Card) (h d : Nat) :
    (c.fence h d).keep = c.keep := by
  unfold Card.fence
  (try dsimp only)
  (repeat' split) <;> simp [Keep.parts]

@[simp] theorem Card.completeHung_keep (c : Card) (n : Nat) (w : HungWork) :
    (c.completeHung n w).keep = c.keep := by
  unfold Card.completeHung
  (try dsimp only)
  (repeat' split) <;> simp [Keep.parts]

@[simp] theorem Card.stopHung_keep (c : Card) (n : Nat) (w : HungWork) :
    (c.stopHung n w).keep = c.keep := by
  unfold Card.stopHung
  (try dsimp only)
  (repeat' split) <;> simp [Keep.parts]

@[simp] theorem Card.serviceReset_keep (c : Card) (h d : Nat) :
    (c.serviceReset h d).keep = c.keep := by
  unfold Card.serviceReset
  dsimp only
  split
  · rw [Card.fencedErase_keep]
    exact Keep.foldl _ (fun c i => by split <;> simp) _ _
  · exact Keep.foldl _ (fun c i => by split <;> simp) _ _

@[simp] theorem Card.refill_keep (c : Card) (h : Nat) (ds : List Desc) :
    (c.refill h ds).keep = c.keep := by
  unfold Card.refill
  (try dsimp only)
  (repeat' split) <;> simp [Keep.parts]

@[simp] theorem Card.resetEnd_keep (c : Card) (h micros : Nat) :
    (c.resetEnd h micros).keep = c.keep := by
  unfold Card.resetEnd
  (try dsimp only)
  (repeat' split) <;> simp [Keep.parts]

@[simp] theorem Card.eraseMore_keep (c : Card) (n : Nat) : (c.eraseMore n).keep = c.keep := by
  induction n generalizing c with
  | zero => rfl
  | succ k ih =>
    simp only [Card.eraseMore]
    split <;> simp [ih]

@[simp] theorem Card.windowErase_keep (c : Card) : (c.windowErase).keep = c.keep := by
  unfold Card.windowErase
  split
  · rw [Card.eraseMore_keep]
    exact Keep.foldl _ (fun c x => by (repeat' split) <;> simp) _ _
  · rfl

@[simp] theorem Card.emptyOne_keep (c : Card) (w : Nat) (why : MoveWhy) :
    (c.emptyOne w why).keep = c.keep := by
  unfold Card.emptyOne
  (try dsimp only)
  (repeat' split) <;> simp [Keep.parts]

@[simp] theorem Card.reclaimVictim_keep (c : Card) :
    c.reclaimVictim.1.keep = c.keep := by
  unfold Card.reclaimVictim
  (try dsimp only)
  (repeat' split) <;> simp [Keep.parts]

@[simp] theorem Card.refreshOne_keep (c : Card) :
    c.refreshOne.keep = c.keep := by
  unfold Card.refreshOne
  (try dsimp only)
  (repeat' split) <;> simp [Keep.parts]

@[simp] theorem Card.reclaimOne_keep (c : Card) :
    c.reclaimOne.keep = c.keep := by
  unfold Card.reclaimOne
  (try dsimp only)
  (repeat' split) <;> (try simp only [Prod.ext_iff] at *) <;> (try casesm* _ ∧ _) <;> (try subst_vars) <;>
    simp_all

@[simp] theorem Card.levelWing_keep (c : Card) :
    c.levelWing.1.keep = c.keep := by
  unfold Card.levelWing
  (try dsimp only)
  (repeat' split) <;> simp [Keep.parts]

@[simp] theorem Card.levelOne_keep (c : Card) :
    c.levelOne.keep = c.keep := by
  unfold Card.levelOne
  (try dsimp only)
  (repeat' split) <;> (try simp only [Prod.ext_iff] at *) <;> (try casesm* _ ∧ _) <;> (try subst_vars) <;>
    simp_all

@[simp] theorem Card.patrolOne_keep (c : Card) :
    c.patrolOne.keep = c.keep := by
  unfold Card.patrolOne
  (try dsimp only)
  (repeat' split) <;> simp [Keep.parts]

@[simp] theorem Card.countProbe_keep (c : Card) (n : Nat) :
    (c.countProbe n).keep = c.keep := by
  unfold Card.countProbe
  (try dsimp only)
  (repeat' split) <;> simp [Keep.parts]

@[simp] theorem Card.annealStart_keep (c : Card) (pulses : Nat) :
    (c.annealStart pulses).keep = c.keep := by
  unfold Card.annealStart
  (try dsimp only)
  (repeat' split) <;> simp [Keep.parts]

@[simp] theorem Card.heatComplete_keep (c : Card) (n : Nat) :
    (c.heatComplete n).keep = c.keep := by
  unfold Card.heatComplete
  (try dsimp only)
  (repeat' split) <;> simp [Keep.parts]

@[simp] theorem Card.reclassAny_keep (c : Card) (w : Nat) :
    (c.reclassAny w).keep = c.keep := by
  unfold Card.reclassAny
  (try dsimp only)
  (repeat' split) <;> simp [Keep.parts]

@[simp] theorem Card.annealEnd_keep (c : Card) (n p0 p1 : Nat) : (c.annealEnd n p0 p1).keep = c.keep := by
  unfold Card.annealEnd
  refine (Keep.withMaint _ _ rfl rfl).trans ?_
  rw [Card.endAnneal_keep, Card.bump_keep]
  refine Keep.foldl_from _ (fun c b => ?_) _ _ _ ?_
  · dsimp only
    rw [Card.retire_keep]
    (repeat' split) <;> simp
  · simp [Keep.parts]

@[simp] theorem Card.annealProbe_keep (c : Card) (n pulses : Nat) :
    (c.annealProbe n pulses).keep = c.keep := by
  unfold Card.annealProbe
  (try dsimp only)
  (repeat' split) <;> simp [Keep.parts]

@[simp] theorem Card.heaterTimeout_keep (c : Card) (n : Nat) :
    (c.heaterTimeout n).keep = c.keep := by
  unfold Card.heaterTimeout
  (try dsimp only)
  (repeat' split) <;> simp [Keep.parts]

@[simp] theorem Card.cutAnneals_keep (c : Card) :
    c.cutAnneals.keep = c.keep := by
  unfold Card.cutAnneals
  (try dsimp only)
  (repeat' split) <;> simp [Keep.parts]

@[simp] theorem Card.noteCool_keep (c : Card) (x : DieTemp) :
    (c.noteCool x).keep = c.keep := by
  unfold Card.noteCool
  (try dsimp only)
  (repeat' split) <;> simp [Keep.parts]

@[simp] theorem Card.thermal_keep (c : Card) (dies : List DieTemp) (controller : Int) :
    (c.thermal dies controller).keep = c.keep := by
  unfold Card.thermal
  (try dsimp only)
  (repeat' split) <;> simp [Keep.parts]

@[simp] theorem Card.withdraw_keep (c : Card) (w : WriteWork) :
    (c.withdraw w).keep = c.keep := by
  unfold Card.withdraw
  (try dsimp only)
  (repeat' split) <;> simp [Keep.parts]

@[simp] theorem Card.cutLanding_keep (c : Card) (t : Tag) :
    (c.cutLanding t).keep = c.keep := by
  unfold Card.cutLanding
  (try dsimp only)
  (repeat' split) <;> simp [Keep.parts]

@[simp] theorem Card.cutWrite_keep (c : Card) (t : Tag) (k : Option Cmd) :
    (c.cutWrite t k).keep = c.keep := by
  unfold Card.cutWrite
  (try dsimp only)
  (repeat' split) <;> simp [Keep.parts]

@[simp] theorem Card.cutNow_keep (c : Card) (x : OwedCheck) :
    (c.cutNow x).keep = c.keep := by
  unfold Card.cutNow
  (try dsimp only)
  (repeat' split) <;> simp [Keep.parts]

@[simp] theorem Card.cutLater_keep (c : Card) (x : OwedCheck) :
    (c.cutLater x).keep = c.keep := by
  unfold Card.cutLater
  (try dsimp only)
  (repeat' split) <;> simp [Keep.parts]

@[simp] theorem Card.beginRetrain_keep (c : Card) (cause : Byte) (lanes : BitVec 4) (request : Bool) :
    (c.beginRetrain cause lanes request).keep = c.keep := by
  unfold Card.beginRetrain
  (try dsimp only)
  (repeat' split) <;> simp [Keep.parts]

@[simp] theorem Card.firstTraining_keep (c : Card) :
    c.firstTraining.keep = c.keep := by
  unfold Card.firstTraining
  (try dsimp only)
  (repeat' split) <;> simp [Keep.parts]

@[simp] theorem Card.request_keep (c : Card) (seq : BitVec 4) (body : Card → Card × Bool) (hb : (body c).1.keep = c.keep) :
    (c.request seq body).keep = c.keep := by
  unfold Card.request
  split
  · rw [← hb]; rfl
  · rfl

@[simp] theorem Card.setMargin_keep (c : Card) (lane : BitVec 2) (margin : Byte) :
    (c.setMargin lane margin).keep = c.keep := by
  unfold Card.setMargin
  (try dsimp only)
  (repeat' split) <;> simp [Keep.parts]

@[simp] theorem Card.laneTrained_keep (c : Card) (lane : BitVec 2) (margin : Byte) :
    (c.laneTrained lane margin).keep = c.keep := by
  unfold Card.laneTrained
  (try dsimp only)
  (repeat' split) <;> simp [Keep.parts]

@[simp] theorem Card.payOwed_keep (c : Card) :
    c.payOwed.keep = c.keep := by
  unfold Card.payOwed
  (try dsimp only)
  (repeat' split) <;> simp [Keep.parts]

@[simp] theorem Card.markerTimeout_keep (c : Card) :
    c.markerTimeout.keep = c.keep := by
  unfold Card.markerTimeout
  (try dsimp only)
  (repeat' split) <;> simp [Keep.parts]

@[simp] theorem Card.holdRetrain_keep (c : Card) (cause : Byte) (lanes : BitVec 4) (request : Bool) :
    (c.holdRetrain cause lanes request).keep = c.keep := by
  unfold Card.holdRetrain
  (try dsimp only)
  (repeat' split) <;> simp [Keep.parts]

@[simp] theorem Card.hostRetrain_keep (c : Card) :
    c.hostRetrain.keep = c.keep := by
  unfold Card.hostRetrain
  (try dsimp only)
  (repeat' split) <;> simp [Keep.parts]

@[simp] theorem Card.cardRetrain_keep (c : Card) (k : RetrainCause) (lanes : BitVec 4) :
    (c.cardRetrain k lanes).keep = c.keep := by
  unfold Card.cardRetrain
  (try dsimp only)
  (repeat' split) <;> simp [Keep.parts]

@[simp] theorem Card.markerSend_keep (c : Card) :
    c.markerSend.keep = c.keep := by
  unfold Card.markerSend
  (try dsimp only)
  (repeat' split) <;> simp [Keep.parts]

@[simp] theorem Card.markerReceived_keep (c : Card) (lane : BitVec 2) (count : BitVec 16) (slot : BitVec 32) (margin : Byte) :
    (c.markerReceived lane count slot margin).keep = c.keep := by
  unfold Card.markerReceived
  (try dsimp only)
  (repeat' split) <;> simp [Keep.parts]

@[simp] theorem Card.holdBegin_keep (c : Card) :
    c.holdBegin.keep = c.keep := by
  unfold Card.holdBegin
  (try dsimp only)
  (repeat' split) <;> simp [Keep.parts]

theorem Card.setPower_keep (c : Card) (p : Power) (h : p.hclk = c.power.hclk) (hd : p.dock = c.power.dock) :
    (c.setPower p).keep = c.keep := by
  simp only [Card.setPower, Card.keep, h, hd]

@[simp] theorem Card.softStartBegin_keep (c : Card) : (c.softStartBegin).keep = c.keep := by
  unfold Card.softStartBegin
  split
  · exact Card.setPower_keep _ _ rfl rfl
  · rfl

@[simp] theorem Card.holdUnclocked_keep (c : Card) :
    c.holdUnclocked.keep = c.keep := by
  unfold Card.holdUnclocked
  (try dsimp only)
  (repeat' split) <;> simp [Keep.parts]

@[simp] theorem Card.startPowerRead_keep (c : Card) :
    c.startPowerRead.keep = c.keep := by
  unfold Card.startPowerRead
  (try dsimp only)
  (repeat' split) <;> simp [Keep.parts]

@[simp] theorem Card.dropWrong_keep (c : Card) :
    (c.dropWrong).keep = c.keep := by
  unfold Card.dropWrong
  exact Keep.foldl _ (fun c x => by (try dsimp only); (repeat' split) <;> simp) _ _

@[simp] theorem Card.vmRestored_keep (c : Card) : (c.vmRestored).keep = c.keep := by
  unfold Card.vmRestored
  split
  · exact Card.setPower_keep _ _ rfl rfl
  · rfl

@[simp] theorem Card.returnLink_keep (c : Card) :
    c.returnLink.keep = c.keep := by
  unfold Card.returnLink
  (try dsimp only)
  (repeat' split) <;> simp [Keep.parts]

@[simp] theorem Card.rebuildLosses_keep (c : Card) (r : ScanReport) (bs : List Bay) :
    (c.rebuildLosses r bs).keep = c.keep := by
  unfold Card.rebuildLosses
  (try dsimp only)
  (repeat' split) <;> simp [Keep.parts]

@[simp] theorem Card.scanMarks_keep (c : Card) (r : ScanReport) :
    (c.scanMarks r).keep = c.keep := by
  unfold Card.scanMarks
  (try dsimp only)
  (repeat' split) <;> simp [Keep.parts]

@[simp] theorem Card.scanCounts_keep (c : Card) :
    (c.scanCounts).keep = c.keep := by
  unfold Card.scanCounts
  (try dsimp only)
  (repeat' split) <;> simp [Keep.parts]

@[simp] theorem Card.fastRemount_keep (c : Card) :
    c.fastRemount.keep = c.keep := by
  unfold Card.fastRemount
  (try dsimp only)
  (repeat' split) <;> simp [Keep.parts]

@[simp] theorem Card.emptyTags_keep (c : Card) :
    c.emptyTags.keep = c.keep := by
  unfold Card.emptyTags
  (try dsimp only)
  (repeat' split) <;> simp [Keep.parts]

@[simp] theorem Card.discardFlight_keep (c : Card) :
    c.discardFlight.keep = c.keep := by
  unfold Card.discardFlight
  (try dsimp only)
  (repeat' split) <;> simp [Keep.parts]

@[simp] theorem Card.resetErase_keep (c : Card) (n : Nat) :
    (c.resetErase n).keep = c.keep := by
  unfold Card.resetErase
  (try dsimp only)
  (repeat' split) <;> simp [Keep.parts]

@[simp] theorem Card.resetErases_keep (c : Card) :
    c.resetErases.keep = c.keep := by
  unfold Card.resetErases
  (try dsimp only)
  (repeat' split) <;> simp [Keep.parts]

@[simp] theorem Card.keepTags_keep (c : Card) (t : Tag) :
    (c.keepTags t).keep = c.keep := by
  unfold Card.keepTags
  (try dsimp only)
  (repeat' split) <;> simp [Keep.parts]

@[simp] theorem Card.afterPage_keep (c : Card) (n : Nat) :
    (c.afterPage n).keep = c.keep := by
  unfold Card.afterPage
  (try dsimp only)
  (repeat' split) <;> simp [Keep.parts]

@[simp] theorem Card.sendPage_keep (c : Card) (t : Tag) (n : Nat) :
    (c.sendPage t n).keep = c.keep := by
  unfold Card.sendPage
  (try dsimp only)
  (repeat' split) <;> simp [Keep.parts]

@[simp] theorem Card.doInquire_keep (c : Card) (f : Frame) :
    (c.doInquire f).keep = c.keep := by
  unfold Card.doInquire
  (try dsimp only)
  (repeat' split) <;> simp [Keep.parts]

@[simp] theorem Card.deferredPage_keep (c : Card) (t : Tag) :
    (c.deferredPage t).keep = c.keep := by
  unfold Card.deferredPage
  (try dsimp only)
  (repeat' split) <;> simp [Keep.parts]

@[simp] theorem Card.discardSync_keep (c : Card) (reason type seq : Byte) :
    (c.discardSync reason type seq).keep = c.keep := by
  unfold Card.discardSync
  (try dsimp only)
  (repeat' split) <;> simp [Keep.parts]

@[simp] theorem Card.takeSync_keep (c : Card) (type : Byte) (m : SyncMsg) (act : Card → Card)
    (ha : ∀ d : Card, (act d).keep = d.keep) : (c.takeSync type m act).keep = c.keep := by
  unfold Card.takeSync
  (try dsimp only)
  (repeat' split) <;> simp [Keep.parts, ha]

@[simp] theorem Card.syncRow_keep (c : Card) (type : Byte) (m : SyncMsg) (act : Card → Card)
    (ha : ∀ d : Card, (act d).keep = d.keep) : (c.syncRow type m act).keep = (if c.hearsSync then c.takePending else c).keep := by
  unfold Card.syncRow
  split
  · exact (Card.takeSync_keep _ _ _ _ ha).trans (by simp [Keep.parts])
  · rfl

@[simp] theorem Card.dropPastAct_keep (c : Card) (type seq : Byte) (late : Nat) :
    (c.dropPastAct type seq late).keep = c.keep := by
  unfold Card.dropPastAct
  (try dsimp only)
  (repeat' split) <;> simp [Keep.parts]

@[simp] theorem Card.reviewHeld_keep (c : Card) :
    c.reviewHeld.keep = c.keep := by
  unfold Card.reviewHeld
  (try dsimp only)
  (repeat' split) <;> simp [Keep.parts]

@[simp] theorem Card.checkTread_keep (c : Card) (t : Tread) :
    (c.checkTread t).keep = c.keep := by
  unfold Card.checkTread
  (try dsimp only)
  (repeat' split) <;> simp [Keep.parts]

@[simp] theorem Card.syncCheck_keep (c : Card) (m : SyncMsg) :
    (c.syncCheck m).keep = c.keep := by
  unfold Card.syncCheck
  (try dsimp only)
  (repeat' split) <;> simp [Keep.parts]

@[simp] theorem Card.schedule_keep (c : Card) (type : Byte) (m : SyncMsg) (late : Nat) (act : Card → Card)
    (ha : (act c).keep = c.keep) : (c.schedule type m late act).keep = c.keep := by
  unfold Card.schedule
  (try dsimp only)
  (repeat' split) <;> simp [ha]

@[simp] theorem Card.syncLandNow_keep (c : Card) (m : SyncMsg) :
    (c.syncLandNow m).keep = c.keep := by
  unfold Card.syncLandNow
  (try dsimp only)
  (repeat' split) <;> simp [Keep.parts]

@[simp] theorem Card.syncLand_keep (c : Card) (m : SyncMsg) :
    (c.syncLand m).keep = c.keep := by
  unfold Card.syncLand
  (try dsimp only)
  (repeat' split) <;> simp [Keep.parts]

@[simp] theorem Card.syncRollbackNow_keep (c : Card) (m : SyncMsg) :
    (c.syncRollbackNow m).keep = c.keep := by
  unfold Card.syncRollbackNow
  (try dsimp only)
  (repeat' split) <;> simp [Keep.parts]

@[simp] theorem Card.syncRollback_keep (c : Card) (m : SyncMsg) :
    (c.syncRollback m).keep = c.keep := by
  unfold Card.syncRollback
  (try dsimp only)
  (repeat' split) <;> simp [Keep.parts]

@[simp] theorem Card.storeBurst_keep (c : Card) (b : Burst) :
    (c.storeBurst b).keep = c.keep := by
  unfold Card.storeBurst
  (try dsimp only)
  (repeat' split) <;> simp [Keep.parts]

@[simp] theorem Card.greet_keep (c : Card) (bs : List Byte) :
    (c.greet bs).keep = c.keep := by
  unfold Card.greet
  (try dsimp only)
  (repeat' split) <;> simp [Keep.parts]

@[simp] theorem Card.hello_keep (c : Card) (bs : List Byte) :
    (c.hello bs).keep = c.keep := by
  unfold Card.hello
  (try dsimp only)
  (repeat' split) <;> simp [Keep.parts]

@[simp] theorem Card.joinDigest_keep (c : Card) (b : Burst) (bs : List Byte) :
    (c.joinDigest b bs).keep = c.keep := by
  unfold Card.joinDigest
  (try dsimp only)
  (repeat' split) <;> simp [Keep.parts]

@[simp] theorem Card.digestMsg_keep (c : Card) (bs : List Byte) :
    (c.digestMsg bs).keep = c.keep := by
  unfold Card.digestMsg
  (try dsimp only)
  (repeat' split) <;> simp [Keep.parts]

@[simp] theorem Card.waitExpiry_keep (c : Card) :
    c.waitExpiry.keep = c.keep := by
  unfold Card.waitExpiry
  (try dsimp only)
  (repeat' split) <;> simp [Keep.parts]

@[simp] theorem Card.sendRecord_keep (c : Card) (r : BalRec) :
    (c.sendRecord r).keep = c.keep := by
  unfold Card.sendRecord
  (try dsimp only)
  (repeat' split) <;> simp [Keep.parts]

@[simp] theorem Card.balPeriod_keep (c : Card) :
    c.balPeriod.keep = c.keep := by
  unfold Card.balPeriod
  (try dsimp only)
  (repeat' split) <;> simp [Keep.parts]

@[simp] theorem Card.setSlot_keep (c : Card) (n : Nat) :
    (c.setSlot n).keep = c.keep := by
  unfold Card.setSlot
  (try dsimp only)
  (repeat' split) <;> simp [Keep.parts]

@[simp] theorem Card.sendHead_keep (c : Card) :
    c.sendHead.keep = c.keep := by
  unfold Card.sendHead
  (try dsimp only)
  (repeat' split) <;> simp [Keep.parts]

@[simp] theorem Card.balSlot_keep (c : Card) :
    c.balSlot.keep = c.keep := by
  unfold Card.balSlot
  (try dsimp only)
  (repeat' split) <;> simp [Keep.parts]

@[simp] theorem Card.keepalive_keep (c : Card) (t : Tag) :
    (c.keepalive t).keep = c.keep := by
  unfold Card.keepalive
  (try dsimp only)
  (repeat' split) <;> simp [Keep.parts]

@[simp] theorem Card.refusedFrame_keep (c : Card) (p : Port) (b : BadFrame) :
    (c.refusedFrame p b).keep = c.keep := by
  unfold Card.refusedFrame
  (try dsimp only)
  (repeat' split) <;> simp [Keep.parts]

@[simp] theorem Card.setAligned_keep (c : Card) (p : Port) (v : Bool) :
    (c.setAligned p v).keep = c.keep := by
  unfold Card.setAligned
  (try dsimp only)
  (repeat' split) <;> simp [Keep.parts]

end Sys2Proof.Machine
end

