-- ==== Sys2Proof/Laws/State.lean ====
section
/-! SUPPORT. Each named update of the card leaves every other field as it was. -/

namespace Sys2Proof.Machine

open Sys2Proof

@[simp] theorem Card.setWing_phase (c : Card) (w : Nat) (v : Wing) : (c.setWing w v).phase = c.phase := rfl
@[simp] theorem Card.setWing_power (c : Card) (w : Nat) (v : Wing) : (c.setWing w v).power = c.power := rfl
@[simp] theorem Card.setWing_straps (c : Card) (w : Nat) (v : Wing) : (c.setWing w v).straps = c.straps := rfl
@[simp] theorem Card.setWing_treads (c : Card) (w : Nat) (v : Wing) : (c.setWing w v).treads = c.treads := rfl
@[simp] theorem Card.setWing_link (c : Card) (w : Nat) (v : Wing) : (c.setWing w v).link = c.link := rfl
@[simp] theorem Card.setWing_ports (c : Card) (w : Nat) (v : Wing) : (c.setWing w v).ports = c.ports := rfl
@[simp] theorem Card.setWing_flights (c : Card) (w : Nat) (v : Wing) : (c.setWing w v).flights = c.flights := rfl
@[simp] theorem Card.setWing_views (c : Card) (w : Nat) (v : Wing) : (c.setWing w v).views = c.views := rfl
@[simp] theorem Card.setWing_halls (c : Card) (w : Nat) (v : Wing) : (c.setWing w v).halls = c.halls := rfl
@[simp] theorem Card.setWing_maint (c : Card) (w : Nat) (v : Wing) : (c.setWing w v).maint = c.maint := rfl
@[simp] theorem Card.setWing_losses (c : Card) (w : Nat) (v : Wing) : (c.setWing w v).losses = c.losses := rfl
@[simp] theorem Card.setWing_twin (c : Card) (w : Nat) (v : Wing) : (c.setWing w v).twin = c.twin := rfl
@[simp] theorem Card.setWing_alcove (c : Card) (w : Nat) (v : Wing) : (c.setWing w v).alcove = c.alcove := rfl
@[simp] theorem Card.setWing_bal (c : Card) (w : Nat) (v : Wing) : (c.setWing w v).bal = c.bal := rfl
@[simp] theorem Card.setWing_out (c : Card) (w : Nat) (v : Wing) : (c.setWing w v).out = c.out := rfl
@[simp] theorem Card.setWing_freeCount (c : Card) (w : Nat) (v : Wing) : (c.setWing w v).freeCount = c.freeCount := rfl

@[simp] theorem Card.setDie_phase (c : Card) (n : Nat) (v : Die) : (c.setDie n v).phase = c.phase := rfl
@[simp] theorem Card.setDie_power (c : Card) (n : Nat) (v : Die) : (c.setDie n v).power = c.power := rfl
@[simp] theorem Card.setDie_straps (c : Card) (n : Nat) (v : Die) : (c.setDie n v).straps = c.straps := rfl
@[simp] theorem Card.setDie_treads (c : Card) (n : Nat) (v : Die) : (c.setDie n v).treads = c.treads := rfl
@[simp] theorem Card.setDie_link (c : Card) (n : Nat) (v : Die) : (c.setDie n v).link = c.link := rfl
@[simp] theorem Card.setDie_ports (c : Card) (n : Nat) (v : Die) : (c.setDie n v).ports = c.ports := rfl
@[simp] theorem Card.setDie_flights (c : Card) (n : Nat) (v : Die) : (c.setDie n v).flights = c.flights := rfl
@[simp] theorem Card.setDie_views (c : Card) (n : Nat) (v : Die) : (c.setDie n v).views = c.views := rfl
@[simp] theorem Card.setDie_media (c : Card) (n : Nat) (v : Die) : (c.setDie n v).media = c.media := rfl
@[simp] theorem Card.setDie_maint (c : Card) (n : Nat) (v : Die) : (c.setDie n v).maint = c.maint := rfl
@[simp] theorem Card.setDie_losses (c : Card) (n : Nat) (v : Die) : (c.setDie n v).losses = c.losses := rfl
@[simp] theorem Card.setDie_twin (c : Card) (n : Nat) (v : Die) : (c.setDie n v).twin = c.twin := rfl
@[simp] theorem Card.setDie_alcove (c : Card) (n : Nat) (v : Die) : (c.setDie n v).alcove = c.alcove := rfl
@[simp] theorem Card.setDie_bal (c : Card) (n : Nat) (v : Die) : (c.setDie n v).bal = c.bal := rfl
@[simp] theorem Card.setDie_out (c : Card) (n : Nat) (v : Die) : (c.setDie n v).out = c.out := rfl
@[simp] theorem Card.setDie_freeCount (c : Card) (n : Nat) (v : Die) : (c.setDie n v).freeCount = c.freeCount := rfl

@[simp] theorem Card.bump_phase (c : Card) (n k : Nat) : (c.bump n k).phase = c.phase := rfl
@[simp] theorem Card.bump_power (c : Card) (n k : Nat) : (c.bump n k).power = c.power := rfl
@[simp] theorem Card.bump_straps (c : Card) (n k : Nat) : (c.bump n k).straps = c.straps := rfl
@[simp] theorem Card.bump_treads (c : Card) (n k : Nat) : (c.bump n k).treads = c.treads := rfl
@[simp] theorem Card.bump_link (c : Card) (n k : Nat) : (c.bump n k).link = c.link := rfl
@[simp] theorem Card.bump_ports (c : Card) (n k : Nat) : (c.bump n k).ports = c.ports := rfl
@[simp] theorem Card.bump_flights (c : Card) (n k : Nat) : (c.bump n k).flights = c.flights := rfl
@[simp] theorem Card.bump_views (c : Card) (n k : Nat) : (c.bump n k).views = c.views := rfl
@[simp] theorem Card.bump_media (c : Card) (n k : Nat) : (c.bump n k).media = c.media := rfl
@[simp] theorem Card.bump_halls (c : Card) (n k : Nat) : (c.bump n k).halls = c.halls := rfl
@[simp] theorem Card.bump_maint (c : Card) (n k : Nat) : (c.bump n k).maint = c.maint := rfl
@[simp] theorem Card.bump_losses (c : Card) (n k : Nat) : (c.bump n k).losses = c.losses := rfl
@[simp] theorem Card.bump_twin (c : Card) (n k : Nat) : (c.bump n k).twin = c.twin := rfl
@[simp] theorem Card.bump_alcove (c : Card) (n k : Nat) : (c.bump n k).alcove = c.alcove := rfl
@[simp] theorem Card.bump_out (c : Card) (n k : Nat) : (c.bump n k).out = c.out := rfl
@[simp] theorem Card.bump_freeCount (c : Card) (n k : Nat) : (c.bump n k).freeCount = c.freeCount := rfl

@[simp] theorem Card.send_phase (c : Card) (o : Out) : (c.send o).phase = c.phase := rfl
@[simp] theorem Card.send_power (c : Card) (o : Out) : (c.send o).power = c.power := rfl
@[simp] theorem Card.send_straps (c : Card) (o : Out) : (c.send o).straps = c.straps := rfl
@[simp] theorem Card.send_treads (c : Card) (o : Out) : (c.send o).treads = c.treads := rfl
@[simp] theorem Card.send_link (c : Card) (o : Out) : (c.send o).link = c.link := rfl
@[simp] theorem Card.send_ports (c : Card) (o : Out) : (c.send o).ports = c.ports := rfl
@[simp] theorem Card.send_flights (c : Card) (o : Out) : (c.send o).flights = c.flights := rfl
@[simp] theorem Card.send_views (c : Card) (o : Out) : (c.send o).views = c.views := rfl
@[simp] theorem Card.send_media (c : Card) (o : Out) : (c.send o).media = c.media := rfl
@[simp] theorem Card.send_halls (c : Card) (o : Out) : (c.send o).halls = c.halls := rfl
@[simp] theorem Card.send_maint (c : Card) (o : Out) : (c.send o).maint = c.maint := rfl
@[simp] theorem Card.send_losses (c : Card) (o : Out) : (c.send o).losses = c.losses := rfl
@[simp] theorem Card.send_twin (c : Card) (o : Out) : (c.send o).twin = c.twin := rfl
@[simp] theorem Card.send_alcove (c : Card) (o : Out) : (c.send o).alcove = c.alcove := rfl
@[simp] theorem Card.send_bal (c : Card) (o : Out) : (c.send o).bal = c.bal := rfl
@[simp] theorem Card.send_freeCount (c : Card) (o : Out) : (c.send o).freeCount = c.freeCount := rfl

@[simp] theorem Card.putTag_phase (c : Card) (t : Tag) (e : TagEntry) : (c.putTag t e).phase = c.phase := rfl
@[simp] theorem Card.putTag_power (c : Card) (t : Tag) (e : TagEntry) : (c.putTag t e).power = c.power := rfl
@[simp] theorem Card.putTag_straps (c : Card) (t : Tag) (e : TagEntry) : (c.putTag t e).straps = c.straps := rfl
@[simp] theorem Card.putTag_treads (c : Card) (t : Tag) (e : TagEntry) : (c.putTag t e).treads = c.treads := rfl
@[simp] theorem Card.putTag_link (c : Card) (t : Tag) (e : TagEntry) : (c.putTag t e).link = c.link := rfl
@[simp] theorem Card.putTag_flights (c : Card) (t : Tag) (e : TagEntry) : (c.putTag t e).flights = c.flights := rfl
@[simp] theorem Card.putTag_views (c : Card) (t : Tag) (e : TagEntry) : (c.putTag t e).views = c.views := rfl
@[simp] theorem Card.putTag_media (c : Card) (t : Tag) (e : TagEntry) : (c.putTag t e).media = c.media := rfl
@[simp] theorem Card.putTag_halls (c : Card) (t : Tag) (e : TagEntry) : (c.putTag t e).halls = c.halls := rfl
@[simp] theorem Card.putTag_maint (c : Card) (t : Tag) (e : TagEntry) : (c.putTag t e).maint = c.maint := rfl
@[simp] theorem Card.putTag_losses (c : Card) (t : Tag) (e : TagEntry) : (c.putTag t e).losses = c.losses := rfl
@[simp] theorem Card.putTag_twin (c : Card) (t : Tag) (e : TagEntry) : (c.putTag t e).twin = c.twin := rfl
@[simp] theorem Card.putTag_alcove (c : Card) (t : Tag) (e : TagEntry) : (c.putTag t e).alcove = c.alcove := rfl
@[simp] theorem Card.putTag_bal (c : Card) (t : Tag) (e : TagEntry) : (c.putTag t e).bal = c.bal := rfl
@[simp] theorem Card.putTag_out (c : Card) (t : Tag) (e : TagEntry) : (c.putTag t e).out = c.out := rfl
@[simp] theorem Card.putTag_freeCount (c : Card) (t : Tag) (e : TagEntry) : (c.putTag t e).freeCount = c.freeCount := rfl

@[simp] theorem Card.askHold_phase (c : Card) : (c.askHold).phase = c.phase := rfl
@[simp] theorem Card.askHold_power (c : Card) : (c.askHold).power = c.power := rfl
@[simp] theorem Card.askHold_straps (c : Card) : (c.askHold).straps = c.straps := rfl
@[simp] theorem Card.askHold_treads (c : Card) : (c.askHold).treads = c.treads := rfl
@[simp] theorem Card.askHold_ports (c : Card) : (c.askHold).ports = c.ports := rfl
@[simp] theorem Card.askHold_flights (c : Card) : (c.askHold).flights = c.flights := rfl
@[simp] theorem Card.askHold_views (c : Card) : (c.askHold).views = c.views := rfl
@[simp] theorem Card.askHold_media (c : Card) : (c.askHold).media = c.media := rfl
@[simp] theorem Card.askHold_halls (c : Card) : (c.askHold).halls = c.halls := rfl
@[simp] theorem Card.askHold_maint (c : Card) : (c.askHold).maint = c.maint := rfl
@[simp] theorem Card.askHold_losses (c : Card) : (c.askHold).losses = c.losses := rfl
@[simp] theorem Card.askHold_twin (c : Card) : (c.askHold).twin = c.twin := rfl
@[simp] theorem Card.askHold_alcove (c : Card) : (c.askHold).alcove = c.alcove := rfl
@[simp] theorem Card.askHold_bal (c : Card) : (c.askHold).bal = c.bal := rfl
@[simp] theorem Card.askHold_out (c : Card) : (c.askHold).out = c.out := rfl
@[simp] theorem Card.askHold_freeCount (c : Card) : (c.askHold).freeCount = c.freeCount := rfl

@[simp] theorem Card.nextFree_phase (c : Card) : (c.nextFree).phase = c.phase := rfl
@[simp] theorem Card.nextFree_power (c : Card) : (c.nextFree).power = c.power := rfl
@[simp] theorem Card.nextFree_straps (c : Card) : (c.nextFree).straps = c.straps := rfl
@[simp] theorem Card.nextFree_treads (c : Card) : (c.nextFree).treads = c.treads := rfl
@[simp] theorem Card.nextFree_link (c : Card) : (c.nextFree).link = c.link := rfl
@[simp] theorem Card.nextFree_ports (c : Card) : (c.nextFree).ports = c.ports := rfl
@[simp] theorem Card.nextFree_flights (c : Card) : (c.nextFree).flights = c.flights := rfl
@[simp] theorem Card.nextFree_views (c : Card) : (c.nextFree).views = c.views := rfl
@[simp] theorem Card.nextFree_media (c : Card) : (c.nextFree).media = c.media := rfl
@[simp] theorem Card.nextFree_halls (c : Card) : (c.nextFree).halls = c.halls := rfl
@[simp] theorem Card.nextFree_maint (c : Card) : (c.nextFree).maint = c.maint := rfl
@[simp] theorem Card.nextFree_losses (c : Card) : (c.nextFree).losses = c.losses := rfl
@[simp] theorem Card.nextFree_twin (c : Card) : (c.nextFree).twin = c.twin := rfl
@[simp] theorem Card.nextFree_alcove (c : Card) : (c.nextFree).alcove = c.alcove := rfl
@[simp] theorem Card.nextFree_bal (c : Card) : (c.nextFree).bal = c.bal := rfl
@[simp] theorem Card.nextFree_out (c : Card) : (c.nextFree).out = c.out := rfl

@[simp] theorem Card.setQueue_phase (c : Card) (h : Nat) (q : List Desc) : (c.setQueue h q).phase = c.phase := rfl
@[simp] theorem Card.setQueue_power (c : Card) (h : Nat) (q : List Desc) : (c.setQueue h q).power = c.power := rfl
@[simp] theorem Card.setQueue_straps (c : Card) (h : Nat) (q : List Desc) : (c.setQueue h q).straps = c.straps := rfl
@[simp] theorem Card.setQueue_treads (c : Card) (h : Nat) (q : List Desc) : (c.setQueue h q).treads = c.treads := rfl
@[simp] theorem Card.setQueue_link (c : Card) (h : Nat) (q : List Desc) : (c.setQueue h q).link = c.link := rfl
@[simp] theorem Card.setQueue_ports (c : Card) (h : Nat) (q : List Desc) : (c.setQueue h q).ports = c.ports := rfl
@[simp] theorem Card.setQueue_flights (c : Card) (h : Nat) (q : List Desc) : (c.setQueue h q).flights = c.flights := rfl
@[simp] theorem Card.setQueue_views (c : Card) (h : Nat) (q : List Desc) : (c.setQueue h q).views = c.views := rfl
@[simp] theorem Card.setQueue_media (c : Card) (h : Nat) (q : List Desc) : (c.setQueue h q).media = c.media := rfl
@[simp] theorem Card.setQueue_maint (c : Card) (h : Nat) (q : List Desc) : (c.setQueue h q).maint = c.maint := rfl
@[simp] theorem Card.setQueue_losses (c : Card) (h : Nat) (q : List Desc) : (c.setQueue h q).losses = c.losses := rfl
@[simp] theorem Card.setQueue_twin (c : Card) (h : Nat) (q : List Desc) : (c.setQueue h q).twin = c.twin := rfl
@[simp] theorem Card.setQueue_alcove (c : Card) (h : Nat) (q : List Desc) : (c.setQueue h q).alcove = c.alcove := rfl
@[simp] theorem Card.setQueue_bal (c : Card) (h : Nat) (q : List Desc) : (c.setQueue h q).bal = c.bal := rfl
@[simp] theorem Card.setQueue_out (c : Card) (h : Nat) (q : List Desc) : (c.setQueue h q).out = c.out := rfl
@[simp] theorem Card.setQueue_freeCount (c : Card) (h : Nat) (q : List Desc) :
    (c.setQueue h q).freeCount = c.freeCount := rfl

@[simp] theorem Card.setBack_phase (c : Card) (h : Nat) (q : List Desc) : (c.setBack h q).phase = c.phase := rfl
@[simp] theorem Card.setBack_power (c : Card) (h : Nat) (q : List Desc) : (c.setBack h q).power = c.power := rfl
@[simp] theorem Card.setBack_straps (c : Card) (h : Nat) (q : List Desc) : (c.setBack h q).straps = c.straps := rfl
@[simp] theorem Card.setBack_treads (c : Card) (h : Nat) (q : List Desc) : (c.setBack h q).treads = c.treads := rfl
@[simp] theorem Card.setBack_link (c : Card) (h : Nat) (q : List Desc) : (c.setBack h q).link = c.link := rfl
@[simp] theorem Card.setBack_ports (c : Card) (h : Nat) (q : List Desc) : (c.setBack h q).ports = c.ports := rfl
@[simp] theorem Card.setBack_flights (c : Card) (h : Nat) (q : List Desc) : (c.setBack h q).flights = c.flights := rfl
@[simp] theorem Card.setBack_views (c : Card) (h : Nat) (q : List Desc) : (c.setBack h q).views = c.views := rfl
@[simp] theorem Card.setBack_media (c : Card) (h : Nat) (q : List Desc) : (c.setBack h q).media = c.media := rfl
@[simp] theorem Card.setBack_maint (c : Card) (h : Nat) (q : List Desc) : (c.setBack h q).maint = c.maint := rfl
@[simp] theorem Card.setBack_losses (c : Card) (h : Nat) (q : List Desc) : (c.setBack h q).losses = c.losses := rfl
@[simp] theorem Card.setBack_twin (c : Card) (h : Nat) (q : List Desc) : (c.setBack h q).twin = c.twin := rfl
@[simp] theorem Card.setBack_alcove (c : Card) (h : Nat) (q : List Desc) : (c.setBack h q).alcove = c.alcove := rfl
@[simp] theorem Card.setBack_bal (c : Card) (h : Nat) (q : List Desc) : (c.setBack h q).bal = c.bal := rfl
@[simp] theorem Card.setBack_out (c : Card) (h : Nat) (q : List Desc) : (c.setBack h q).out = c.out := rfl
@[simp] theorem Card.setBack_freeCount (c : Card) (h : Nat) (q : List Desc) : (c.setBack h q).freeCount = c.freeCount := rfl

@[simp] theorem Card.putJob_phase (c : Card) (id : Nat) (j : ReadJob) : (c.putJob id j).phase = c.phase := rfl
@[simp] theorem Card.putJob_power (c : Card) (id : Nat) (j : ReadJob) : (c.putJob id j).power = c.power := rfl
@[simp] theorem Card.putJob_straps (c : Card) (id : Nat) (j : ReadJob) : (c.putJob id j).straps = c.straps := rfl
@[simp] theorem Card.putJob_treads (c : Card) (id : Nat) (j : ReadJob) : (c.putJob id j).treads = c.treads := rfl
@[simp] theorem Card.putJob_link (c : Card) (id : Nat) (j : ReadJob) : (c.putJob id j).link = c.link := rfl
@[simp] theorem Card.putJob_ports (c : Card) (id : Nat) (j : ReadJob) : (c.putJob id j).ports = c.ports := rfl
@[simp] theorem Card.putJob_flights (c : Card) (id : Nat) (j : ReadJob) : (c.putJob id j).flights = c.flights := rfl
@[simp] theorem Card.putJob_views (c : Card) (id : Nat) (j : ReadJob) : (c.putJob id j).views = c.views := rfl
@[simp] theorem Card.putJob_media (c : Card) (id : Nat) (j : ReadJob) : (c.putJob id j).media = c.media := rfl
@[simp] theorem Card.putJob_maint (c : Card) (id : Nat) (j : ReadJob) : (c.putJob id j).maint = c.maint := rfl
@[simp] theorem Card.putJob_losses (c : Card) (id : Nat) (j : ReadJob) : (c.putJob id j).losses = c.losses := rfl
@[simp] theorem Card.putJob_twin (c : Card) (id : Nat) (j : ReadJob) : (c.putJob id j).twin = c.twin := rfl
@[simp] theorem Card.putJob_alcove (c : Card) (id : Nat) (j : ReadJob) : (c.putJob id j).alcove = c.alcove := rfl
@[simp] theorem Card.putJob_bal (c : Card) (id : Nat) (j : ReadJob) : (c.putJob id j).bal = c.bal := rfl
@[simp] theorem Card.putJob_out (c : Card) (id : Nat) (j : ReadJob) : (c.putJob id j).out = c.out := rfl
@[simp] theorem Card.putJob_freeCount (c : Card) (id : Nat) (j : ReadJob) : (c.putJob id j).freeCount = c.freeCount := rfl

@[simp] theorem Card.dropJob_phase (c : Card) (id : Nat) : (c.dropJob id).phase = c.phase := rfl
@[simp] theorem Card.dropJob_power (c : Card) (id : Nat) : (c.dropJob id).power = c.power := rfl
@[simp] theorem Card.dropJob_straps (c : Card) (id : Nat) : (c.dropJob id).straps = c.straps := rfl
@[simp] theorem Card.dropJob_treads (c : Card) (id : Nat) : (c.dropJob id).treads = c.treads := rfl
@[simp] theorem Card.dropJob_link (c : Card) (id : Nat) : (c.dropJob id).link = c.link := rfl
@[simp] theorem Card.dropJob_ports (c : Card) (id : Nat) : (c.dropJob id).ports = c.ports := rfl
@[simp] theorem Card.dropJob_flights (c : Card) (id : Nat) : (c.dropJob id).flights = c.flights := rfl
@[simp] theorem Card.dropJob_views (c : Card) (id : Nat) : (c.dropJob id).views = c.views := rfl
@[simp] theorem Card.dropJob_media (c : Card) (id : Nat) : (c.dropJob id).media = c.media := rfl
@[simp] theorem Card.dropJob_maint (c : Card) (id : Nat) : (c.dropJob id).maint = c.maint := rfl
@[simp] theorem Card.dropJob_losses (c : Card) (id : Nat) : (c.dropJob id).losses = c.losses := rfl
@[simp] theorem Card.dropJob_twin (c : Card) (id : Nat) : (c.dropJob id).twin = c.twin := rfl
@[simp] theorem Card.dropJob_alcove (c : Card) (id : Nat) : (c.dropJob id).alcove = c.alcove := rfl
@[simp] theorem Card.dropJob_bal (c : Card) (id : Nat) : (c.dropJob id).bal = c.bal := rfl
@[simp] theorem Card.dropJob_out (c : Card) (id : Nat) : (c.dropJob id).out = c.out := rfl
@[simp] theorem Card.dropJob_freeCount (c : Card) (id : Nat) : (c.dropJob id).freeCount = c.freeCount := rfl

@[simp] theorem Card.setOpen_phase (c : Card) (o : OpenWing) : (c.setOpen o).phase = c.phase := rfl
@[simp] theorem Card.setOpen_power (c : Card) (o : OpenWing) : (c.setOpen o).power = c.power := rfl
@[simp] theorem Card.setOpen_straps (c : Card) (o : OpenWing) : (c.setOpen o).straps = c.straps := rfl
@[simp] theorem Card.setOpen_treads (c : Card) (o : OpenWing) : (c.setOpen o).treads = c.treads := rfl
@[simp] theorem Card.setOpen_link (c : Card) (o : OpenWing) : (c.setOpen o).link = c.link := rfl
@[simp] theorem Card.setOpen_ports (c : Card) (o : OpenWing) : (c.setOpen o).ports = c.ports := rfl
@[simp] theorem Card.setOpen_flights (c : Card) (o : OpenWing) : (c.setOpen o).flights = c.flights := rfl
@[simp] theorem Card.setOpen_views (c : Card) (o : OpenWing) : (c.setOpen o).views = c.views := rfl
@[simp] theorem Card.setOpen_halls (c : Card) (o : OpenWing) : (c.setOpen o).halls = c.halls := rfl
@[simp] theorem Card.setOpen_maint (c : Card) (o : OpenWing) : (c.setOpen o).maint = c.maint := rfl
@[simp] theorem Card.setOpen_losses (c : Card) (o : OpenWing) : (c.setOpen o).losses = c.losses := rfl
@[simp] theorem Card.setOpen_twin (c : Card) (o : OpenWing) : (c.setOpen o).twin = c.twin := rfl
@[simp] theorem Card.setOpen_alcove (c : Card) (o : OpenWing) : (c.setOpen o).alcove = c.alcove := rfl
@[simp] theorem Card.setOpen_bal (c : Card) (o : OpenWing) : (c.setOpen o).bal = c.bal := rfl
@[simp] theorem Card.setOpen_out (c : Card) (o : OpenWing) : (c.setOpen o).out = c.out := rfl
@[simp] theorem Card.setOpen_freeCount (c : Card) (o : OpenWing) : (c.setOpen o).freeCount = c.freeCount := rfl

@[simp] theorem Card.writeCell_phase (c : Card) (k : Nat) (x : Cell) : (c.writeCell k x).phase = c.phase := rfl
@[simp] theorem Card.writeCell_power (c : Card) (k : Nat) (x : Cell) : (c.writeCell k x).power = c.power := rfl
@[simp] theorem Card.writeCell_straps (c : Card) (k : Nat) (x : Cell) : (c.writeCell k x).straps = c.straps := rfl
@[simp] theorem Card.writeCell_treads (c : Card) (k : Nat) (x : Cell) : (c.writeCell k x).treads = c.treads := rfl
@[simp] theorem Card.writeCell_link (c : Card) (k : Nat) (x : Cell) : (c.writeCell k x).link = c.link := rfl
@[simp] theorem Card.writeCell_ports (c : Card) (k : Nat) (x : Cell) : (c.writeCell k x).ports = c.ports := rfl
@[simp] theorem Card.writeCell_flights (c : Card) (k : Nat) (x : Cell) : (c.writeCell k x).flights = c.flights := rfl
@[simp] theorem Card.writeCell_views (c : Card) (k : Nat) (x : Cell) : (c.writeCell k x).views = c.views := rfl
@[simp] theorem Card.writeCell_halls (c : Card) (k : Nat) (x : Cell) : (c.writeCell k x).halls = c.halls := rfl
@[simp] theorem Card.writeCell_maint (c : Card) (k : Nat) (x : Cell) : (c.writeCell k x).maint = c.maint := rfl
@[simp] theorem Card.writeCell_losses (c : Card) (k : Nat) (x : Cell) : (c.writeCell k x).losses = c.losses := rfl
@[simp] theorem Card.writeCell_twin (c : Card) (k : Nat) (x : Cell) : (c.writeCell k x).twin = c.twin := rfl
@[simp] theorem Card.writeCell_alcove (c : Card) (k : Nat) (x : Cell) : (c.writeCell k x).alcove = c.alcove := rfl
@[simp] theorem Card.writeCell_bal (c : Card) (k : Nat) (x : Cell) : (c.writeCell k x).bal = c.bal := rfl
@[simp] theorem Card.writeCell_out (c : Card) (k : Nat) (x : Cell) : (c.writeCell k x).out = c.out := rfl
@[simp] theorem Card.writeCell_freeCount (c : Card) (k : Nat) (x : Cell) : (c.writeCell k x).freeCount = c.freeCount := rfl

@[simp] theorem Card.dropMove_phase (c : Card) (id : Nat) : (c.dropMove id).phase = c.phase := rfl
@[simp] theorem Card.dropMove_power (c : Card) (id : Nat) : (c.dropMove id).power = c.power := rfl
@[simp] theorem Card.dropMove_straps (c : Card) (id : Nat) : (c.dropMove id).straps = c.straps := rfl
@[simp] theorem Card.dropMove_treads (c : Card) (id : Nat) : (c.dropMove id).treads = c.treads := rfl
@[simp] theorem Card.dropMove_link (c : Card) (id : Nat) : (c.dropMove id).link = c.link := rfl
@[simp] theorem Card.dropMove_ports (c : Card) (id : Nat) : (c.dropMove id).ports = c.ports := rfl
@[simp] theorem Card.dropMove_flights (c : Card) (id : Nat) : (c.dropMove id).flights = c.flights := rfl
@[simp] theorem Card.dropMove_views (c : Card) (id : Nat) : (c.dropMove id).views = c.views := rfl
@[simp] theorem Card.dropMove_media (c : Card) (id : Nat) : (c.dropMove id).media = c.media := rfl
@[simp] theorem Card.dropMove_maint (c : Card) (id : Nat) : (c.dropMove id).maint = c.maint := rfl
@[simp] theorem Card.dropMove_losses (c : Card) (id : Nat) : (c.dropMove id).losses = c.losses := rfl
@[simp] theorem Card.dropMove_twin (c : Card) (id : Nat) : (c.dropMove id).twin = c.twin := rfl
@[simp] theorem Card.dropMove_alcove (c : Card) (id : Nat) : (c.dropMove id).alcove = c.alcove := rfl
@[simp] theorem Card.dropMove_bal (c : Card) (id : Nat) : (c.dropMove id).bal = c.bal := rfl
@[simp] theorem Card.dropMove_out (c : Card) (id : Nat) : (c.dropMove id).out = c.out := rfl
@[simp] theorem Card.dropMove_freeCount (c : Card) (id : Nat) : (c.dropMove id).freeCount = c.freeCount := rfl

@[simp] theorem Card.holdWindow_phase (c : Card) (w : Window) : (c.holdWindow w).phase = c.phase := rfl
@[simp] theorem Card.holdWindow_power (c : Card) (w : Window) : (c.holdWindow w).power = c.power := rfl
@[simp] theorem Card.holdWindow_straps (c : Card) (w : Window) : (c.holdWindow w).straps = c.straps := rfl
@[simp] theorem Card.holdWindow_treads (c : Card) (w : Window) : (c.holdWindow w).treads = c.treads := rfl
@[simp] theorem Card.holdWindow_link (c : Card) (w : Window) : (c.holdWindow w).link = c.link := rfl
@[simp] theorem Card.holdWindow_ports (c : Card) (w : Window) : (c.holdWindow w).ports = c.ports := rfl
@[simp] theorem Card.holdWindow_flights (c : Card) (w : Window) : (c.holdWindow w).flights = c.flights := rfl
@[simp] theorem Card.holdWindow_views (c : Card) (w : Window) : (c.holdWindow w).views = c.views := rfl
@[simp] theorem Card.holdWindow_media (c : Card) (w : Window) : (c.holdWindow w).media = c.media := rfl
@[simp] theorem Card.holdWindow_halls (c : Card) (w : Window) : (c.holdWindow w).halls = c.halls := rfl
@[simp] theorem Card.holdWindow_losses (c : Card) (w : Window) : (c.holdWindow w).losses = c.losses := rfl
@[simp] theorem Card.holdWindow_twin (c : Card) (w : Window) : (c.holdWindow w).twin = c.twin := rfl
@[simp] theorem Card.holdWindow_alcove (c : Card) (w : Window) : (c.holdWindow w).alcove = c.alcove := rfl
@[simp] theorem Card.holdWindow_bal (c : Card) (w : Window) : (c.holdWindow w).bal = c.bal := rfl
@[simp] theorem Card.holdWindow_out (c : Card) (w : Window) : (c.holdWindow w).out = c.out := rfl
@[simp] theorem Card.holdWindow_freeCount (c : Card) (w : Window) : (c.holdWindow w).freeCount = c.freeCount := rfl

@[simp] theorem Card.closeFlight_phase (c : Card) : (c.closeFlight).phase = c.phase := rfl
@[simp] theorem Card.closeFlight_power (c : Card) : (c.closeFlight).power = c.power := rfl
@[simp] theorem Card.closeFlight_straps (c : Card) : (c.closeFlight).straps = c.straps := rfl
@[simp] theorem Card.closeFlight_treads (c : Card) : (c.closeFlight).treads = c.treads := rfl
@[simp] theorem Card.closeFlight_link (c : Card) : (c.closeFlight).link = c.link := rfl
@[simp] theorem Card.closeFlight_ports (c : Card) : (c.closeFlight).ports = c.ports := rfl
@[simp] theorem Card.closeFlight_views (c : Card) : (c.closeFlight).views = c.views := rfl
@[simp] theorem Card.closeFlight_media (c : Card) : (c.closeFlight).media = c.media := rfl
@[simp] theorem Card.closeFlight_halls (c : Card) : (c.closeFlight).halls = c.halls := rfl
@[simp] theorem Card.closeFlight_maint (c : Card) : (c.closeFlight).maint = c.maint := rfl
@[simp] theorem Card.closeFlight_losses (c : Card) : (c.closeFlight).losses = c.losses := rfl
@[simp] theorem Card.closeFlight_twin (c : Card) : (c.closeFlight).twin = c.twin := rfl
@[simp] theorem Card.closeFlight_alcove (c : Card) : (c.closeFlight).alcove = c.alcove := rfl
@[simp] theorem Card.closeFlight_bal (c : Card) : (c.closeFlight).bal = c.bal := rfl
@[simp] theorem Card.closeFlight_out (c : Card) : (c.closeFlight).out = c.out := rfl
@[simp] theorem Card.closeFlight_freeCount (c : Card) : (c.closeFlight).freeCount = c.freeCount := rfl

@[simp] theorem Card.setAct_phase (c : Card) (a : Action) : (c.setAct a).phase = c.phase := rfl
@[simp] theorem Card.setAct_power (c : Card) (a : Action) : (c.setAct a).power = c.power := rfl
@[simp] theorem Card.setAct_straps (c : Card) (a : Action) : (c.setAct a).straps = c.straps := rfl
@[simp] theorem Card.setAct_treads (c : Card) (a : Action) : (c.setAct a).treads = c.treads := rfl
@[simp] theorem Card.setAct_link (c : Card) (a : Action) : (c.setAct a).link = c.link := rfl
@[simp] theorem Card.setAct_ports (c : Card) (a : Action) : (c.setAct a).ports = c.ports := rfl
@[simp] theorem Card.setAct_views (c : Card) (a : Action) : (c.setAct a).views = c.views := rfl
@[simp] theorem Card.setAct_media (c : Card) (a : Action) : (c.setAct a).media = c.media := rfl
@[simp] theorem Card.setAct_halls (c : Card) (a : Action) : (c.setAct a).halls = c.halls := rfl
@[simp] theorem Card.setAct_maint (c : Card) (a : Action) : (c.setAct a).maint = c.maint := rfl
@[simp] theorem Card.setAct_losses (c : Card) (a : Action) : (c.setAct a).losses = c.losses := rfl
@[simp] theorem Card.setAct_twin (c : Card) (a : Action) : (c.setAct a).twin = c.twin := rfl
@[simp] theorem Card.setAct_alcove (c : Card) (a : Action) : (c.setAct a).alcove = c.alcove := rfl
@[simp] theorem Card.setAct_bal (c : Card) (a : Action) : (c.setAct a).bal = c.bal := rfl
@[simp] theorem Card.setAct_out (c : Card) (a : Action) : (c.setAct a).out = c.out := rfl
@[simp] theorem Card.setAct_freeCount (c : Card) (a : Action) : (c.setAct a).freeCount = c.freeCount := rfl

@[simp] theorem Card.unhold_phase (c : Card) : (c.unhold).phase = c.phase := rfl
@[simp] theorem Card.unhold_power (c : Card) : (c.unhold).power = c.power := rfl
@[simp] theorem Card.unhold_straps (c : Card) : (c.unhold).straps = c.straps := rfl
@[simp] theorem Card.unhold_treads (c : Card) : (c.unhold).treads = c.treads := rfl
@[simp] theorem Card.unhold_link (c : Card) : (c.unhold).link = c.link := rfl
@[simp] theorem Card.unhold_ports (c : Card) : (c.unhold).ports = c.ports := rfl
@[simp] theorem Card.unhold_views (c : Card) : (c.unhold).views = c.views := rfl
@[simp] theorem Card.unhold_media (c : Card) : (c.unhold).media = c.media := rfl
@[simp] theorem Card.unhold_halls (c : Card) : (c.unhold).halls = c.halls := rfl
@[simp] theorem Card.unhold_maint (c : Card) : (c.unhold).maint = c.maint := rfl
@[simp] theorem Card.unhold_losses (c : Card) : (c.unhold).losses = c.losses := rfl
@[simp] theorem Card.unhold_twin (c : Card) : (c.unhold).twin = c.twin := rfl
@[simp] theorem Card.unhold_alcove (c : Card) : (c.unhold).alcove = c.alcove := rfl
@[simp] theorem Card.unhold_bal (c : Card) : (c.unhold).bal = c.bal := rfl
@[simp] theorem Card.unhold_out (c : Card) : (c.unhold).out = c.out := rfl
@[simp] theorem Card.unhold_freeCount (c : Card) : (c.unhold).freeCount = c.freeCount := rfl

@[simp] theorem Card.markH_phase (c : Card) (b : Nat) : (c.markH b).phase = c.phase := rfl
@[simp] theorem Card.markH_power (c : Card) (b : Nat) : (c.markH b).power = c.power := rfl
@[simp] theorem Card.markH_straps (c : Card) (b : Nat) : (c.markH b).straps = c.straps := rfl
@[simp] theorem Card.markH_treads (c : Card) (b : Nat) : (c.markH b).treads = c.treads := rfl
@[simp] theorem Card.markH_link (c : Card) (b : Nat) : (c.markH b).link = c.link := rfl
@[simp] theorem Card.markH_ports (c : Card) (b : Nat) : (c.markH b).ports = c.ports := rfl
@[simp] theorem Card.markH_flights (c : Card) (b : Nat) : (c.markH b).flights = c.flights := rfl
@[simp] theorem Card.markH_media (c : Card) (b : Nat) : (c.markH b).media = c.media := rfl
@[simp] theorem Card.markH_halls (c : Card) (b : Nat) : (c.markH b).halls = c.halls := rfl
@[simp] theorem Card.markH_maint (c : Card) (b : Nat) : (c.markH b).maint = c.maint := rfl
@[simp] theorem Card.markH_losses (c : Card) (b : Nat) : (c.markH b).losses = c.losses := rfl
@[simp] theorem Card.markH_twin (c : Card) (b : Nat) : (c.markH b).twin = c.twin := rfl
@[simp] theorem Card.markH_alcove (c : Card) (b : Nat) : (c.markH b).alcove = c.alcove := rfl
@[simp] theorem Card.markH_bal (c : Card) (b : Nat) : (c.markH b).bal = c.bal := rfl
@[simp] theorem Card.markH_out (c : Card) (b : Nat) : (c.markH b).out = c.out := rfl
@[simp] theorem Card.markH_freeCount (c : Card) (b : Nat) : (c.markH b).freeCount = c.freeCount := rfl

@[simp] theorem Card.setService_phase (c : Card) (x : Option (Tag × Service)) : (c.setService x).phase = c.phase := rfl
@[simp] theorem Card.setService_power (c : Card) (x : Option (Tag × Service)) : (c.setService x).power = c.power := rfl
@[simp] theorem Card.setService_straps (c : Card) (x : Option (Tag × Service)) : (c.setService x).straps = c.straps := rfl
@[simp] theorem Card.setService_treads (c : Card) (x : Option (Tag × Service)) : (c.setService x).treads = c.treads := rfl
@[simp] theorem Card.setService_link (c : Card) (x : Option (Tag × Service)) : (c.setService x).link = c.link := rfl
@[simp] theorem Card.setService_ports (c : Card) (x : Option (Tag × Service)) : (c.setService x).ports = c.ports := rfl
@[simp] theorem Card.setService_flights (c : Card) (x : Option (Tag × Service)) :
    (c.setService x).flights = c.flights := rfl
@[simp] theorem Card.setService_views (c : Card) (x : Option (Tag × Service)) : (c.setService x).views = c.views := rfl
@[simp] theorem Card.setService_media (c : Card) (x : Option (Tag × Service)) : (c.setService x).media = c.media := rfl
@[simp] theorem Card.setService_halls (c : Card) (x : Option (Tag × Service)) : (c.setService x).halls = c.halls := rfl
@[simp] theorem Card.setService_maint (c : Card) (x : Option (Tag × Service)) : (c.setService x).maint = c.maint := rfl
@[simp] theorem Card.setService_losses (c : Card) (x : Option (Tag × Service)) : (c.setService x).losses = c.losses := rfl
@[simp] theorem Card.setService_twin (c : Card) (x : Option (Tag × Service)) : (c.setService x).twin = c.twin := rfl
@[simp] theorem Card.setService_bal (c : Card) (x : Option (Tag × Service)) : (c.setService x).bal = c.bal := rfl
@[simp] theorem Card.setService_out (c : Card) (x : Option (Tag × Service)) : (c.setService x).out = c.out := rfl
@[simp] theorem Card.setService_freeCount (c : Card) (x : Option (Tag × Service)) :
    (c.setService x).freeCount = c.freeCount := rfl

@[simp] theorem Card.addOps_phase (c : Card) (os : List AlcoveOp) : (c.addOps os).phase = c.phase := rfl
@[simp] theorem Card.addOps_power (c : Card) (os : List AlcoveOp) : (c.addOps os).power = c.power := rfl
@[simp] theorem Card.addOps_straps (c : Card) (os : List AlcoveOp) : (c.addOps os).straps = c.straps := rfl
@[simp] theorem Card.addOps_treads (c : Card) (os : List AlcoveOp) : (c.addOps os).treads = c.treads := rfl
@[simp] theorem Card.addOps_link (c : Card) (os : List AlcoveOp) : (c.addOps os).link = c.link := rfl
@[simp] theorem Card.addOps_ports (c : Card) (os : List AlcoveOp) : (c.addOps os).ports = c.ports := rfl
@[simp] theorem Card.addOps_flights (c : Card) (os : List AlcoveOp) : (c.addOps os).flights = c.flights := rfl
@[simp] theorem Card.addOps_views (c : Card) (os : List AlcoveOp) : (c.addOps os).views = c.views := rfl
@[simp] theorem Card.addOps_media (c : Card) (os : List AlcoveOp) : (c.addOps os).media = c.media := rfl
@[simp] theorem Card.addOps_halls (c : Card) (os : List AlcoveOp) : (c.addOps os).halls = c.halls := rfl
@[simp] theorem Card.addOps_maint (c : Card) (os : List AlcoveOp) : (c.addOps os).maint = c.maint := rfl
@[simp] theorem Card.addOps_losses (c : Card) (os : List AlcoveOp) : (c.addOps os).losses = c.losses := rfl
@[simp] theorem Card.addOps_twin (c : Card) (os : List AlcoveOp) : (c.addOps os).twin = c.twin := rfl
@[simp] theorem Card.addOps_bal (c : Card) (os : List AlcoveOp) : (c.addOps os).bal = c.bal := rfl
@[simp] theorem Card.addOps_out (c : Card) (os : List AlcoveOp) : (c.addOps os).out = c.out := rfl
@[simp] theorem Card.addOps_freeCount (c : Card) (os : List AlcoveOp) : (c.addOps os).freeCount = c.freeCount := rfl

@[simp] theorem Card.unfence_phase (c : Card) : (c.unfence).phase = c.phase := rfl
@[simp] theorem Card.unfence_power (c : Card) : (c.unfence).power = c.power := rfl
@[simp] theorem Card.unfence_straps (c : Card) : (c.unfence).straps = c.straps := rfl
@[simp] theorem Card.unfence_treads (c : Card) : (c.unfence).treads = c.treads := rfl
@[simp] theorem Card.unfence_link (c : Card) : (c.unfence).link = c.link := rfl
@[simp] theorem Card.unfence_ports (c : Card) : (c.unfence).ports = c.ports := rfl
@[simp] theorem Card.unfence_flights (c : Card) : (c.unfence).flights = c.flights := rfl
@[simp] theorem Card.unfence_views (c : Card) : (c.unfence).views = c.views := rfl
@[simp] theorem Card.unfence_media (c : Card) : (c.unfence).media = c.media := rfl
@[simp] theorem Card.unfence_maint (c : Card) : (c.unfence).maint = c.maint := rfl
@[simp] theorem Card.unfence_losses (c : Card) : (c.unfence).losses = c.losses := rfl
@[simp] theorem Card.unfence_twin (c : Card) : (c.unfence).twin = c.twin := rfl
@[simp] theorem Card.unfence_alcove (c : Card) : (c.unfence).alcove = c.alcove := rfl
@[simp] theorem Card.unfence_bal (c : Card) : (c.unfence).bal = c.bal := rfl
@[simp] theorem Card.unfence_out (c : Card) : (c.unfence).out = c.out := rfl
@[simp] theorem Card.unfence_freeCount (c : Card) : (c.unfence).freeCount = c.freeCount := rfl

@[simp] theorem Card.setPower_phase (c : Card) (p : Power) : (c.setPower p).phase = c.phase := rfl
@[simp] theorem Card.setPower_straps (c : Card) (p : Power) : (c.setPower p).straps = c.straps := rfl
@[simp] theorem Card.setPower_treads (c : Card) (p : Power) : (c.setPower p).treads = c.treads := rfl
@[simp] theorem Card.setPower_link (c : Card) (p : Power) : (c.setPower p).link = c.link := rfl
@[simp] theorem Card.setPower_ports (c : Card) (p : Power) : (c.setPower p).ports = c.ports := rfl
@[simp] theorem Card.setPower_flights (c : Card) (p : Power) : (c.setPower p).flights = c.flights := rfl
@[simp] theorem Card.setPower_views (c : Card) (p : Power) : (c.setPower p).views = c.views := rfl
@[simp] theorem Card.setPower_media (c : Card) (p : Power) : (c.setPower p).media = c.media := rfl
@[simp] theorem Card.setPower_halls (c : Card) (p : Power) : (c.setPower p).halls = c.halls := rfl
@[simp] theorem Card.setPower_maint (c : Card) (p : Power) : (c.setPower p).maint = c.maint := rfl
@[simp] theorem Card.setPower_losses (c : Card) (p : Power) : (c.setPower p).losses = c.losses := rfl
@[simp] theorem Card.setPower_twin (c : Card) (p : Power) : (c.setPower p).twin = c.twin := rfl
@[simp] theorem Card.setPower_alcove (c : Card) (p : Power) : (c.setPower p).alcove = c.alcove := rfl
@[simp] theorem Card.setPower_bal (c : Card) (p : Power) : (c.setPower p).bal = c.bal := rfl
@[simp] theorem Card.setPower_out (c : Card) (p : Power) : (c.setPower p).out = c.out := rfl
@[simp] theorem Card.setPower_freeCount (c : Card) (p : Power) : (c.setPower p).freeCount = c.freeCount := rfl

@[simp] theorem Card.emptyTags_phase (c : Card) : (c.emptyTags).phase = c.phase := rfl
@[simp] theorem Card.emptyTags_power (c : Card) : (c.emptyTags).power = c.power := rfl
@[simp] theorem Card.emptyTags_straps (c : Card) : (c.emptyTags).straps = c.straps := rfl
@[simp] theorem Card.emptyTags_treads (c : Card) : (c.emptyTags).treads = c.treads := rfl
@[simp] theorem Card.emptyTags_link (c : Card) : (c.emptyTags).link = c.link := rfl
@[simp] theorem Card.emptyTags_flights (c : Card) : (c.emptyTags).flights = c.flights := rfl
@[simp] theorem Card.emptyTags_views (c : Card) : (c.emptyTags).views = c.views := rfl
@[simp] theorem Card.emptyTags_media (c : Card) : (c.emptyTags).media = c.media := rfl
@[simp] theorem Card.emptyTags_halls (c : Card) : (c.emptyTags).halls = c.halls := rfl
@[simp] theorem Card.emptyTags_maint (c : Card) : (c.emptyTags).maint = c.maint := rfl
@[simp] theorem Card.emptyTags_losses (c : Card) : (c.emptyTags).losses = c.losses := rfl
@[simp] theorem Card.emptyTags_twin (c : Card) : (c.emptyTags).twin = c.twin := rfl
@[simp] theorem Card.emptyTags_alcove (c : Card) : (c.emptyTags).alcove = c.alcove := rfl
@[simp] theorem Card.emptyTags_bal (c : Card) : (c.emptyTags).bal = c.bal := rfl
@[simp] theorem Card.emptyTags_out (c : Card) : (c.emptyTags).out = c.out := rfl
@[simp] theorem Card.emptyTags_freeCount (c : Card) : (c.emptyTags).freeCount = c.freeCount := rfl

@[simp] theorem Card.keepTags_phase (c : Card) (t : Tag) : (c.keepTags t).phase = c.phase := rfl
@[simp] theorem Card.keepTags_power (c : Card) (t : Tag) : (c.keepTags t).power = c.power := rfl
@[simp] theorem Card.keepTags_straps (c : Card) (t : Tag) : (c.keepTags t).straps = c.straps := rfl
@[simp] theorem Card.keepTags_treads (c : Card) (t : Tag) : (c.keepTags t).treads = c.treads := rfl
@[simp] theorem Card.keepTags_link (c : Card) (t : Tag) : (c.keepTags t).link = c.link := rfl
@[simp] theorem Card.keepTags_flights (c : Card) (t : Tag) : (c.keepTags t).flights = c.flights := rfl
@[simp] theorem Card.keepTags_views (c : Card) (t : Tag) : (c.keepTags t).views = c.views := rfl
@[simp] theorem Card.keepTags_media (c : Card) (t : Tag) : (c.keepTags t).media = c.media := rfl
@[simp] theorem Card.keepTags_halls (c : Card) (t : Tag) : (c.keepTags t).halls = c.halls := rfl
@[simp] theorem Card.keepTags_maint (c : Card) (t : Tag) : (c.keepTags t).maint = c.maint := rfl
@[simp] theorem Card.keepTags_losses (c : Card) (t : Tag) : (c.keepTags t).losses = c.losses := rfl
@[simp] theorem Card.keepTags_twin (c : Card) (t : Tag) : (c.keepTags t).twin = c.twin := rfl
@[simp] theorem Card.keepTags_alcove (c : Card) (t : Tag) : (c.keepTags t).alcove = c.alcove := rfl
@[simp] theorem Card.keepTags_bal (c : Card) (t : Tag) : (c.keepTags t).bal = c.bal := rfl
@[simp] theorem Card.keepTags_out (c : Card) (t : Tag) : (c.keepTags t).out = c.out := rfl
@[simp] theorem Card.keepTags_freeCount (c : Card) (t : Tag) : (c.keepTags t).freeCount = c.freeCount := rfl

@[simp] theorem Card.setSlot_phase (c : Card) (n : Nat) : (c.setSlot n).phase = c.phase := rfl
@[simp] theorem Card.setSlot_power (c : Card) (n : Nat) : (c.setSlot n).power = c.power := rfl
@[simp] theorem Card.setSlot_straps (c : Card) (n : Nat) : (c.setSlot n).straps = c.straps := rfl
@[simp] theorem Card.setSlot_treads (c : Card) (n : Nat) : (c.setSlot n).treads = c.treads := rfl
@[simp] theorem Card.setSlot_link (c : Card) (n : Nat) : (c.setSlot n).link = c.link := rfl
@[simp] theorem Card.setSlot_ports (c : Card) (n : Nat) : (c.setSlot n).ports = c.ports := rfl
@[simp] theorem Card.setSlot_flights (c : Card) (n : Nat) : (c.setSlot n).flights = c.flights := rfl
@[simp] theorem Card.setSlot_views (c : Card) (n : Nat) : (c.setSlot n).views = c.views := rfl
@[simp] theorem Card.setSlot_media (c : Card) (n : Nat) : (c.setSlot n).media = c.media := rfl
@[simp] theorem Card.setSlot_halls (c : Card) (n : Nat) : (c.setSlot n).halls = c.halls := rfl
@[simp] theorem Card.setSlot_maint (c : Card) (n : Nat) : (c.setSlot n).maint = c.maint := rfl
@[simp] theorem Card.setSlot_losses (c : Card) (n : Nat) : (c.setSlot n).losses = c.losses := rfl
@[simp] theorem Card.setSlot_twin (c : Card) (n : Nat) : (c.setSlot n).twin = c.twin := rfl
@[simp] theorem Card.setSlot_alcove (c : Card) (n : Nat) : (c.setSlot n).alcove = c.alcove := rfl
@[simp] theorem Card.setSlot_out (c : Card) (n : Nat) : (c.setSlot n).out = c.out := rfl
@[simp] theorem Card.setSlot_freeCount (c : Card) (n : Nat) : (c.setSlot n).freeCount = c.freeCount := rfl

@[simp] theorem Card.disown_phase (c : Card) (w : WriteWork) : (c.disown w).phase = c.phase := rfl
@[simp] theorem Card.disown_power (c : Card) (w : WriteWork) : (c.disown w).power = c.power := rfl
@[simp] theorem Card.disown_straps (c : Card) (w : WriteWork) : (c.disown w).straps = c.straps := rfl
@[simp] theorem Card.disown_treads (c : Card) (w : WriteWork) : (c.disown w).treads = c.treads := rfl
@[simp] theorem Card.disown_link (c : Card) (w : WriteWork) : (c.disown w).link = c.link := rfl
@[simp] theorem Card.disown_ports (c : Card) (w : WriteWork) : (c.disown w).ports = c.ports := rfl
@[simp] theorem Card.disown_views (c : Card) (w : WriteWork) : (c.disown w).views = c.views := rfl
@[simp] theorem Card.disown_media (c : Card) (w : WriteWork) : (c.disown w).media = c.media := rfl
@[simp] theorem Card.disown_halls (c : Card) (w : WriteWork) : (c.disown w).halls = c.halls := rfl
@[simp] theorem Card.disown_maint (c : Card) (w : WriteWork) : (c.disown w).maint = c.maint := rfl
@[simp] theorem Card.disown_losses (c : Card) (w : WriteWork) : (c.disown w).losses = c.losses := rfl
@[simp] theorem Card.disown_twin (c : Card) (w : WriteWork) : (c.disown w).twin = c.twin := rfl
@[simp] theorem Card.disown_alcove (c : Card) (w : WriteWork) : (c.disown w).alcove = c.alcove := rfl
@[simp] theorem Card.disown_bal (c : Card) (w : WriteWork) : (c.disown w).bal = c.bal := rfl
@[simp] theorem Card.disown_out (c : Card) (w : WriteWork) : (c.disown w).out = c.out := rfl
@[simp] theorem Card.disown_freeCount (c : Card) (w : WriteWork) : (c.disown w).freeCount = c.freeCount := rfl

@[simp] theorem Card.setMargin_phase (c : Card) (lane : BitVec 2) (margin : Byte) :
    (c.setMargin lane margin).phase = c.phase := rfl
@[simp] theorem Card.setMargin_power (c : Card) (lane : BitVec 2) (margin : Byte) :
    (c.setMargin lane margin).power = c.power := rfl
@[simp] theorem Card.setMargin_straps (c : Card) (lane : BitVec 2) (margin : Byte) :
    (c.setMargin lane margin).straps = c.straps := rfl
@[simp] theorem Card.setMargin_treads (c : Card) (lane : BitVec 2) (margin : Byte) :
    (c.setMargin lane margin).treads = c.treads := rfl
@[simp] theorem Card.setMargin_ports (c : Card) (lane : BitVec 2) (margin : Byte) :
    (c.setMargin lane margin).ports = c.ports := rfl
@[simp] theorem Card.setMargin_flights (c : Card) (lane : BitVec 2) (margin : Byte) :
    (c.setMargin lane margin).flights = c.flights := rfl
@[simp] theorem Card.setMargin_views (c : Card) (lane : BitVec 2) (margin : Byte) :
    (c.setMargin lane margin).views = c.views := rfl
@[simp] theorem Card.setMargin_media (c : Card) (lane : BitVec 2) (margin : Byte) :
    (c.setMargin lane margin).media = c.media := rfl
@[simp] theorem Card.setMargin_halls (c : Card) (lane : BitVec 2) (margin : Byte) :
    (c.setMargin lane margin).halls = c.halls := rfl
@[simp] theorem Card.setMargin_maint (c : Card) (lane : BitVec 2) (margin : Byte) :
    (c.setMargin lane margin).maint = c.maint := rfl
@[simp] theorem Card.setMargin_losses (c : Card) (lane : BitVec 2) (margin : Byte) :
    (c.setMargin lane margin).losses = c.losses := rfl
@[simp] theorem Card.setMargin_twin (c : Card) (lane : BitVec 2) (margin : Byte) :
    (c.setMargin lane margin).twin = c.twin := rfl
@[simp] theorem Card.setMargin_alcove (c : Card) (lane : BitVec 2) (margin : Byte) :
    (c.setMargin lane margin).alcove = c.alcove := rfl
@[simp] theorem Card.setMargin_bal (c : Card) (lane : BitVec 2) (margin : Byte) :
    (c.setMargin lane margin).bal = c.bal := rfl
@[simp] theorem Card.setMargin_out (c : Card) (lane : BitVec 2) (margin : Byte) :
    (c.setMargin lane margin).out = c.out := rfl
@[simp] theorem Card.setMargin_freeCount (c : Card) (lane : BitVec 2) (margin : Byte) :
    (c.setMargin lane margin).freeCount = c.freeCount := rfl

@[simp] theorem Card.release_phase (c : Card) (ks : List Nat) : (c.release ks).phase = c.phase := rfl
@[simp] theorem Card.release_power (c : Card) (ks : List Nat) : (c.release ks).power = c.power := rfl
@[simp] theorem Card.release_straps (c : Card) (ks : List Nat) : (c.release ks).straps = c.straps := rfl
@[simp] theorem Card.release_treads (c : Card) (ks : List Nat) : (c.release ks).treads = c.treads := rfl
@[simp] theorem Card.release_link (c : Card) (ks : List Nat) : (c.release ks).link = c.link := rfl
@[simp] theorem Card.release_ports (c : Card) (ks : List Nat) : (c.release ks).ports = c.ports := rfl
@[simp] theorem Card.release_flights (c : Card) (ks : List Nat) : (c.release ks).flights = c.flights := rfl
@[simp] theorem Card.release_views (c : Card) (ks : List Nat) : (c.release ks).views = c.views := rfl
@[simp] theorem Card.release_halls (c : Card) (ks : List Nat) : (c.release ks).halls = c.halls := rfl
@[simp] theorem Card.release_maint (c : Card) (ks : List Nat) : (c.release ks).maint = c.maint := rfl
@[simp] theorem Card.release_losses (c : Card) (ks : List Nat) : (c.release ks).losses = c.losses := rfl
@[simp] theorem Card.release_twin (c : Card) (ks : List Nat) : (c.release ks).twin = c.twin := rfl
@[simp] theorem Card.release_alcove (c : Card) (ks : List Nat) : (c.release ks).alcove = c.alcove := rfl
@[simp] theorem Card.release_bal (c : Card) (ks : List Nat) : (c.release ks).bal = c.bal := rfl
@[simp] theorem Card.release_out (c : Card) (ks : List Nat) : (c.release ks).out = c.out := rfl
@[simp] theorem Card.release_freeCount (c : Card) (ks : List Nat) : (c.release ks).freeCount = c.freeCount := rfl

end Sys2Proof.Machine
end

