-- ==== Sys2Proof/Laws/Ops.lean ====
section
/-! SUPPORT. What each operation that every meaning shares leaves alone, and what it does to the rest. -/

namespace Sys2Proof.Machine

open Sys2Proof

/-- The tag written holds what was written. -/
@[simp] theorem Card.putTag_tagEntry (c : Card) (t : Tag) (e : TagEntry) : (c.putTag t e).tagEntry t = some e := by
  simp [Card.tagEntry, Card.putTag]

/-- Every other tag holds what it held. -/
theorem Card.putTag_tagEntry_other (c : Card) {t u : Tag} (e : TagEntry) (h : u ≠ t) :
    (c.putTag t e).tagEntry u = c.tagEntry u := by
  simp only [Card.tagEntry, Card.putTag]
  exact KV.find_put_other _ _ (fun x => h (BitVec.eq_of_toNat_eq x))

@[simp] theorem Card.driveLnd_frame (c : Card) :
    (c.driveLnd).phase = c.phase ∧ (c.driveLnd).straps = c.straps ∧ (c.driveLnd).treads = c.treads ∧
    (c.driveLnd).link = c.link ∧ (c.driveLnd).ports = c.ports ∧ (c.driveLnd).flights = c.flights ∧
    (c.driveLnd).views = c.views ∧ (c.driveLnd).media = c.media ∧ (c.driveLnd).halls = c.halls ∧
    (c.driveLnd).maint = c.maint ∧ (c.driveLnd).losses = c.losses ∧ (c.driveLnd).twin = c.twin ∧
    (c.driveLnd).alcove = c.alcove ∧ (c.driveLnd).bal = c.bal ∧ (c.driveLnd).out = c.out ∧
    (c.driveLnd).freeCount = c.freeCount := by
  unfold Card.driveLnd
  (try dsimp only)
  (repeat' split) <;> simp

@[simp] theorem Card.removeAct_frame (c : Card) (a : Action) :
    (c.removeAct a).phase = c.phase ∧ (c.removeAct a).straps = c.straps ∧ (c.removeAct a).treads = c.treads ∧
    (c.removeAct a).link = c.link ∧ (c.removeAct a).ports = c.ports ∧ (c.removeAct a).views = c.views ∧
    (c.removeAct a).media = c.media ∧ (c.removeAct a).halls = c.halls ∧ (c.removeAct a).maint = c.maint ∧
    (c.removeAct a).losses = c.losses ∧ (c.removeAct a).twin = c.twin ∧ (c.removeAct a).alcove = c.alcove ∧
    (c.removeAct a).bal = c.bal ∧ (c.removeAct a).out = c.out := by
  simp [Card.removeAct]

@[simp] theorem Card.hold_frame (c : Card) (h : Held) :
    (c.hold h).phase = c.phase ∧ (c.hold h).straps = c.straps ∧ (c.hold h).treads = c.treads ∧
    (c.hold h).link = c.link ∧ (c.hold h).ports = c.ports ∧ (c.hold h).views = c.views ∧
    (c.hold h).media = c.media ∧ (c.hold h).halls = c.halls ∧ (c.hold h).maint = c.maint ∧
    (c.hold h).losses = c.losses ∧ (c.hold h).twin = c.twin ∧ (c.hold h).alcove = c.alcove ∧
    (c.hold h).bal = c.bal ∧ (c.hold h).out = c.out ∧ (c.hold h).freeCount = c.freeCount := by
  unfold Card.hold
  (try dsimp only)
  (repeat' split) <;> simp

@[simp] theorem Card.setPointer_frame (c : Card) (w h n : Nat) :
    (c.setPointer w h n).phase = c.phase ∧ (c.setPointer w h n).power = c.power ∧ (c.setPointer w h n).straps = c.straps ∧
    (c.setPointer w h n).treads = c.treads ∧ (c.setPointer w h n).link = c.link ∧ (c.setPointer w h n).ports = c.ports ∧
    (c.setPointer w h n).flights = c.flights ∧ (c.setPointer w h n).views = c.views ∧ (c.setPointer w h n).halls = c.halls ∧
    (c.setPointer w h n).maint = c.maint ∧ (c.setPointer w h n).losses = c.losses ∧ (c.setPointer w h n).twin = c.twin ∧
    (c.setPointer w h n).alcove = c.alcove ∧ (c.setPointer w h n).bal = c.bal ∧ (c.setPointer w h n).out = c.out ∧
    (c.setPointer w h n).freeCount = c.freeCount := by
  unfold Card.setPointer
  (try dsimp only)
  (repeat' split) <;> simp

@[simp] theorem Card.supersede_frame (c : Card) (k : Nat) :
    (c.supersede k).phase = c.phase ∧ (c.supersede k).power = c.power ∧ (c.supersede k).straps = c.straps ∧
    (c.supersede k).treads = c.treads ∧ (c.supersede k).link = c.link ∧ (c.supersede k).ports = c.ports ∧
    (c.supersede k).flights = c.flights ∧ (c.supersede k).views = c.views ∧ (c.supersede k).halls = c.halls ∧
    (c.supersede k).maint = c.maint ∧ (c.supersede k).losses = c.losses ∧ (c.supersede k).twin = c.twin ∧
    (c.supersede k).alcove = c.alcove ∧ (c.supersede k).bal = c.bal ∧ (c.supersede k).out = c.out ∧
    (c.supersede k).freeCount = c.freeCount := by
  unfold Card.supersede
  (try dsimp only)
  (repeat' split) <;> simp

@[simp] theorem Card.ev_frame (c : Card) (n : Nat) (bs : List Byte) :
    (c.ev n bs).phase = c.phase ∧ (c.ev n bs).power = c.power ∧ (c.ev n bs).straps = c.straps ∧
    (c.ev n bs).treads = c.treads ∧ (c.ev n bs).link = c.link ∧ (c.ev n bs).ports = c.ports ∧
    (c.ev n bs).flights = c.flights ∧ (c.ev n bs).views = c.views ∧ (c.ev n bs).media = c.media ∧
    (c.ev n bs).halls = c.halls ∧ (c.ev n bs).maint = c.maint ∧ (c.ev n bs).losses = c.losses ∧
    (c.ev n bs).twin = c.twin ∧ (c.ev n bs).alcove = c.alcove ∧ (c.ev n bs).out = c.out ∧
    (c.ev n bs).freeCount = c.freeCount := by
  unfold Card.ev
  (try dsimp only)
  (repeat' split) <;> simp

@[simp] theorem Card.queueLoad_frame (c : Card) :
    (c.queueLoad).phase = c.phase ∧ (c.queueLoad).power = c.power ∧ (c.queueLoad).straps = c.straps ∧
    (c.queueLoad).treads = c.treads ∧ (c.queueLoad).link = c.link ∧ (c.queueLoad).ports = c.ports ∧
    (c.queueLoad).flights = c.flights ∧ (c.queueLoad).views = c.views ∧ (c.queueLoad).media = c.media ∧
    (c.queueLoad).halls = c.halls ∧ (c.queueLoad).maint = c.maint ∧ (c.queueLoad).losses = c.losses ∧
    (c.queueLoad).twin = c.twin ∧ (c.queueLoad).alcove = c.alcove ∧ (c.queueLoad).out = c.out ∧
    (c.queueLoad).freeCount = c.freeCount := by
  unfold Card.queueLoad
  (try dsimp only)
  (repeat' split) <;> simp

@[simp] theorem Card.respond_frame (c : Card) (p : Port) (kind : BitVec 2) (code : BitVec 6) (st : Status) (info : BitVec 24) (z : Bool) :
    (c.respond p kind code st info z).phase = c.phase ∧ (c.respond p kind code st info z).power = c.power ∧ (c.respond p kind code st info z).straps = c.straps ∧
    (c.respond p kind code st info z).treads = c.treads ∧ (c.respond p kind code st info z).link = c.link ∧ (c.respond p kind code st info z).flights = c.flights ∧
    (c.respond p kind code st info z).views = c.views ∧ (c.respond p kind code st info z).media = c.media ∧ (c.respond p kind code st info z).halls = c.halls ∧
    (c.respond p kind code st info z).maint = c.maint ∧ (c.respond p kind code st info z).losses = c.losses ∧ (c.respond p kind code st info z).twin = c.twin ∧
    (c.respond p kind code st info z).alcove = c.alcove ∧ (c.respond p kind code st info z).bal = c.bal ∧ (c.respond p kind code st info z).freeCount = c.freeCount := by
  unfold Card.respond
  (try dsimp only)
  (repeat' split) <;> simp

@[simp] theorem Card.traceFinal_frame (c : Card) (p : Port) (t : Tag) (st : Status) (info : BitVec 24) (z : Bool) :
    (c.traceFinal p t st info z).phase = c.phase ∧ (c.traceFinal p t st info z).power = c.power ∧ (c.traceFinal p t st info z).straps = c.straps ∧
    (c.traceFinal p t st info z).treads = c.treads ∧ (c.traceFinal p t st info z).link = c.link ∧ (c.traceFinal p t st info z).ports = c.ports ∧
    (c.traceFinal p t st info z).flights = c.flights ∧ (c.traceFinal p t st info z).views = c.views ∧ (c.traceFinal p t st info z).media = c.media ∧
    (c.traceFinal p t st info z).halls = c.halls ∧ (c.traceFinal p t st info z).maint = c.maint ∧ (c.traceFinal p t st info z).losses = c.losses ∧
    (c.traceFinal p t st info z).twin = c.twin ∧ (c.traceFinal p t st info z).alcove = c.alcove ∧ (c.traceFinal p t st info z).out = c.out ∧
    (c.traceFinal p t st info z).freeCount = c.freeCount := by
  unfold Card.traceFinal
  (try dsimp only)
  (repeat' split) <;> simp

@[simp] theorem Card.sendFinal_frame (c : Card) (p : Port) (t : Tag) (st : Status) (info : BitVec 24) (z : Bool) :
    (c.sendFinal p t st info z).phase = c.phase ∧ (c.sendFinal p t st info z).power = c.power ∧ (c.sendFinal p t st info z).straps = c.straps ∧
    (c.sendFinal p t st info z).treads = c.treads ∧ (c.sendFinal p t st info z).link = c.link ∧ (c.sendFinal p t st info z).flights = c.flights ∧
    (c.sendFinal p t st info z).views = c.views ∧ (c.sendFinal p t st info z).media = c.media ∧ (c.sendFinal p t st info z).halls = c.halls ∧
    (c.sendFinal p t st info z).maint = c.maint ∧ (c.sendFinal p t st info z).losses = c.losses ∧ (c.sendFinal p t st info z).twin = c.twin ∧
    (c.sendFinal p t st info z).alcove = c.alcove ∧ (c.sendFinal p t st info z).freeCount = c.freeCount := by
  unfold Card.sendFinal
  (try dsimp only)
  (repeat' split) <;> simp

@[simp] theorem Card.sendInterim_frame (c : Card) (p : Port) (t : Tag) (st : Status) (info : BitVec 24) :
    (c.sendInterim p t st info).phase = c.phase ∧ (c.sendInterim p t st info).power = c.power ∧ (c.sendInterim p t st info).straps = c.straps ∧
    (c.sendInterim p t st info).treads = c.treads ∧ (c.sendInterim p t st info).link = c.link ∧ (c.sendInterim p t st info).flights = c.flights ∧
    (c.sendInterim p t st info).views = c.views ∧ (c.sendInterim p t st info).media = c.media ∧ (c.sendInterim p t st info).halls = c.halls ∧
    (c.sendInterim p t st info).maint = c.maint ∧ (c.sendInterim p t st info).losses = c.losses ∧ (c.sendInterim p t st info).twin = c.twin ∧
    (c.sendInterim p t st info).alcove = c.alcove ∧ (c.sendInterim p t st info).bal = c.bal ∧ (c.sendInterim p t st info).freeCount = c.freeCount := by
  unfold Card.sendInterim
  (try dsimp only)
  (repeat' split) <;> simp

@[simp] theorem Card.setCmd_frame (c : Card) (t : Tag) (k : Cmd) :
    (c.setCmd t k).phase = c.phase ∧ (c.setCmd t k).power = c.power ∧ (c.setCmd t k).straps = c.straps ∧
    (c.setCmd t k).treads = c.treads ∧ (c.setCmd t k).link = c.link ∧ (c.setCmd t k).flights = c.flights ∧
    (c.setCmd t k).views = c.views ∧ (c.setCmd t k).media = c.media ∧ (c.setCmd t k).halls = c.halls ∧
    (c.setCmd t k).maint = c.maint ∧ (c.setCmd t k).losses = c.losses ∧ (c.setCmd t k).twin = c.twin ∧
    (c.setCmd t k).alcove = c.alcove ∧ (c.setCmd t k).bal = c.bal ∧ (c.setCmd t k).out = c.out ∧
    (c.setCmd t k).freeCount = c.freeCount := by
  unfold Card.setCmd
  (try dsimp only)
  (repeat' split) <;> simp

@[simp] theorem Card.interim_frame (c : Card) (t : Tag) (info : BitVec 24) :
    (c.interim t info).phase = c.phase ∧ (c.interim t info).power = c.power ∧ (c.interim t info).straps = c.straps ∧
    (c.interim t info).treads = c.treads ∧ (c.interim t info).link = c.link ∧ (c.interim t info).flights = c.flights ∧
    (c.interim t info).views = c.views ∧ (c.interim t info).media = c.media ∧ (c.interim t info).halls = c.halls ∧
    (c.interim t info).maint = c.maint ∧ (c.interim t info).losses = c.losses ∧ (c.interim t info).twin = c.twin ∧
    (c.interim t info).alcove = c.alcove ∧ (c.interim t info).bal = c.bal ∧ (c.interim t info).freeCount = c.freeCount := by
  unfold Card.interim
  (try dsimp only)
  (repeat' split) <;> simp

@[simp] theorem Card.notice_frame (c : Card) (code : BitVec 6) (info : BitVec 24) :
    (c.notice code info).phase = c.phase ∧ (c.notice code info).power = c.power ∧ (c.notice code info).straps = c.straps ∧
    (c.notice code info).treads = c.treads ∧ (c.notice code info).link = c.link ∧ (c.notice code info).flights = c.flights ∧
    (c.notice code info).views = c.views ∧ (c.notice code info).media = c.media ∧ (c.notice code info).halls = c.halls ∧
    (c.notice code info).maint = c.maint ∧ (c.notice code info).losses = c.losses ∧ (c.notice code info).twin = c.twin ∧
    (c.notice code info).alcove = c.alcove ∧ (c.notice code info).freeCount = c.freeCount := by
  unfold Card.notice
  (try dsimp only)
  (repeat' split) <;> simp

@[simp] theorem Card.enter_frame (c : Card) (p : Phase) :
    (c.enter p).power = c.power ∧ (c.enter p).straps = c.straps ∧ (c.enter p).treads = c.treads ∧
    (c.enter p).link = c.link ∧ (c.enter p).ports = c.ports ∧ (c.enter p).flights = c.flights ∧
    (c.enter p).views = c.views ∧ (c.enter p).media = c.media ∧ (c.enter p).halls = c.halls ∧
    (c.enter p).maint = c.maint ∧ (c.enter p).losses = c.losses ∧ (c.enter p).twin = c.twin ∧
    (c.enter p).alcove = c.alcove ∧ (c.enter p).out = c.out ∧ (c.enter p).freeCount = c.freeCount := by
  unfold Card.enter
  (try dsimp only)
  (repeat' split) <;> simp

@[simp] theorem Card.endHold_frame (c : Card) :
    c.endHold.phase = c.phase ∧ c.endHold.power = c.power ∧ c.endHold.straps = c.straps ∧
    c.endHold.treads = c.treads ∧ c.endHold.ports = c.ports ∧ c.endHold.flights = c.flights ∧
    c.endHold.views = c.views ∧ c.endHold.media = c.media ∧ c.endHold.halls = c.halls ∧
    c.endHold.maint = c.maint ∧ c.endHold.losses = c.losses ∧ c.endHold.twin = c.twin ∧
    c.endHold.alcove = c.alcove := by
  unfold Card.endHold
  dsimp only
  (repeat' split) <;> simp [Card.enterTraining]

@[simp] theorem Card.startHold_frame (c : Card) (hostTrains : Bool) :
    (c.startHold hostTrains).phase = c.phase ∧ (c.startHold hostTrains).power = c.power ∧ (c.startHold hostTrains).straps = c.straps ∧
    (c.startHold hostTrains).treads = c.treads ∧ (c.startHold hostTrains).ports = c.ports ∧ (c.startHold hostTrains).flights = c.flights ∧
    (c.startHold hostTrains).views = c.views ∧ (c.startHold hostTrains).media = c.media ∧ (c.startHold hostTrains).halls = c.halls ∧
    (c.startHold hostTrains).maint = c.maint ∧ (c.startHold hostTrains).losses = c.losses ∧ (c.startHold hostTrains).twin = c.twin ∧
    (c.startHold hostTrains).alcove = c.alcove ∧ (c.startHold hostTrains).freeCount = c.freeCount := by
  unfold Card.startHold
  (try dsimp only)
  (repeat' split) <;> simp

@[simp] theorem Card.enterTraining_frame (c : Card) (request : Bool) :
    (c.enterTraining request).phase = c.phase ∧ (c.enterTraining request).power = c.power ∧ (c.enterTraining request).straps = c.straps ∧
    (c.enterTraining request).treads = c.treads ∧ (c.enterTraining request).ports = c.ports ∧ (c.enterTraining request).flights = c.flights ∧
    (c.enterTraining request).views = c.views ∧ (c.enterTraining request).media = c.media ∧ (c.enterTraining request).halls = c.halls ∧
    (c.enterTraining request).maint = c.maint ∧ (c.enterTraining request).losses = c.losses ∧ (c.enterTraining request).twin = c.twin ∧
    (c.enterTraining request).alcove = c.alcove ∧ (c.enterTraining request).bal = c.bal ∧ (c.enterTraining request).freeCount = c.freeCount := by
  unfold Card.enterTraining
  (try dsimp only)
  (repeat' split) <;> simp

@[simp] theorem Card.badFrame_frame (c : Card) (p : Port) (tagBits : Tag) (cause byte0 : Byte) :
    (c.badFrame p tagBits cause byte0).phase = c.phase ∧ (c.badFrame p tagBits cause byte0).power = c.power ∧ (c.badFrame p tagBits cause byte0).straps = c.straps ∧
    (c.badFrame p tagBits cause byte0).treads = c.treads ∧ (c.badFrame p tagBits cause byte0).link = c.link ∧ (c.badFrame p tagBits cause byte0).flights = c.flights ∧
    (c.badFrame p tagBits cause byte0).views = c.views ∧ (c.badFrame p tagBits cause byte0).media = c.media ∧ (c.badFrame p tagBits cause byte0).halls = c.halls ∧
    (c.badFrame p tagBits cause byte0).maint = c.maint ∧ (c.badFrame p tagBits cause byte0).losses = c.losses ∧ (c.badFrame p tagBits cause byte0).twin = c.twin ∧
    (c.badFrame p tagBits cause byte0).alcove = c.alcove ∧ (c.badFrame p tagBits cause byte0).freeCount = c.freeCount := by
  unfold Card.badFrame
  (try dsimp only)
  (repeat' split) <;> simp

@[simp] theorem Card.answer_frame (c : Card) (op : Byte) (f : Frame) (st : Status) (info : BitVec 24) :
    (c.answer op f st info).phase = c.phase ∧ (c.answer op f st info).power = c.power ∧ (c.answer op f st info).straps = c.straps ∧
    (c.answer op f st info).treads = c.treads ∧ (c.answer op f st info).link = c.link ∧ (c.answer op f st info).flights = c.flights ∧
    (c.answer op f st info).views = c.views ∧ (c.answer op f st info).media = c.media ∧ (c.answer op f st info).halls = c.halls ∧
    (c.answer op f st info).maint = c.maint ∧ (c.answer op f st info).losses = c.losses ∧ (c.answer op f st info).twin = c.twin ∧
    (c.answer op f st info).alcove = c.alcove ∧ (c.answer op f st info).freeCount = c.freeCount := by
  unfold Card.answer
  (try dsimp only)
  (repeat' split) <;> simp

@[simp] theorem Card.countTaken_frame (c : Card) (p : Port) :
    (c.countTaken p).phase = c.phase ∧ (c.countTaken p).power = c.power ∧ (c.countTaken p).straps = c.straps ∧
    (c.countTaken p).treads = c.treads ∧ (c.countTaken p).link = c.link ∧ (c.countTaken p).ports = c.ports ∧
    (c.countTaken p).flights = c.flights ∧ (c.countTaken p).views = c.views ∧ (c.countTaken p).media = c.media ∧
    (c.countTaken p).halls = c.halls ∧ (c.countTaken p).maint = c.maint ∧ (c.countTaken p).losses = c.losses ∧
    (c.countTaken p).twin = c.twin ∧ (c.countTaken p).alcove = c.alcove ∧ (c.countTaken p).out = c.out ∧
    (c.countTaken p).freeCount = c.freeCount := by
  unfold Card.countTaken
  (try dsimp only)
  (repeat' split) <;> simp

@[simp] theorem Card.taken_frame (c : Card) (op : Byte) (f : Frame) (k : Cmd) :
    (c.taken op f k).phase = c.phase ∧ (c.taken op f k).power = c.power ∧ (c.taken op f k).straps = c.straps ∧
    (c.taken op f k).treads = c.treads ∧ (c.taken op f k).link = c.link ∧ (c.taken op f k).flights = c.flights ∧
    (c.taken op f k).views = c.views ∧ (c.taken op f k).media = c.media ∧ (c.taken op f k).halls = c.halls ∧
    (c.taken op f k).maint = c.maint ∧ (c.taken op f k).losses = c.losses ∧ (c.taken op f k).twin = c.twin ∧
    (c.taken op f k).alcove = c.alcove ∧ (c.taken op f k).out = c.out ∧ (c.taken op f k).freeCount = c.freeCount := by
  unfold Card.taken
  (try dsimp only)
  (repeat' split) <;> simp

@[simp] theorem Card.sendC2h_frame (c : Card) (t : Tag) (bytes : List Byte) :
    (c.sendC2h t bytes).phase = c.phase ∧ (c.sendC2h t bytes).power = c.power ∧ (c.sendC2h t bytes).straps = c.straps ∧
    (c.sendC2h t bytes).treads = c.treads ∧ (c.sendC2h t bytes).link = c.link ∧ (c.sendC2h t bytes).ports = c.ports ∧
    (c.sendC2h t bytes).flights = c.flights ∧ (c.sendC2h t bytes).views = c.views ∧ (c.sendC2h t bytes).media = c.media ∧
    (c.sendC2h t bytes).halls = c.halls ∧ (c.sendC2h t bytes).maint = c.maint ∧ (c.sendC2h t bytes).losses = c.losses ∧
    (c.sendC2h t bytes).twin = c.twin ∧ (c.sendC2h t bytes).alcove = c.alcove ∧ (c.sendC2h t bytes).bal = c.bal := by
  unfold Card.sendC2h
  (try dsimp only)
  (repeat' split) <;> simp

@[simp] theorem Card.clearPages_frame (c : Card) (p : Nat → Bool) :
    (c.clearPages p).phase = c.phase ∧ (c.clearPages p).power = c.power ∧ (c.clearPages p).straps = c.straps ∧
    (c.clearPages p).treads = c.treads ∧ (c.clearPages p).link = c.link ∧ (c.clearPages p).ports = c.ports ∧
    (c.clearPages p).flights = c.flights ∧ (c.clearPages p).views = c.views ∧ (c.clearPages p).halls = c.halls ∧
    (c.clearPages p).maint = c.maint ∧ (c.clearPages p).twin = c.twin ∧ (c.clearPages p).alcove = c.alcove ∧
    (c.clearPages p).bal = c.bal ∧ (c.clearPages p).out = c.out ∧ (c.clearPages p).freeCount = c.freeCount := by
  simp [Card.clearPages]


@[simp] theorem Card.eraseHall_frame (c : Card) (w h : Nat) :
    (c.eraseHall w h).phase = c.phase ∧ (c.eraseHall w h).power = c.power ∧ (c.eraseHall w h).straps = c.straps ∧
    (c.eraseHall w h).treads = c.treads ∧ (c.eraseHall w h).link = c.link ∧ (c.eraseHall w h).ports = c.ports ∧
    (c.eraseHall w h).flights = c.flights ∧ (c.eraseHall w h).views = c.views ∧ (c.eraseHall w h).halls = c.halls ∧
    (c.eraseHall w h).maint = c.maint ∧ (c.eraseHall w h).twin = c.twin ∧ (c.eraseHall w h).alcove = c.alcove ∧
    (c.eraseHall w h).bal = c.bal ∧ (c.eraseHall w h).out = c.out ∧ (c.eraseHall w h).freeCount = c.freeCount := by
  unfold Card.eraseHall
  (try dsimp only)
  (repeat' split) <;> simp


@[simp] theorem Card.freeDie_frame (c : Card) (n : Nat) :
    (c.freeDie n).phase = c.phase ∧ (c.freeDie n).power = c.power ∧ (c.freeDie n).straps = c.straps ∧
    (c.freeDie n).treads = c.treads ∧ (c.freeDie n).link = c.link ∧ (c.freeDie n).ports = c.ports ∧
    (c.freeDie n).flights = c.flights ∧ (c.freeDie n).views = c.views ∧ (c.freeDie n).media = c.media ∧
    (c.freeDie n).maint = c.maint ∧ (c.freeDie n).losses = c.losses ∧ (c.freeDie n).twin = c.twin ∧
    (c.freeDie n).alcove = c.alcove ∧ (c.freeDie n).bal = c.bal ∧ (c.freeDie n).out = c.out ∧
    (c.freeDie n).freeCount = c.freeCount := by
  unfold Card.freeDie
  (try dsimp only)
  (repeat' split) <;> simp

@[simp] theorem Card.countDesc_frame (c : Card) (d : Desc) :
    (c.countDesc d).phase = c.phase ∧ (c.countDesc d).power = c.power ∧ (c.countDesc d).straps = c.straps ∧
    (c.countDesc d).treads = c.treads ∧ (c.countDesc d).link = c.link ∧ (c.countDesc d).ports = c.ports ∧
    (c.countDesc d).flights = c.flights ∧ (c.countDesc d).views = c.views ∧ (c.countDesc d).media = c.media ∧
    (c.countDesc d).halls = c.halls ∧ (c.countDesc d).maint = c.maint ∧ (c.countDesc d).losses = c.losses ∧
    (c.countDesc d).twin = c.twin ∧ (c.countDesc d).alcove = c.alcove ∧ (c.countDesc d).out = c.out ∧
    (c.countDesc d).freeCount = c.freeCount := by
  unfold Card.countDesc
  (try dsimp only)
  (repeat' split) <;> simp

/-- A fold whose every step leaves something as it was leaves it as it was. -/
theorem foldl_same {α β γ : Type} (g : α → γ) (f : α → β → α) (h : ∀ a b, g (f a b) = g a) (l : List β) (a : α) :
    g (l.foldl f a) = g a := by
  induction l generalizing a with
  | nil => rfl
  | cons b r ih => rw [List.foldl_cons, ih, h]

@[simp] theorem Card.traceCode_frame (c : Card) (n kind : Nat) (code : DescCode) (blk page : Nat) :
    (c.traceCode n kind code blk page).phase = c.phase ∧ (c.traceCode n kind code blk page).power = c.power ∧
    (c.traceCode n kind code blk page).straps = c.straps ∧ (c.traceCode n kind code blk page).treads = c.treads ∧
    (c.traceCode n kind code blk page).link = c.link ∧ (c.traceCode n kind code blk page).ports = c.ports ∧
    (c.traceCode n kind code blk page).flights = c.flights ∧ (c.traceCode n kind code blk page).views = c.views ∧
    (c.traceCode n kind code blk page).media = c.media ∧ (c.traceCode n kind code blk page).halls = c.halls ∧
    (c.traceCode n kind code blk page).maint = c.maint ∧ (c.traceCode n kind code blk page).losses = c.losses ∧
    (c.traceCode n kind code blk page).twin = c.twin ∧ (c.traceCode n kind code blk page).alcove = c.alcove ∧
    (c.traceCode n kind code blk page).out = c.out ∧ (c.traceCode n kind code blk page).freeCount = c.freeCount := by
  unfold Card.traceCode
  (try dsimp only)
  (repeat' split) <;> simp


@[simp] theorem Card.complete_frame (c : Card) (d : Desc) (code : DescCode) :
    (c.complete d code).phase = c.phase ∧ (c.complete d code).power = c.power ∧
    (c.complete d code).straps = c.straps ∧ (c.complete d code).treads = c.treads ∧
    (c.complete d code).link = c.link ∧ (c.complete d code).ports = c.ports ∧
    (c.complete d code).flights = c.flights ∧ (c.complete d code).views = c.views ∧
    (c.complete d code).media = c.media ∧ (c.complete d code).halls = c.halls ∧ (c.complete d code).maint = c.maint ∧
    (c.complete d code).losses = c.losses ∧ (c.complete d code).twin = c.twin ∧
    (c.complete d code).alcove = c.alcove ∧ (c.complete d code).out = c.out ∧
    (c.complete d code).freeCount = c.freeCount := by
  simp [Card.complete]


/-- Descriptors dropped leave all but the queues and what the balcony is told alone. -/
@[simp] theorem Card.keepDescs_frame (c : Card) (p : Desc → Bool) :
    (c.keepDescs p).phase = c.phase ∧ (c.keepDescs p).power = c.power ∧ (c.keepDescs p).straps = c.straps ∧
    (c.keepDescs p).treads = c.treads ∧ (c.keepDescs p).link = c.link ∧ (c.keepDescs p).ports = c.ports ∧
    (c.keepDescs p).flights = c.flights ∧ (c.keepDescs p).views = c.views ∧ (c.keepDescs p).media = c.media ∧
    (c.keepDescs p).maint = c.maint ∧ (c.keepDescs p).losses = c.losses ∧ (c.keepDescs p).twin = c.twin ∧
    (c.keepDescs p).alcove = c.alcove ∧ (c.keepDescs p).out = c.out ∧ (c.keepDescs p).freeCount = c.freeCount := by
  have h := foldl_same (fun c : Card => (c.phase, c.power, c.straps, c.treads, c.link, c.ports, c.flights, c.views, c.media, c.maint, c.losses, c.twin, c.alcove, c.out, c.freeCount))
    (fun c d => c.complete d .aborted) (by intros; simp)
  simp only [Prod.mk.injEq] at h
  exact h _ _


@[simp] theorem Card.keepJobs_frame (c : Card) (p : Nat × ReadJob → Bool) :
    (c.keepJobs p).phase = c.phase ∧ (c.keepJobs p).power = c.power ∧ (c.keepJobs p).straps = c.straps ∧
    (c.keepJobs p).treads = c.treads ∧ (c.keepJobs p).link = c.link ∧ (c.keepJobs p).ports = c.ports ∧
    (c.keepJobs p).flights = c.flights ∧ (c.keepJobs p).views = c.views ∧ (c.keepJobs p).media = c.media ∧
    (c.keepJobs p).maint = c.maint ∧ (c.keepJobs p).losses = c.losses ∧ (c.keepJobs p).twin = c.twin ∧
    (c.keepJobs p).alcove = c.alcove ∧ (c.keepJobs p).out = c.out ∧ (c.keepJobs p).freeCount = c.freeCount := by
  simp [Card.keepJobs]


@[simp] theorem Card.endMoves_frame (c : Card) (p : MoveWhy → Bool) :
    (c.endMoves p).phase = c.phase ∧ (c.endMoves p).power = c.power ∧ (c.endMoves p).straps = c.straps ∧
    (c.endMoves p).treads = c.treads ∧ (c.endMoves p).link = c.link ∧ (c.endMoves p).ports = c.ports ∧
    (c.endMoves p).flights = c.flights ∧ (c.endMoves p).views = c.views ∧ (c.endMoves p).media = c.media ∧
    (c.endMoves p).maint = c.maint ∧ (c.endMoves p).losses = c.losses ∧ (c.endMoves p).twin = c.twin ∧
    (c.endMoves p).alcove = c.alcove ∧ (c.endMoves p).out = c.out ∧ (c.endMoves p).freeCount = c.freeCount := by
  simp [Card.endMoves]


@[simp] theorem Card.untake_frame (c : Card) (k : Nat) :
    (c.untake k).phase = c.phase ∧ (c.untake k).power = c.power ∧ (c.untake k).straps = c.straps ∧
    (c.untake k).treads = c.treads ∧ (c.untake k).link = c.link ∧ (c.untake k).ports = c.ports ∧
    (c.untake k).flights = c.flights ∧ (c.untake k).views = c.views ∧ (c.untake k).maint = c.maint ∧
    (c.untake k).losses = c.losses ∧ (c.untake k).twin = c.twin ∧ (c.untake k).alcove = c.alcove ∧
    (c.untake k).out = c.out ∧ (c.untake k).freeCount = c.freeCount := by
  simp [Card.untake]


@[simp] theorem Card.sweep_frame (c : Card) :
    (c.sweep).phase = c.phase ∧ (c.sweep).power = c.power ∧ (c.sweep).straps = c.straps ∧
    (c.sweep).treads = c.treads ∧ (c.sweep).link = c.link ∧ (c.sweep).ports = c.ports ∧
    (c.sweep).flights = c.flights ∧ (c.sweep).views = c.views ∧ (c.sweep).maint = c.maint ∧
    (c.sweep).losses = c.losses ∧ (c.sweep).twin = c.twin ∧ (c.sweep).alcove = c.alcove ∧ (c.sweep).out = c.out ∧
    (c.sweep).freeCount = c.freeCount := by
  have h := foldl_same (fun c : Card => (c.phase, c.power, c.straps, c.treads, c.link, c.ports, c.flights, c.views, c.maint, c.losses, c.twin, c.alcove, c.out, c.freeCount))
    (fun (c : Card) (x : Nat × Bay) => c.untake x.1) (by intros; simp)
  simp only [Prod.mk.injEq] at h
  exact h _ _


@[simp] theorem Card.newPass_frame (c : Card) :
    (c.newPass).phase = c.phase ∧ (c.newPass).power = c.power ∧ (c.newPass).straps = c.straps ∧
    (c.newPass).treads = c.treads ∧ (c.newPass).link = c.link ∧ (c.newPass).ports = c.ports ∧
    (c.newPass).flights = c.flights ∧ (c.newPass).views = c.views ∧ (c.newPass).halls = c.halls ∧
    (c.newPass).losses = c.losses ∧ (c.newPass).twin = c.twin ∧ (c.newPass).alcove = c.alcove ∧
    (c.newPass).out = c.out ∧ (c.newPass).freeCount = c.freeCount := by
  simp [Card.newPass]


@[simp] theorem Card.passOver_frame (c : Card) :
    (c.passOver).phase = c.phase ∧ (c.passOver).power = c.power ∧ (c.passOver).straps = c.straps ∧
    (c.passOver).treads = c.treads ∧ (c.passOver).link = c.link ∧ (c.passOver).ports = c.ports ∧
    (c.passOver).flights = c.flights ∧ (c.passOver).views = c.views ∧ (c.passOver).halls = c.halls ∧
    (c.passOver).losses = c.losses ∧ (c.passOver).twin = c.twin ∧ (c.passOver).alcove = c.alcove ∧
    (c.passOver).out = c.out ∧ (c.passOver).freeCount = c.freeCount := by
  simp [Card.passOver]


@[simp] theorem Card.awaitErase_frame (c : Card) (w : Nat) :
    (c.awaitErase w).phase = c.phase ∧ (c.awaitErase w).power = c.power ∧ (c.awaitErase w).straps = c.straps ∧
    (c.awaitErase w).treads = c.treads ∧ (c.awaitErase w).link = c.link ∧ (c.awaitErase w).ports = c.ports ∧
    (c.awaitErase w).flights = c.flights ∧ (c.awaitErase w).views = c.views ∧ (c.awaitErase w).halls = c.halls ∧
    (c.awaitErase w).losses = c.losses ∧ (c.awaitErase w).twin = c.twin ∧ (c.awaitErase w).alcove = c.alcove ∧
    (c.awaitErase w).out = c.out ∧ (c.awaitErase w).freeCount = c.freeCount := by
  unfold Card.awaitErase
  dsimp only
  split <;> simp


/-- A card that differs in no command's work gives the same answer for a tag. -/
theorem Card.cmdOf_of_tags {c d : Card} (h : d.ports.tags = c.ports.tags) (t : Tag) : d.cmdOf t = c.cmdOf t := by
  simp only [Card.cmdOf, Card.tagEntry, h]

/-- Inline erases that end leave a tag with no command outstanding as it is. -/
theorem Card.inlineErased_tagEntry (c : Card) (w : Nat) (o : EraseOwner) (t : Tag) (h : c.cmdOf t = none) :
    (c.inlineErased w o).tagEntry t = c.tagEntry t := by
  unfold Card.inlineErased
  split
  · next u =>
    split
    · next k hk =>
      unfold Card.setCmd
      (repeat' split) <;> try rfl
      refine Card.putTag_tagEntry_other _ _ ?_
      rintro rfl
      rw [h] at hk
      cases hk
    · rfl
  · rfl

/-- So does an erase that is cut short. -/
theorem Card.cutErase_tagEntry (c : Card) (w : Nat) (hs : List Nat) (t : Tag) (h : c.cmdOf t = none) :
    (c.cutErase w hs).tagEntry t = c.tagEntry t := by
  unfold Card.cutErase
  split
  · rfl
  · dsimp only
    have e := fun d => foldl_same (fun c : Card => c.ports) (fun (c : Card) h =>
      (c.setDie (dieNo h (dieRow w)) { c.die (dieNo h (dieRow w)) with erase := none }).complete (.erase w h) .aborted)
      (by intros; simp) (hs.filter (fun h => d.holdsErase (dieNo h (dieRow w)) w)) d
    split
    · rw [Card.inlineErased_tagEntry _ _ _ _ (by rw [← h]; exact Card.cmdOf_of_tags (by simp [e]) t)]
      simp [Card.tagEntry, e]
    · simp [Card.tagEntry, e]

/-- So do several. -/
theorem Card.cutErases_tagEntry (g : Card → Nat → WingErase → List Nat) (l : List (Nat × WingErase)) (c : Card) (t : Tag)
    (h : c.cmdOf t = none) : (l.foldl (fun c x => c.cutErase x.1 (g c x.1 x.2)) c).tagEntry t = c.tagEntry t := by
  induction l generalizing c with
  | nil => rfl
  | cons a r ih =>
    have e := Card.cutErase_tagEntry c a.1 (g c a.1 a.2) t h
    rw [List.foldl_cons, ih, e]
    simp only [Card.cmdOf, e] at h ⊢
    exact h

/-- So do those whose transaction has ended. -/
theorem Card.endErases_tagEntry (c : Card) (o : EraseOwner) (t : Tag) (h : c.cmdOf t = none) :
    (c.endErases o).tagEntry t = c.tagEntry t := by
  unfold Card.endErases
  exact Card.cutErases_tagEntry (fun c w e => c.unbegun w e) _ _ t h

/-- Dropping the work of commands leaves a tag with no command outstanding as it is. -/
theorem Card.dropWork_tagEntry (c : Card) (t u : Tag) (h : c.cmdOf u = none) :
    (c.dropWork t).tagEntry u = c.tagEntry u := by
  have e (d : Card) : (d.sweep).tagEntry u = d.tagEntry u := by simp [Card.tagEntry]
  unfold Card.dropWork
  rw [e, Card.endErases_tagEntry _ _ _ (by rw [← h]; exact Card.cmdOf_of_tags (by simp) u)]
  simp [Card.tagEntry]

@[simp] theorem Card.inlineErased_frame (c : Card) (w : Nat) (o : EraseOwner) :
    (c.inlineErased w o).phase = c.phase ∧ (c.inlineErased w o).power = c.power ∧
    (c.inlineErased w o).straps = c.straps ∧ (c.inlineErased w o).treads = c.treads ∧
    (c.inlineErased w o).link = c.link ∧ (c.inlineErased w o).flights = c.flights ∧
    (c.inlineErased w o).views = c.views ∧ (c.inlineErased w o).media = c.media ∧
    (c.inlineErased w o).halls = c.halls ∧ (c.inlineErased w o).maint = c.maint ∧
    (c.inlineErased w o).losses = c.losses ∧ (c.inlineErased w o).twin = c.twin ∧
    (c.inlineErased w o).alcove = c.alcove ∧ (c.inlineErased w o).bal = c.bal ∧ (c.inlineErased w o).out = c.out ∧
    (c.inlineErased w o).freeCount = c.freeCount := by
  unfold Card.inlineErased
  (try dsimp only)
  (repeat' split) <;> simp


/-- An erase cut short leaves all but the media, the dies, the patrol pass and the work of commands alone. -/
@[simp] theorem Card.cutErase_frame (c : Card) (w : Nat) (hs : List Nat) :
    (c.cutErase w hs).phase = c.phase ∧ (c.cutErase w hs).power = c.power ∧ (c.cutErase w hs).straps = c.straps ∧
    (c.cutErase w hs).treads = c.treads ∧ (c.cutErase w hs).link = c.link ∧ (c.cutErase w hs).flights = c.flights ∧
    (c.cutErase w hs).views = c.views ∧ (c.cutErase w hs).losses = c.losses ∧ (c.cutErase w hs).twin = c.twin ∧
    (c.cutErase w hs).alcove = c.alcove ∧ (c.cutErase w hs).out = c.out ∧
    (c.cutErase w hs).freeCount = c.freeCount := by
  have e := fun d => foldl_same (fun c : Card => (c.phase, c.power, c.straps, c.treads, c.link, c.flights, c.views, c.losses, c.twin, c.alcove, c.out, c.freeCount)) (fun (c : Card) h =>
      (c.setDie (dieNo h (dieRow w)) { c.die (dieNo h (dieRow w)) with erase := none }).complete (.erase w h) .aborted)
      (by intros; simp) (hs.filter (fun h => d.holdsErase (dieNo h (dieRow w)) w)) d
  simp only [Prod.mk.injEq] at e
  unfold Card.cutErase
  dsimp only
  (repeat' split) <;> simp [e]


@[simp] theorem Card.endErases_frame (c : Card) (o : EraseOwner) :
    (c.endErases o).phase = c.phase ∧ (c.endErases o).power = c.power ∧ (c.endErases o).straps = c.straps ∧
    (c.endErases o).treads = c.treads ∧ (c.endErases o).link = c.link ∧ (c.endErases o).flights = c.flights ∧
    (c.endErases o).views = c.views ∧ (c.endErases o).losses = c.losses ∧ (c.endErases o).twin = c.twin ∧
    (c.endErases o).alcove = c.alcove ∧ (c.endErases o).out = c.out ∧ (c.endErases o).freeCount = c.freeCount := by
  have h := foldl_same (fun c : Card => (c.phase, c.power, c.straps, c.treads, c.link, c.flights, c.views, c.losses, c.twin, c.alcove, c.out, c.freeCount))
    (fun (c : Card) (x : Nat × WingErase) => c.cutErase x.1 (c.unbegun x.1 x.2)) (by intros; simp)
  simp only [Prod.mk.injEq] at h
  exact h _ _


/-- So does dropping a command's work. -/
@[simp] theorem Card.dropWork_frame (c : Card) (t : Tag) :
    (c.dropWork t).phase = c.phase ∧ (c.dropWork t).power = c.power ∧ (c.dropWork t).straps = c.straps ∧
    (c.dropWork t).treads = c.treads ∧ (c.dropWork t).link = c.link ∧ (c.dropWork t).flights = c.flights ∧
    (c.dropWork t).views = c.views ∧ (c.dropWork t).losses = c.losses ∧ (c.dropWork t).twin = c.twin ∧
    (c.dropWork t).alcove = c.alcove ∧ (c.dropWork t).out = c.out ∧ (c.dropWork t).freeCount = c.freeCount := by
  simp [Card.dropWork]


@[simp] theorem Card.finish_frame (c : Card) (t : Tag) (st : Status) (info : BitVec 24) (z : Bool) :
    (c.finish t st info z).phase = c.phase ∧ (c.finish t st info z).power = c.power ∧ (c.finish t st info z).straps = c.straps ∧
    (c.finish t st info z).treads = c.treads ∧ (c.finish t st info z).link = c.link ∧ (c.finish t st info z).flights = c.flights ∧
    (c.finish t st info z).views = c.views ∧ (c.finish t st info z).losses = c.losses ∧ (c.finish t st info z).twin = c.twin ∧
    (c.finish t st info z).alcove = c.alcove ∧ (c.finish t st info z).freeCount = c.freeCount := by
  unfold Card.finish
  (try dsimp only)
  (repeat' split) <;> simp

/-- Entering a state ends in it. -/
@[simp] theorem Card.enter_phase (c : Card) (p : Phase) : (c.enter p).phase = p := by
  unfold Card.enter
  split
  · assumption
  · simp

/-- LND is low in MOUNTED while a LAND is held or a landing is in progress, and high otherwise; with HCLK absent it stays as
it was. -/
theorem Card.driveLnd_lnd (c : Card) : c.driveLnd.power.lnd = if c.power.hclk then
    (c.phase == .mounted && ((match c.flights.held with | some h => !h.rollback | none => false) ||
      c.flights.acts.any (fun a => !a.rollback))) else c.power.lnd := by
  unfold Card.driveLnd
  cases c.power.hclk <;> rfl

@[simp] theorem Card.respond_tags (c : Card) (p : Port) (kind : BitVec 2) (code : BitVec 6) (st : Status)
    (info : BitVec 24) (z : Bool) : (c.respond p kind code st info z).ports.tags = c.ports.tags := by
  unfold Card.respond
  split
  · cases p <;> rfl
  · rfl

@[simp] theorem Card.respond_alignedCi (c : Card) (p : Port) (kind : BitVec 2) (code : BitVec 6) (st : Status)
    (info : BitVec 24) (z : Bool) : (c.respond p kind code st info z).ports.alignedCi = c.ports.alignedCi := by
  unfold Card.respond
  split
  · cases p <;> rfl
  · rfl

@[simp] theorem Card.respond_alignedDci (c : Card) (p : Port) (kind : BitVec 2) (code : BitVec 6) (st : Status)
    (info : BitVec 24) (z : Bool) : (c.respond p kind code st info z).ports.alignedDci = c.ports.alignedDci := by
  unfold Card.respond
  split
  · cases p <;> rfl
  · rfl

@[simp] theorem Card.respond_order (c : Card) (p : Port) (kind : BitVec 2) (code : BitVec 6) (st : Status)
    (info : BitVec 24) (z : Bool) : (c.respond p kind code st info z).ports.order = c.ports.order := by
  unfold Card.respond
  split
  · cases p <;> rfl
  · rfl

@[simp] theorem Card.sendFinal_tags (c : Card) (p : Port) (t : Tag) (st : Status) (info : BitVec 24) (z : Bool) :
    (c.sendFinal p t st info z).ports.tags = c.ports.tags := by
  simp [Card.sendFinal]

@[simp] theorem Card.sendInterim_tags (c : Card) (p : Port) (t : Tag) (st : Status) (info : BitVec 24) :
    (c.sendInterim p t st info).ports.tags = c.ports.tags := by
  simp [Card.sendInterim]

@[simp] theorem Card.notice_tags (c : Card) (code : BitVec 6) (info : BitVec 24) :
    (c.notice code info).ports.tags = c.ports.tags := by
  simp [Card.notice]

/-- A response on a port that is there is the newest thing sent. -/
theorem Card.respond_out (c : Card) (p : Port) (kind : BitVec 2) (code : BitVec 6) (st : Status) (info : BitVec 24)
    (z : Bool) (h : c.portUp p = true) : (c.respond p kind code st info z).out =
      .resp p { kind := kind, code := code, status := st, flags := c.flags z, info := info,
                seq := match p with | .ci => c.ports.seqCo | .dci => c.ports.seqDco } :: c.out := by
  unfold Card.respond
  rw [if_pos h]
  cases p <;> rfl

/-- A command that ends has its status and info stored. -/
theorem Card.finish_tagEntry (c : Card) (t : Tag) (st : Status) (info : BitVec 24) (z : Bool) {e : TagEntry} {k : Cmd}
    (h : c.tagEntry t = some e) (hk : e.state = .outstanding k) :
    (c.finish t st info z).tagEntry t = some { e with state := .completed st info } := by
  unfold Card.finish
  simp only [h, hk]
  rw [Card.dropWork_tagEntry _ _ _ (by simp [Card.cmdOf]), Card.putTag_tagEntry]

/-- A command that ends leaves every other tag with no command outstanding alone. -/
theorem Card.finish_tagEntry_other (c : Card) {t u : Tag} (st : Status) (info : BitVec 24) (z : Bool) (h : u ≠ t)
    (hu : c.cmdOf u = none) : (c.finish t st info z).tagEntry u = c.tagEntry u := by
  have go : ∀ e : TagEntry, ((c.sendFinal e.port t st info z).putTag t { e with state := .completed st info }).tagEntry u =
      c.tagEntry u := by
    intro e
    rw [Card.putTag_tagEntry_other _ _ h]
    simp [Card.tagEntry]
  unfold Card.finish
  split
  · next e _ =>
    split
    · rw [Card.dropWork_tagEntry _ _ _ (by
        have g := go e
        simp only [Card.cmdOf, g] at hu ⊢
        exact hu), go]
    · rfl
  · rfl

/-- The work of an outstanding command is what was set. -/
theorem Card.setCmd_cmdOf (c : Card) (t : Tag) (k : Cmd) {j : Cmd} (h : c.cmdOf t = some j) :
    (c.setCmd t k).cmdOf t = some k := by
  cases he : c.tagEntry t with
  | none => simp [Card.cmdOf, he] at h
  | some e =>
    cases hs : e.state with
    | completed a b => simp [Card.cmdOf, he, hs] at h
    | outstanding x => simp [Card.setCmd, Card.cmdOf, he, hs]

/-- A tag just taken is outstanding with the work it starts with. -/
@[simp] theorem Card.taken_tagEntry (c : Card) (op : Byte) (f : Frame) (k : Cmd) :
    (c.taken op f k).tagEntry f.tag = some (entryOf op f (.outstanding k)) := by
  simp [Card.taken, Card.tagEntry, Card.putTag]

@[simp] theorem Card.taken_cmdOf (c : Card) (op : Byte) (f : Frame) (k : Cmd) :
    (c.taken op f k).cmdOf f.tag = some k := by
  simp [Card.cmdOf, entryOf]

/-- What a die has ended is taken at once with HCLK, and held on the die without it (R15, R24). -/
theorem Card.dieReport_hclk (c : Card) (n : Nat) (x : DieReport) (f : Card → Card) (h : c.power.hclk = true) :
    c.dieReport n x f = f c := by
  simp [Card.dieReport, h]

end Sys2Proof.Machine
end

