-- ==== Sys2Proof/Laws/Inv.lean ====
section
/-! SUPPORT. What the invariant's part of the card becomes in the operations that may change it: the fields each leaves alone
(`_keeps`), and the invariant kept (`_ok`). -/

namespace Sys2Proof.Machine

open Sys2Proof

theorem Keep.foldl_ok {α : Type} (f : Card → α → Card) (h : ∀ c x, c.keep.ok → (f c x).keep.ok) (l : List α) (c : Card)
    (hk : c.keep.ok) : (l.foldl f c).keep.ok := by
  induction l generalizing c with
  | nil => exact hk
  | cons a r ih => exact ih _ (h _ _ hk)

theorem Keep.foldl_of {α β : Type} (g : Keep → β) (f : Card → α → Card) (h : ∀ c x, g (f c x).keep = g c.keep)
    (l : List α) (c : Card) : g (l.foldl f c).keep = g c.keep := by
  induction l generalizing c with
  | nil => rfl
  | cons a r ih => exact (ih _).trans (h _ _)

/-- A card that agrees with one of the invariant on the fields the invariant speaks of has it too. -/
theorem Keep.ok_of (c d : Card) (hk : c.keep.ok)
    (h : d.keep.phase = c.keep.phase ∧ d.keep.bytes = c.keep.bytes ∧ d.keep.place = c.keep.place ∧
      d.keep.lanes = c.keep.lanes ∧ d.keep.marks = c.keep.marks ∧ d.keep.held = c.keep.held ∧
      d.keep.running = c.keep.running) : d.keep.ok := by
  obtain ⟨h1, h2, h3, h4, h5, h6, h7⟩ := h
  unfold Keep.ok at hk ⊢
  rw [h1, h2, h3, h4, h5, h6, h7]
  exact hk

/-- One with nothing scheduled need agree on three of them alone. -/
theorem Keep.ok_empty (c d : Card) (hk : c.keep.ok)
    (h : d.keep.bytes = c.keep.bytes ∧ d.keep.place = c.keep.place ∧ d.keep.lanes = c.keep.lanes)
    (he : d.keep.marks = [] ∧ d.keep.held = [] ∧ d.keep.running = []) : d.keep.ok := by
  obtain ⟨h1, h2, h3⟩ := h
  obtain ⟨e1, e2, e3⟩ := he
  obtain ⟨k1, k2, k3, k4, -, -, -⟩ := hk
  refine ⟨?_, ?_, ?_, ?_, ?_, ?_, fun _ => ⟨e1, e2, e3⟩⟩
  · rw [h1]; exact k1
  · rw [h1]; exact k2
  · rw [h2]; exact k3
  · rw [h3]; exact k4
  · rw [e1]; simp
  · rw [e2, e3]; simp

/-- A card that enters a state is as before but for the state. -/
theorem Card.enter_eq (c : Card) (p : Phase) : (c.enter p).keep = { c.keep with phase := p } := by
  unfold Card.enter
  split
  · next h => rw [← h]; rfl
  · simp [Keep.parts]

@[simp] theorem Card.enter_keeps (c : Card) (p : Phase) :
    (c.enter p).keep.phase = p ∧ (c.enter p).keep.bytes = c.keep.bytes ∧ (c.enter p).keep.cells = c.keep.cells ∧
    (c.enter p).keep.place = c.keep.place ∧ (c.enter p).keep.lanes = c.keep.lanes ∧
    (c.enter p).keep.tread = c.keep.tread ∧ (c.enter p).keep.hclk = c.keep.hclk ∧
    (c.enter p).keep.dock = c.keep.dock ∧ (c.enter p).keep.role = c.keep.role ∧
    (c.enter p).keep.inUse = c.keep.inUse ∧ (c.enter p).keep.marks = c.keep.marks ∧
    (c.enter p).keep.held = c.keep.held ∧ (c.enter p).keep.running = c.keep.running := by
  simp [Card.enter_eq]

/-- Entering MOUNTED keeps the invariant. -/
@[simp] theorem Card.enter_mounted_ok (c : Card) (hk : c.keep.ok) : (c.enter .mounted).keep.ok := by
  rw [Card.enter_eq]
  obtain ⟨h1, h2, h3, h4, h5, h6, h7⟩ := hk
  exact ⟨h1, h2, h3, h4, h5, h6, fun h => absurd rfl h⟩

/-- So does entering another state with nothing scheduled. -/
theorem Card.enter_empty_ok (c : Card) (p : Phase) (hk : c.keep.ok)
    (h : c.keep.marks = [] ∧ c.keep.held = [] ∧ c.keep.running = []) : (c.enter p).keep.ok :=
  Keep.ok_empty c _ hk (by simp) (by simpa using h)

/-- So does entering a state from another one than MOUNTED. -/
theorem Card.enter_ok (c : Card) (p : Phase) (hk : c.keep.ok) (hn : c.phase ≠ .mounted) : (c.enter p).keep.ok :=
  Card.enter_empty_ok c p hk (hk.2.2.2.2.2.2 hn)

@[simp] theorem Card.begin_ok (c : Card) (op : Byte) (f : Frame) (k : Cmd) (body : Card → Card) (hk : c.keep.ok)
    (hs : c.step7 op f = none) (hb : ∀ d : Card, d.keep.ok → d.step7 op f = none → (body d).keep.ok) :
    (c.begin op f k body).keep.ok := by
  unfold Card.begin
  dsimp only
  split
  · exact hb _ (by simpa using hk) (by simpa [Card.step7] using hs)
  · simpa using hk

/-- What a command's body leaves alone of the invariant's part, taking the command leaves alone too. -/
theorem Card.begin_of {β : Type} (g : Keep → β) (c : Card) (op : Byte) (f : Frame) (k : Cmd) (body : Card → Card)
    (hb : ∀ d : Card, g (body d).keep = g d.keep) : g (c.begin op f k body).keep = g c.keep := by
  unfold Card.begin
  dsimp only
  split <;> simp [hb]

/-- A state that serves MOUNT is not MOUNTED (R142). -/
theorem Card.step7_mount (c : Card) (f : Frame) (h : c.step7 opMount f = none) : c.phase ≠ .mounted := by
  intro e
  simp only [Card.step7] at h
  split at h
  · cases h
  · split at h
    · split at h
      · next hh => exact absurd hh.1 (by decide)
      · cases h
    · rw [e] at h
      revert h
      simp [stateAnswer]

/-- A state that serves SERVICE or QUIET is MOUNTED (R142). -/
theorem Card.step7_window (c : Card) (f : Frame) (op : Byte) (ho : op = opService ∨ op = opQuiet)
    (h : c.step7 op f = none) : c.phase = .mounted := by
  have hi : op ≠ opInquire := by rcases ho with e | e <;> subst e <;> decide
  simp only [Card.step7, hi, false_and, if_false] at h
  split at h
  · cases h
  · revert h
    rcases ho with e | e <;> subst e <;> cases c.phase <;> simp [stateAnswer, hi] <;> decide

@[simp] theorem Card.newCommand_ok (c : Card) (op : Byte) (f : Frame) (k : Cmd) (body : Card → Card) (hk : c.keep.ok)
    (hb : ∀ d : Card, d.keep.ok → d.step7 op f = none → (body d).keep.ok) : (c.newCommand op f k body).keep.ok := by
  unfold Card.newCommand
  dsimp only
  repeat' split
  · simpa using hk
  · simpa using hk
  · simpa using hk
  · exact Card.begin_ok _ _ _ _ _ (by simpa using hk) (by assumption) hb

theorem Card.newCommand_of {β : Type} (g : Keep → β) (c : Card) (op : Byte) (f : Frame) (k : Cmd) (body : Card → Card)
    (hb : ∀ d : Card, g (body d).keep = g d.keep) : g (c.newCommand op f k body).keep = g c.keep := by
  unfold Card.newCommand
  dsimp only
  repeat' split
  all_goals first | (simp; done) | (rw [Card.begin_of g _ _ _ _ _ hb]; simp)

@[simp] theorem Card.receive_ok (c : Card) (op : Byte) (f : Frame) (k : Cmd) (body : Card → Card) (hk : c.keep.ok)
    (hb : ∀ d : Card, d.keep.ok → d.step7 op f = none → (body d).keep.ok) : (c.receive op f k body).keep.ok := by
  unfold Card.receive
  repeat' split
  all_goals first
    | exact Card.newCommand_ok _ _ _ _ _ (by simpa using hk) hb
    | simpa using hk

theorem Card.receive_of {β : Type} (g : Keep → β) (c : Card) (op : Byte) (f : Frame) (k : Cmd) (body : Card → Card)
    (hb : ∀ d : Card, g (body d).keep = g d.keep) : g (c.receive op f k body).keep = g c.keep := by
  unfold Card.receive
  repeat' split
  all_goals first | (simp; done) | (rw [Card.newCommand_of g _ _ _ _ _ hb]; (try simp))

@[simp] theorem Card.writeCell_keeps (c : Card) (k : Nat) (x : Cell) :
    (c.writeCell k x).keep.phase = c.keep.phase ∧ (c.writeCell k x).keep.bytes = c.keep.bytes ∧
    (c.writeCell k x).keep.place = c.keep.place ∧ (c.writeCell k x).keep.lanes = c.keep.lanes ∧
    (c.writeCell k x).keep.tread = c.keep.tread ∧ (c.writeCell k x).keep.hclk = c.keep.hclk ∧
    (c.writeCell k x).keep.dock = c.keep.dock ∧ (c.writeCell k x).keep.role = c.keep.role ∧
    (c.writeCell k x).keep.inUse = c.keep.inUse ∧ (c.writeCell k x).keep.marks = c.keep.marks ∧
    (c.writeCell k x).keep.held = c.keep.held ∧ (c.writeCell k x).keep.running = c.keep.running := by
  unfold Card.writeCell
  (try dsimp only)
  (repeat' split) <;> simp [Keep.parts]

@[simp] theorem Card.writeCell_ok (c : Card) (k : Nat) (x : Cell) (hk : c.keep.ok) :
    (c.writeCell k x).keep.ok := by
  refine Keep.ok_of c _ hk ?_
  simp

@[simp] theorem Card.clearPages_keeps (c : Card) (p : Nat → Bool) :
    (c.clearPages p).keep.phase = c.keep.phase ∧ (c.clearPages p).keep.bytes = c.keep.bytes ∧
    (c.clearPages p).keep.place = c.keep.place ∧ (c.clearPages p).keep.lanes = c.keep.lanes ∧
    (c.clearPages p).keep.tread = c.keep.tread ∧ (c.clearPages p).keep.hclk = c.keep.hclk ∧
    (c.clearPages p).keep.dock = c.keep.dock ∧ (c.clearPages p).keep.role = c.keep.role ∧
    (c.clearPages p).keep.inUse = c.keep.inUse ∧ (c.clearPages p).keep.marks = c.keep.marks ∧
    (c.clearPages p).keep.held = c.keep.held ∧ (c.clearPages p).keep.running = c.keep.running := by
  simp [Card.clearPages, Media.clear, Keep.parts]

@[simp] theorem Card.clearPages_ok (c : Card) (p : Nat → Bool) (hk : c.keep.ok) : (c.clearPages p).keep.ok := by
  refine Keep.ok_of c _ hk ?_
  simp

@[simp] theorem Card.eraseHall_keeps (c : Card) (w h : Nat) :
    (c.eraseHall w h).keep.phase = c.keep.phase ∧ (c.eraseHall w h).keep.bytes = c.keep.bytes ∧
    (c.eraseHall w h).keep.place = c.keep.place ∧ (c.eraseHall w h).keep.lanes = c.keep.lanes ∧
    (c.eraseHall w h).keep.tread = c.keep.tread ∧ (c.eraseHall w h).keep.hclk = c.keep.hclk ∧
    (c.eraseHall w h).keep.dock = c.keep.dock ∧ (c.eraseHall w h).keep.role = c.keep.role ∧
    (c.eraseHall w h).keep.inUse = c.keep.inUse ∧ (c.eraseHall w h).keep.marks = c.keep.marks ∧
    (c.eraseHall w h).keep.held = c.keep.held ∧ (c.eraseHall w h).keep.running = c.keep.running := by
  unfold Card.eraseHall
  (try dsimp only)
  (repeat' split) <;> simp [Keep.parts]

@[simp] theorem Card.eraseHall_ok (c : Card) (w h : Nat) (hk : c.keep.ok) :
    (c.eraseHall w h).keep.ok := by
  refine Keep.ok_of c _ hk ?_
  simp

@[simp] theorem Card.endErase_keeps (c : Card) (w : Nat) (failed : Bool) :
    (c.endErase w failed).keep.phase = c.keep.phase ∧ (c.endErase w failed).keep.bytes = c.keep.bytes ∧
    (c.endErase w failed).keep.place = c.keep.place ∧ (c.endErase w failed).keep.lanes = c.keep.lanes ∧
    (c.endErase w failed).keep.tread = c.keep.tread ∧ (c.endErase w failed).keep.hclk = c.keep.hclk ∧
    (c.endErase w failed).keep.dock = c.keep.dock ∧ (c.endErase w failed).keep.role = c.keep.role ∧
    (c.endErase w failed).keep.inUse = c.keep.inUse ∧ (c.endErase w failed).keep.marks = c.keep.marks ∧
    (c.endErase w failed).keep.held = c.keep.held ∧ (c.endErase w failed).keep.running = c.keep.running := by
  unfold Card.endErase
  (try dsimp only)
  (repeat' split) <;> simp [Keep.parts]

@[simp] theorem Card.endErase_ok (c : Card) (w : Nat) (failed : Bool) (hk : c.keep.ok) :
    (c.endErase w failed).keep.ok := by
  refine Keep.ok_of c _ hk ?_
  simp

@[simp] theorem Card.holdWindow_keeps (c : Card) (w : Window) :
    (c.holdWindow w).keep.phase = c.keep.phase ∧ (c.holdWindow w).keep.bytes = c.keep.bytes ∧
    (c.holdWindow w).keep.cells = c.keep.cells ∧ (c.holdWindow w).keep.place = c.keep.place ∧
    (c.holdWindow w).keep.lanes = c.keep.lanes ∧ (c.holdWindow w).keep.tread = c.keep.tread ∧
    (c.holdWindow w).keep.hclk = c.keep.hclk ∧ (c.holdWindow w).keep.dock = c.keep.dock ∧
    (c.holdWindow w).keep.role = c.keep.role ∧ (c.holdWindow w).keep.inUse = c.keep.inUse ∧
    (c.holdWindow w).keep.marks = c.keep.marks ∧ (c.holdWindow w).keep.running = c.keep.running := by
  unfold Card.holdWindow
  (try dsimp only)
  (repeat' split) <;> simp [Keep.parts]

theorem Card.holdWindow_ok (c : Card) (w : Window) (hf : c.windowFits w = true) (hm : c.phase = .mounted)
    (hk : c.keep.ok) : (c.holdWindow w).keep.ok := by
  simp only [Card.windowFits, Card.windows, Bool.and_eq_true, decide_eq_true_eq, List.length_append] at hf
  obtain ⟨h1, h2, h3, h4, h5, h6, h7⟩ := hk
  refine ⟨h1, h2, h3, h4, h5, ?_, fun h => absurd hm h⟩
  have := hf.1
  simp only [Card.holdWindow, Card.keep, List.length_append, List.length_cons, List.length_nil]
  omega

@[simp] theorem Card.startWindow_keeps (c : Card) (w : Window) :
    (c.startWindow w).keep.phase = c.keep.phase ∧ (c.startWindow w).keep.bytes = c.keep.bytes ∧
    (c.startWindow w).keep.cells = c.keep.cells ∧ (c.startWindow w).keep.place = c.keep.place ∧
    (c.startWindow w).keep.lanes = c.keep.lanes ∧ (c.startWindow w).keep.tread = c.keep.tread ∧
    (c.startWindow w).keep.hclk = c.keep.hclk ∧ (c.startWindow w).keep.dock = c.keep.dock ∧
    (c.startWindow w).keep.role = c.keep.role ∧ (c.startWindow w).keep.inUse = c.keep.inUse ∧
    (c.startWindow w).keep.marks = c.keep.marks := by
  unfold Card.startWindow
  (try dsimp only)
  (repeat' split) <;> simp [Keep.parts]

theorem Card.startWindow_ok (c : Card) (w : Window) (hw : w ∈ c.maint.held) (hm : c.phase = .mounted) (hk : c.keep.ok) :
    (c.startWindow w).keep.ok := by
  unfold Card.startWindow
  simp only [Card.pumpAll_keep, Card.ev_keep]
  obtain ⟨h1, h2, h3, h4, h5, h6, h7⟩ := hk
  refine ⟨h1, h2, h3, h4, h5, ?_, fun h => absurd hm h⟩
  have := List.length_erase_of_mem hw
  have := List.length_pos_of_mem hw
  simp only [Card.keep, List.length_append, List.length_cons, List.length_nil] at h6 ⊢
  omega

@[simp] theorem Card.endOne_keeps (c : Card) (w : Window) (cause : Nat) :
    (c.endOne w cause).keep.phase = c.keep.phase ∧ (c.endOne w cause).keep.bytes = c.keep.bytes ∧
    (c.endOne w cause).keep.cells = c.keep.cells ∧ (c.endOne w cause).keep.place = c.keep.place ∧
    (c.endOne w cause).keep.lanes = c.keep.lanes ∧ (c.endOne w cause).keep.tread = c.keep.tread ∧
    (c.endOne w cause).keep.hclk = c.keep.hclk ∧ (c.endOne w cause).keep.dock = c.keep.dock ∧
    (c.endOne w cause).keep.role = c.keep.role ∧ (c.endOne w cause).keep.inUse = c.keep.inUse ∧
    (c.endOne w cause).keep.marks = c.keep.marks ∧ (c.endOne w cause).keep.held = c.keep.held := by
  unfold Card.endOne
  (try dsimp only)
  (repeat' split) <;> simp [Keep.parts]

/-- A window that ends runs no more; the others run on. -/
@[simp] theorem Card.endOne_running (c : Card) (w : Window) (cause : Nat) :
    (c.endOne w cause).keep.running = c.keep.running.erase w := by
  unfold Card.endOne
  (try dsimp only)
  (repeat' split) <;> simp [Keep.parts]

@[simp] theorem Card.endOne_ok (c : Card) (w : Window) (cause : Nat) (hk : c.keep.ok) : (c.endOne w cause).keep.ok := by
  have e := Card.endOne_keeps c w cause
  obtain ⟨h1, h2, h3, h4, h5, h6, h7⟩ := hk
  have hl : (c.endOne w cause).keep.running.length ≤ c.keep.running.length := by
    rw [Card.endOne_running]; exact List.length_erase_le ..
  unfold Keep.ok
  simp only [Card.endOne_keeps, Card.endOne_running]
  refine ⟨h1, h2, h3, h4, h5, ?_, fun h => ⟨(h7 h).1, (h7 h).2.1, ?_⟩⟩
  · rw [Card.endOne_running] at hl
    omega
  · rw [(h7 h).2.2]; rfl

@[simp] theorem Card.endOnes_of {β : Type} (g : Keep → β) (h : ∀ c w n, g (Card.endOne c w n).keep = g c.keep) (cause : Nat)
    (l : List Window) (c : Card) : g (l.foldl (fun c w => c.endOne w cause) c).keep = g c.keep :=
  Keep.foldl_of g _ (fun _ _ => h _ _ _) _ _

/-- What ending any windows leaves alone. -/
@[simp] theorem Card.endOnes_keeps (cause : Nat) (l : List Window) (c : Card) :
    (l.foldl (fun c w => c.endOne w cause) c).keep.phase = c.keep.phase ∧
    (l.foldl (fun c w => c.endOne w cause) c).keep.bytes = c.keep.bytes ∧
    (l.foldl (fun c w => c.endOne w cause) c).keep.cells = c.keep.cells ∧
    (l.foldl (fun c w => c.endOne w cause) c).keep.place = c.keep.place ∧
    (l.foldl (fun c w => c.endOne w cause) c).keep.lanes = c.keep.lanes ∧
    (l.foldl (fun c w => c.endOne w cause) c).keep.tread = c.keep.tread ∧
    (l.foldl (fun c w => c.endOne w cause) c).keep.hclk = c.keep.hclk ∧
    (l.foldl (fun c w => c.endOne w cause) c).keep.dock = c.keep.dock ∧
    (l.foldl (fun c w => c.endOne w cause) c).keep.role = c.keep.role ∧
    (l.foldl (fun c w => c.endOne w cause) c).keep.inUse = c.keep.inUse ∧
    (l.foldl (fun c w => c.endOne w cause) c).keep.marks = c.keep.marks ∧
    (l.foldl (fun c w => c.endOne w cause) c).keep.held = c.keep.held := by
  refine ⟨?_, ?_, ?_, ?_, ?_, ?_, ?_, ?_, ?_, ?_, ?_, ?_⟩
  · exact Card.endOnes_of Keep.phase (by simp) _ _ _
  · exact Card.endOnes_of Keep.bytes (by simp) _ _ _
  · exact Card.endOnes_of Keep.cells (by simp) _ _ _
  · exact Card.endOnes_of Keep.place (by simp) _ _ _
  · exact Card.endOnes_of Keep.lanes (by simp) _ _ _
  · exact Card.endOnes_of Keep.tread (by simp) _ _ _
  · exact Card.endOnes_of Keep.hclk (by simp) _ _ _
  · exact Card.endOnes_of Keep.dock (by simp) _ _ _
  · exact Card.endOnes_of Keep.role (by simp) _ _ _
  · exact Card.endOnes_of Keep.inUse (by simp) _ _ _
  · exact Card.endOnes_of Keep.marks (by simp) _ _ _
  · exact Card.endOnes_of Keep.held (by simp) _ _ _

@[simp] theorem Card.endOnes_ok (cause : Nat) (l : List Window) (c : Card) (hk : c.keep.ok) :
    (l.foldl (fun c w => c.endOne w cause) c).keep.ok :=
  Keep.foldl_ok _ (fun _ _ h => Card.endOne_ok _ _ _ h) _ _ hk

@[simp] theorem Card.endWindows_keeps (c : Card) (cause : Nat) :
    (c.endWindows cause).keep.phase = c.keep.phase ∧ (c.endWindows cause).keep.bytes = c.keep.bytes ∧
    (c.endWindows cause).keep.cells = c.keep.cells ∧ (c.endWindows cause).keep.place = c.keep.place ∧
    (c.endWindows cause).keep.lanes = c.keep.lanes ∧ (c.endWindows cause).keep.tread = c.keep.tread ∧
    (c.endWindows cause).keep.hclk = c.keep.hclk ∧ (c.endWindows cause).keep.dock = c.keep.dock ∧
    (c.endWindows cause).keep.role = c.keep.role ∧ (c.endWindows cause).keep.inUse = c.keep.inUse ∧
    (c.endWindows cause).keep.marks = c.keep.marks ∧ (c.endWindows cause).keep.held = c.keep.held :=
  Card.endOnes_keeps _ _ _

@[simp] theorem Card.endWindows_ok (c : Card) (cause : Nat) (hk : c.keep.ok) : (c.endWindows cause).keep.ok :=
  Card.endOnes_ok _ _ _ hk

/-- Once every running window is ended none runs. -/
@[simp] theorem Card.endWindows_running (c : Card) (cause : Nat) : (c.endWindows cause).keep.running = [] := by
  have go : ∀ (l : List Window) (d : Card), (l.foldl (fun c w => c.endOne w cause) d).keep.running =
      l.foldl List.erase d.keep.running := by
    intro l
    induction l with
    | nil => intro d; rfl
    | cons a r ih => intro d; rw [List.foldl_cons, ih, Card.endOne_running, List.foldl_cons]
  have self : ∀ l : List Window, l.foldl List.erase l = [] := by
    intro l
    induction l with
    | nil => rfl
    | cons a r ih => rw [List.foldl_cons, List.erase_cons_head, ih]
  unfold Card.endWindows
  rw [go]
  exact self _

@[simp] theorem Card.dropWindows_keeps (c : Card) :
    c.dropWindows.keep.phase = c.keep.phase ∧ c.dropWindows.keep.bytes = c.keep.bytes ∧
    c.dropWindows.keep.cells = c.keep.cells ∧ c.dropWindows.keep.place = c.keep.place ∧
    c.dropWindows.keep.lanes = c.keep.lanes ∧ c.dropWindows.keep.tread = c.keep.tread ∧
    c.dropWindows.keep.hclk = c.keep.hclk ∧ c.dropWindows.keep.dock = c.keep.dock ∧
    c.dropWindows.keep.role = c.keep.role ∧ c.dropWindows.keep.inUse = c.keep.inUse ∧
    c.dropWindows.keep.marks = c.keep.marks := by
  unfold Card.dropWindows
  (try dsimp only)
  (repeat' split) <;> simp [Keep.parts]

/-- Nothing is held or running once windows are dropped. -/
@[simp] theorem Card.dropWindows_empty (c : Card) : c.dropWindows.keep.held = [] ∧ c.dropWindows.keep.running = [] :=
  ⟨rfl, Card.endWindows_running c 4⟩

@[simp] theorem Card.dropWindows_ok (c : Card) (hk : c.keep.ok) : c.dropWindows.keep.ok := by
  have h := hk
  obtain ⟨h1, h2, h3, h4, h5, h6, h7⟩ := hk
  unfold Keep.ok
  rw [(Card.dropWindows_empty c).1, (Card.dropWindows_empty c).2]
  simp only [Card.dropWindows_keeps]
  exact ⟨h1, h2, h3, h4, h5, by simp, fun h => ⟨(h7 h).1, trivial, trivial⟩⟩

@[simp] theorem Card.breakQuiet_keeps (c : Card) :
    c.breakQuiet.keep.phase = c.keep.phase ∧ c.breakQuiet.keep.bytes = c.keep.bytes ∧
    c.breakQuiet.keep.cells = c.keep.cells ∧ c.breakQuiet.keep.place = c.keep.place ∧
    c.breakQuiet.keep.lanes = c.keep.lanes ∧ c.breakQuiet.keep.tread = c.keep.tread ∧
    c.breakQuiet.keep.hclk = c.keep.hclk ∧ c.breakQuiet.keep.dock = c.keep.dock ∧
    c.breakQuiet.keep.role = c.keep.role ∧ c.breakQuiet.keep.inUse = c.keep.inUse ∧
    c.breakQuiet.keep.marks = c.keep.marks ∧ c.breakQuiet.keep.held = c.keep.held := by
  unfold Card.breakQuiet
  split
  · rw [Card.notice_keep, Card.pumpAll_keep]; exact Card.endOnes_keeps _ _ _
  · simp

@[simp] theorem Card.breakQuiet_ok (c : Card) (hk : c.keep.ok) : c.breakQuiet.keep.ok := by
  unfold Card.breakQuiet
  split
  · rw [Card.notice_keep, Card.pumpAll_keep]; exact Card.endOnes_ok _ _ _ hk
  · exact hk

@[simp] theorem Card.windowStart_keeps (c : Card) :
    c.windowStart.keep.phase = c.keep.phase ∧ c.windowStart.keep.bytes = c.keep.bytes ∧
    c.windowStart.keep.cells = c.keep.cells ∧ c.windowStart.keep.place = c.keep.place ∧
    c.windowStart.keep.lanes = c.keep.lanes ∧ c.windowStart.keep.tread = c.keep.tread ∧
    c.windowStart.keep.hclk = c.keep.hclk ∧ c.windowStart.keep.dock = c.keep.dock ∧
    c.windowStart.keep.role = c.keep.role ∧ c.windowStart.keep.inUse = c.keep.inUse ∧
    c.windowStart.keep.marks = c.keep.marks := by
  unfold Card.windowStart
  (try dsimp only)
  (repeat' split) <;> simp [Keep.parts]

@[simp] theorem Card.windowStart_ok (c : Card) (hk : c.keep.ok) : (c.windowStart).keep.ok := by
  unfold Card.windowStart
  dsimp only
  repeat' split
  all_goals first
    | exact hk
    | exact Card.startWindow_ok _ _ (List.mem_of_find?_eq_some (by assumption)) (by simp_all) hk

@[simp] theorem Card.windowEnd_keeps (c : Card) :
    c.windowEnd.keep.phase = c.keep.phase ∧ c.windowEnd.keep.bytes = c.keep.bytes ∧
    c.windowEnd.keep.cells = c.keep.cells ∧ c.windowEnd.keep.place = c.keep.place ∧
    c.windowEnd.keep.lanes = c.keep.lanes ∧ c.windowEnd.keep.tread = c.keep.tread ∧
    c.windowEnd.keep.hclk = c.keep.hclk ∧ c.windowEnd.keep.dock = c.keep.dock ∧
    c.windowEnd.keep.role = c.keep.role ∧ c.windowEnd.keep.inUse = c.keep.inUse ∧
    c.windowEnd.keep.marks = c.keep.marks ∧ c.windowEnd.keep.held = c.keep.held := by
  unfold Card.windowEnd
  (try dsimp only)
  (repeat' split) <;> simp [Keep.parts]

@[simp] theorem Card.windowEnd_ok (c : Card) (hk : c.keep.ok) :
    c.windowEnd.keep.ok := by
  unfold Card.windowEnd
  (try dsimp only)
  (repeat' split) <;> simp [hk]

/-- Of the invariant's part, dropping what is scheduled changes that alone. -/
theorem Card.dropActions_eq (c : Card) : c.dropActions.keep = { c.dropWindows.keep with marks := [] } := by
  unfold Card.dropActions
  dsimp only
  rw [Keep.foldl _ (fun c x => by split <;> simp)]
  rw [Card.sweep_keep]
  rfl

@[simp] theorem Card.dropActions_keeps (c : Card) :
    c.dropActions.keep.phase = c.keep.phase ∧ c.dropActions.keep.bytes = c.keep.bytes ∧
    c.dropActions.keep.cells = c.keep.cells ∧ c.dropActions.keep.place = c.keep.place ∧
    c.dropActions.keep.lanes = c.keep.lanes ∧ c.dropActions.keep.tread = c.keep.tread ∧
    c.dropActions.keep.hclk = c.keep.hclk ∧ c.dropActions.keep.dock = c.keep.dock ∧
    c.dropActions.keep.role = c.keep.role ∧ c.dropActions.keep.inUse = c.keep.inUse := by
  simp [Card.dropActions_eq]

@[simp] theorem Card.dropActions_empty (c : Card) :
    c.dropActions.keep.marks = [] ∧ c.dropActions.keep.held = [] ∧ c.dropActions.keep.running = [] := by
  simp [Card.dropActions_eq]

@[simp] theorem Card.dropActions_ok (c : Card) (hk : c.keep.ok) : c.dropActions.keep.ok :=
  Keep.ok_empty c _ hk (by simp) (by simp)

@[simp] theorem Card.enterClosed_keeps (c : Card) (t : Tag) (how : Nat) :
    (c.enterClosed t how).keep.bytes = c.keep.bytes ∧ (c.enterClosed t how).keep.cells = c.keep.cells ∧
    (c.enterClosed t how).keep.place = c.keep.place ∧ (c.enterClosed t how).keep.lanes = c.keep.lanes ∧
    (c.enterClosed t how).keep.tread = c.keep.tread ∧ (c.enterClosed t how).keep.hclk = c.keep.hclk ∧
    (c.enterClosed t how).keep.dock = c.keep.dock ∧ (c.enterClosed t how).keep.role = c.keep.role ∧
    (c.enterClosed t how).keep.inUse = c.keep.inUse := by
  unfold Card.enterClosed
  (try dsimp only)
  (repeat' split) <;> simp [Keep.parts]

@[simp] theorem Card.enterClosed_ok (c : Card) (t : Tag) (how : Nat) (hk : c.keep.ok) : (c.enterClosed t how).keep.ok := by
  unfold Card.enterClosed
  dsimp only
  rw [Card.driveLnd_keep]
  refine Card.enter_empty_ok _ _ ?_ ?_
  · rw [Card.finish_keep]
    exact (Card.abortErases_keep c.dropActions ▸ Card.dropActions_ok c hk : c.dropActions.abortErases.keep.ok)
  · rw [Card.finish_keep]
    exact (Card.abortErases_keep c.dropActions ▸ Card.dropActions_empty c :
      c.dropActions.abortErases.keep.marks = [] ∧ c.dropActions.abortErases.keep.held = [] ∧
        c.dropActions.abortErases.keep.running = [])

@[simp] theorem Card.landingResponse_keeps (c : Card) (a : Action) (ok : Bool) :
    (c.landingResponse a ok).keep.bytes = c.keep.bytes ∧ (c.landingResponse a ok).keep.cells = c.keep.cells ∧
    (c.landingResponse a ok).keep.place = c.keep.place ∧ (c.landingResponse a ok).keep.lanes = c.keep.lanes ∧
    (c.landingResponse a ok).keep.tread = c.keep.tread ∧ (c.landingResponse a ok).keep.hclk = c.keep.hclk ∧
    (c.landingResponse a ok).keep.dock = c.keep.dock ∧ (c.landingResponse a ok).keep.role = c.keep.role ∧
    (c.landingResponse a ok).keep.inUse = c.keep.inUse := by
  unfold Card.landingResponse
  (try dsimp only)
  (repeat' split) <;> simp [Keep.parts]

@[simp] theorem Card.landingResponse_ok (c : Card) (a : Action) (ok : Bool) (hk : c.keep.ok) :
    (c.landingResponse a ok).keep.ok := by
  unfold Card.landingResponse
  (try dsimp only)
  (repeat' split) <;> simp [hk]

@[simp] theorem Card.landed_keeps (c : Card) (a : Action) (b : Bay) :
    (c.landed a b).keep.bytes = c.keep.bytes ∧ (c.landed a b).keep.cells = c.keep.cells ∧
    (c.landed a b).keep.place = c.keep.place ∧ (c.landed a b).keep.lanes = c.keep.lanes ∧
    (c.landed a b).keep.tread = c.keep.tread ∧ (c.landed a b).keep.hclk = c.keep.hclk ∧
    (c.landed a b).keep.dock = c.keep.dock ∧ (c.landed a b).keep.role = c.keep.role ∧
    (c.landed a b).keep.inUse = c.keep.inUse := by
  unfold Card.landed
  (try dsimp only)
  (repeat' split) <;> simp [Keep.parts]

@[simp] theorem Card.landed_ok (c : Card) (a : Action) (b : Bay) (hk : c.keep.ok) : (c.landed a b).keep.ok := by
  have h : ∀ d : Card, d.keep = c.keep → d.keep.ok := fun d e => e ▸ hk
  unfold Card.landed
  split
  · dsimp only
    rw [Card.stepActs_keep]
    split
    · refine Card.landingResponse_ok _ _ _ (h _ ?_)
      rw [Card.twinEnd_keep, Card.ev_keep, Card.bump_keep, Card.removeAct_keep, Card.carryLosses_keep]
      rfl
    · rw [Card.twinEnd_keep]
      refine Card.landingResponse_ok _ _ _ (h _ ?_)
      rw [Card.ev_keep, Card.bump_keep, Card.removeAct_keep, Card.carryLosses_keep]
      rfl
  · exact hk

@[simp] theorem Card.markExecute_keeps (c : Card) :
    c.markExecute.keep.phase = c.keep.phase ∧ c.markExecute.keep.bytes = c.keep.bytes ∧
    c.markExecute.keep.cells = c.keep.cells ∧ c.markExecute.keep.place = c.keep.place ∧
    c.markExecute.keep.lanes = c.keep.lanes ∧ c.markExecute.keep.tread = c.keep.tread ∧
    c.markExecute.keep.hclk = c.keep.hclk ∧ c.markExecute.keep.dock = c.keep.dock ∧
    c.markExecute.keep.role = c.keep.role ∧ c.markExecute.keep.inUse = c.keep.inUse ∧
    c.markExecute.keep.held = c.keep.held ∧ c.markExecute.keep.running = c.keep.running := by
  unfold Card.markExecute
  (try dsimp only)
  (repeat' split) <;> simp [Keep.parts]

@[simp] theorem Card.markExecute_ok (c : Card) (hk : c.keep.ok) : (c.markExecute).keep.ok := by
  unfold Card.markExecute
  split
  · split
    · next hm =>
      refine Eq.mpr (congrArg Keep.ok ((Card.pumpAll_keep _).trans (Card.placeMark_keep _ _))) ?_
      obtain ⟨h1, h2, h3, h4, h5, h6, h7⟩ := hk
      exact ⟨h1, h2, h3, h4, le_trans (List.length_erase_le ..) h5, h6, fun h => absurd hm.1 h⟩
    · exact hk
  · exact hk

@[simp] theorem Card.doWindow_keeps (c : Card) (f : Frame) (quiet : Bool) :
    (c.doWindow f quiet).keep.phase = c.keep.phase ∧ (c.doWindow f quiet).keep.bytes = c.keep.bytes ∧
    (c.doWindow f quiet).keep.cells = c.keep.cells ∧ (c.doWindow f quiet).keep.place = c.keep.place ∧
    (c.doWindow f quiet).keep.lanes = c.keep.lanes ∧ (c.doWindow f quiet).keep.tread = c.keep.tread ∧
    (c.doWindow f quiet).keep.hclk = c.keep.hclk ∧ (c.doWindow f quiet).keep.dock = c.keep.dock ∧
    (c.doWindow f quiet).keep.role = c.keep.role ∧ (c.doWindow f quiet).keep.inUse = c.keep.inUse ∧
    (c.doWindow f quiet).keep.marks = c.keep.marks ∧ (c.doWindow f quiet).keep.running = c.keep.running := by
  unfold Card.doWindow
  (try dsimp only)
  (repeat' split) <;> simp [Keep.parts]

theorem Card.doWindow_ok (c : Card) (f : Frame) (quiet : Bool) (hm : c.phase = .mounted) (hk : c.keep.ok) :
    (c.doWindow f quiet).keep.ok := by
  unfold Card.doWindow
  dsimp only
  repeat' split
  all_goals first
    | simpa using hk
    | (simp only [Card.finish_keep]; exact Card.holdWindow_ok _ _ (by simp_all) hm hk)

@[simp] theorem Card.doWrite_keeps (c : Card) (f : Frame) :
    (c.doWrite f).keep.phase = c.keep.phase ∧ (c.doWrite f).keep.bytes = c.keep.bytes ∧
    (c.doWrite f).keep.cells = c.keep.cells ∧ (c.doWrite f).keep.place = c.keep.place ∧
    (c.doWrite f).keep.lanes = c.keep.lanes ∧ (c.doWrite f).keep.tread = c.keep.tread ∧
    (c.doWrite f).keep.hclk = c.keep.hclk ∧ (c.doWrite f).keep.dock = c.keep.dock ∧
    (c.doWrite f).keep.role = c.keep.role ∧ (c.doWrite f).keep.inUse = c.keep.inUse ∧
    (c.doWrite f).keep.marks = c.keep.marks ∧ (c.doWrite f).keep.held = c.keep.held := by
  unfold Card.doWrite Card.needLanes
  dsimp only
  (repeat' split) <;> simp

@[simp] theorem Card.doWrite_ok (c : Card) (f : Frame) (hk : c.keep.ok) : (c.doWrite f).keep.ok := by
  unfold Card.doWrite Card.needLanes
  dsimp only
  (repeat' split) <;> simp [hk]

@[simp] theorem Card.writeGo_keeps (c : Card) (t : Tag) :
    (c.writeGo t).keep.phase = c.keep.phase ∧ (c.writeGo t).keep.bytes = c.keep.bytes ∧
    (c.writeGo t).keep.cells = c.keep.cells ∧ (c.writeGo t).keep.place = c.keep.place ∧
    (c.writeGo t).keep.lanes = c.keep.lanes ∧ (c.writeGo t).keep.tread = c.keep.tread ∧
    (c.writeGo t).keep.hclk = c.keep.hclk ∧ (c.writeGo t).keep.dock = c.keep.dock ∧
    (c.writeGo t).keep.role = c.keep.role ∧ (c.writeGo t).keep.inUse = c.keep.inUse ∧
    (c.writeGo t).keep.marks = c.keep.marks ∧ (c.writeGo t).keep.held = c.keep.held := by
  unfold Card.writeGo
  (try dsimp only)
  (repeat' split) <;> simp [Keep.parts]

@[simp] theorem Card.writeGo_ok (c : Card) (t : Tag) (hk : c.keep.ok) :
    (c.writeGo t).keep.ok := by
  unfold Card.writeGo
  (try dsimp only)
  (repeat' split) <;> simp [hk]

@[simp] theorem Card.doAlcove_keeps (c : Card) (o : AlcoveOp) (ok : Bool) :
    (c.doAlcove o ok).keep.phase = c.keep.phase ∧ (c.doAlcove o ok).keep.cells = c.keep.cells ∧
    (c.doAlcove o ok).keep.place = c.keep.place ∧ (c.doAlcove o ok).keep.lanes = c.keep.lanes ∧
    (c.doAlcove o ok).keep.tread = c.keep.tread ∧ (c.doAlcove o ok).keep.hclk = c.keep.hclk ∧
    (c.doAlcove o ok).keep.dock = c.keep.dock ∧ (c.doAlcove o ok).keep.role = c.keep.role ∧
    (c.doAlcove o ok).keep.marks = c.keep.marks ∧ (c.doAlcove o ok).keep.held = c.keep.held ∧
    (c.doAlcove o ok).keep.running = c.keep.running := by
  unfold Card.doAlcove
  (try dsimp only)
  (repeat' split) <;> simp [Keep.parts]

@[simp] theorem Card.doAlcove_ok (c : Card) (o : AlcoveOp) (ok : Bool) (hk : c.keep.ok) : (c.doAlcove o ok).keep.ok := by
  obtain ⟨h1, h2, h3⟩ := hk
  unfold Card.doAlcove
  dsimp only
  have ms : ∀ (i : AlcoveId) (m : Mem), m.wf = true → (c.alcove.setMem i m).memA.wf = true ∧
      (c.alcove.setMem i m).memB.wf = true := by
    intro i m w
    cases i
    · exact ⟨w, h2⟩
    · exact ⟨h1, w⟩
  have mm : ∀ i : AlcoveId, (c.alcove.mem i).wf = true := by intro i; cases i <;> assumption
  have sm : ∀ (i : AlcoveId) (s : Bool) (r : RecSlot), (c.alcove.setSlot i s r).memA = c.alcove.memA ∧
      (c.alcove.setSlot i s r).memB = c.alcove.memB := by intro i s r; cases i <;> cases s <;> exact ⟨rfl, rfl⟩
  have sl : ∀ (i : AlcoveId) (l : KV LedgerCell), (c.alcove.setLedger i l).memA = c.alcove.memA ∧
      (c.alcove.setLedger i l).memB = c.alcove.memB := by intro i l; cases i <;> exact ⟨rfl, rfl⟩
  have close : ∀ (a : Alcove) (n : Nat), a.memA.wf = true ∧ a.memB.wf = true →
      ({ c with alcove := a, freeCount := n } : Card).keep.ok := fun a n h => ⟨h.1, h.2, h3⟩
  cases o <;> dsimp only <;> (try split)
  all_goals first
    | exact ⟨h1, h2, h3⟩
    | (apply close; rw [(sm _ _ _).1, (sm _ _ _).2]; exact ⟨h1, h2⟩)
    | (apply close; rw [(sl _ _).1, (sl _ _).2]; exact ⟨h1, h2⟩)
    | (apply close; exact ms _ _ (Mem.wf_erase _ _ (mm _)))
    | (apply close; exact ms _ _ (Mem.wf_program _ _ (mm _)))
    | (apply close; exact ms _ _ (Mem.wf_force _ _ (mm _)))

@[simp] theorem Card.cutOp_keeps (c : Card) (o : AlcoveOp) :
    (c.cutOp o).keep.phase = c.keep.phase ∧ (c.cutOp o).keep.cells = c.keep.cells ∧
    (c.cutOp o).keep.place = c.keep.place ∧ (c.cutOp o).keep.lanes = c.keep.lanes ∧
    (c.cutOp o).keep.tread = c.keep.tread ∧ (c.cutOp o).keep.hclk = c.keep.hclk ∧
    (c.cutOp o).keep.dock = c.keep.dock ∧ (c.cutOp o).keep.role = c.keep.role ∧
    (c.cutOp o).keep.marks = c.keep.marks ∧ (c.cutOp o).keep.held = c.keep.held ∧
    (c.cutOp o).keep.running = c.keep.running := by
  unfold Card.cutOp
  (try dsimp only)
  (repeat' split) <;> simp [Keep.parts]

@[simp] theorem Card.cutOp_ok (c : Card) (o : AlcoveOp) (hk : c.keep.ok) : (c.cutOp o).keep.ok := by
  unfold Card.cutOp
  split <;> exact Card.doAlcove_ok _ _ _ hk

@[simp] theorem Card.dropMap_keeps (c : Card) :
    c.dropMap.keep.phase = c.keep.phase ∧ c.dropMap.keep.bytes = c.keep.bytes ∧
    c.dropMap.keep.cells = c.keep.cells ∧ c.dropMap.keep.place = c.keep.place ∧
    c.dropMap.keep.lanes = c.keep.lanes ∧ c.dropMap.keep.tread = c.keep.tread ∧
    c.dropMap.keep.hclk = c.keep.hclk ∧ c.dropMap.keep.dock = c.keep.dock ∧
    c.dropMap.keep.role = c.keep.role ∧ c.dropMap.keep.inUse = c.keep.inUse := by
  unfold Card.dropMap
  (try dsimp only)
  (repeat' split) <;> simp [Keep.parts]

@[simp] theorem Card.dropMap_empty (c : Card) :
    c.dropMap.keep.marks = [] ∧ c.dropMap.keep.held = [] ∧ c.dropMap.keep.running = [] := ⟨rfl, rfl, rfl⟩

@[simp] theorem Card.dropMap_ok (c : Card) (hk : c.keep.ok) : (c.dropMap).keep.ok :=
  Keep.ok_empty c _ hk (by simp) (by simp)

@[simp] theorem Card.leaveClosed_keeps (c : Card) :
    c.leaveClosed.keep.bytes = c.keep.bytes ∧ c.leaveClosed.keep.cells = c.keep.cells ∧
    c.leaveClosed.keep.place = c.keep.place ∧ c.leaveClosed.keep.lanes = c.keep.lanes ∧
    c.leaveClosed.keep.tread = c.keep.tread ∧ c.leaveClosed.keep.hclk = c.keep.hclk ∧
    c.leaveClosed.keep.dock = c.keep.dock ∧ c.leaveClosed.keep.role = c.keep.role ∧
    c.leaveClosed.keep.inUse = c.keep.inUse := by
  unfold Card.leaveClosed
  (try dsimp only)
  (repeat' split) <;> simp [Keep.parts]

@[simp] theorem Card.leaveClosed_ok (c : Card) (hk : c.keep.ok) : (c.leaveClosed).keep.ok := by
  unfold Card.leaveClosed
  split
  · exact Card.enter_empty_ok _ _ (Card.dropMap_ok c hk) (Card.dropMap_empty c)
  · exact hk

@[simp] theorem Card.formatGo_keeps (c : Card) (t : Tag) :
    (c.formatGo t).keep.bytes = c.keep.bytes ∧ (c.formatGo t).keep.cells = c.keep.cells ∧
    (c.formatGo t).keep.place = c.keep.place ∧ (c.formatGo t).keep.lanes = c.keep.lanes ∧
    (c.formatGo t).keep.tread = c.keep.tread ∧ (c.formatGo t).keep.hclk = c.keep.hclk ∧
    (c.formatGo t).keep.dock = c.keep.dock ∧ (c.formatGo t).keep.role = c.keep.role ∧
    (c.formatGo t).keep.inUse = c.keep.inUse := by
  unfold Card.formatGo
  (try dsimp only)
  (repeat' split) <;> simp [Keep.parts]

@[simp] theorem Card.formatGo_ok (c : Card) (t : Tag) (hk : c.keep.ok) :
    (c.formatGo t).keep.ok := by
  unfold Card.formatGo
  (try dsimp only)
  (repeat' split) <;> simp [hk]

@[simp] theorem Card.doSanitize_keeps (c : Card) (f : Frame) :
    (c.doSanitize f).keep.bytes = c.keep.bytes ∧ (c.doSanitize f).keep.cells = c.keep.cells ∧
    (c.doSanitize f).keep.place = c.keep.place ∧ (c.doSanitize f).keep.lanes = c.keep.lanes ∧
    (c.doSanitize f).keep.tread = c.keep.tread ∧ (c.doSanitize f).keep.hclk = c.keep.hclk ∧
    (c.doSanitize f).keep.dock = c.keep.dock ∧ (c.doSanitize f).keep.role = c.keep.role ∧
    (c.doSanitize f).keep.inUse = c.keep.inUse := by
  unfold Card.doSanitize
  (try dsimp only)
  (repeat' split) <;> simp [Keep.parts]

@[simp] theorem Card.doSanitize_ok (c : Card) (f : Frame) (hk : c.keep.ok) :
    (c.doSanitize f).keep.ok := by
  unfold Card.doSanitize
  (try dsimp only)
  (repeat' split) <;> simp [hk]

@[simp] theorem Card.doLoad_keeps (c : Card) (f : Frame) :
    (c.doLoad f).keep.bytes = c.keep.bytes ∧ (c.doLoad f).keep.cells = c.keep.cells ∧
    (c.doLoad f).keep.place = c.keep.place ∧ (c.doLoad f).keep.lanes = c.keep.lanes ∧
    (c.doLoad f).keep.tread = c.keep.tread ∧ (c.doLoad f).keep.hclk = c.keep.hclk ∧
    (c.doLoad f).keep.dock = c.keep.dock ∧ (c.doLoad f).keep.role = c.keep.role ∧
    (c.doLoad f).keep.inUse = c.keep.inUse := by
  unfold Card.doLoad
  (try dsimp only)
  (repeat' split) <;> simp [Keep.parts]

@[simp] theorem Card.doLoad_ok (c : Card) (f : Frame) (hk : c.keep.ok) :
    (c.doLoad f).keep.ok := by
  unfold Card.doLoad
  (try dsimp only)
  (repeat' split) <;> simp [hk]

@[simp] theorem Card.swapNow_keeps (c : Card) (t : Tag) :
    (c.swapNow t).keep.bytes = c.keep.bytes ∧ (c.swapNow t).keep.cells = c.keep.cells ∧
    (c.swapNow t).keep.place = c.keep.place ∧ (c.swapNow t).keep.lanes = c.keep.lanes ∧
    (c.swapNow t).keep.tread = c.keep.tread ∧ (c.swapNow t).keep.hclk = c.keep.hclk ∧
    (c.swapNow t).keep.dock = c.keep.dock ∧ (c.swapNow t).keep.role = c.keep.role ∧
    (c.swapNow t).keep.inUse = c.keep.inUse := by
  unfold Card.swapNow
  (try dsimp only)
  (repeat' split) <;> simp [Keep.parts]

@[simp] theorem Card.swapNow_ok (c : Card) (t : Tag) (hk : c.keep.ok) : (c.swapNow t).keep.ok := by
  have hl := Card.leaveClosed_ok _ (show ((c.setService none).keep.ok) by simpa using hk)
  have mk : ∀ (d : Card) (x : Option Conf), ({ d with alcove := { d.alcove with conf := x } } : Card).keep = d.keep :=
    fun _ _ => rfl
  unfold Card.swapNow
  dsimp only
  repeat' split
  all_goals simp only [Card.finish_keep, Card.setService_keep, Card.addOps_keep, mk, Card.appendLedger_keep]
  all_goals first | assumption | exact hl

@[simp] theorem Card.doSwap_keeps (c : Card) (f : Frame) :
    (c.doSwap f).keep.bytes = c.keep.bytes ∧ (c.doSwap f).keep.cells = c.keep.cells ∧
    (c.doSwap f).keep.place = c.keep.place ∧ (c.doSwap f).keep.lanes = c.keep.lanes ∧
    (c.doSwap f).keep.tread = c.keep.tread ∧ (c.doSwap f).keep.hclk = c.keep.hclk ∧
    (c.doSwap f).keep.dock = c.keep.dock ∧ (c.doSwap f).keep.role = c.keep.role ∧
    (c.doSwap f).keep.inUse = c.keep.inUse := by
  unfold Card.doSwap
  (try dsimp only)
  (repeat' split) <;> simp [Keep.parts]

@[simp] theorem Card.doSwap_ok (c : Card) (f : Frame) (hk : c.keep.ok) : (c.doSwap f).keep.ok := by
  have h : (c.setService (some (f.tag, .swapCheck))).keep.ok := by simpa using hk
  unfold Card.doSwap
  dsimp only
  split
  · exact Card.swapNow_ok _ _ h
  · exact h

@[simp] theorem Card.wipe_keeps (c : Card) :
    c.wipe.keep.phase = c.keep.phase ∧ c.wipe.keep.bytes = c.keep.bytes ∧ c.wipe.keep.cells = c.keep.cells ∧
    c.wipe.keep.place = c.keep.place ∧ c.wipe.keep.lanes = c.keep.lanes ∧
    c.wipe.keep.tread = c.keep.tread ∧ c.wipe.keep.hclk = c.keep.hclk ∧
    c.wipe.keep.dock = c.keep.dock ∧ c.wipe.keep.role = c.keep.role ∧
    c.wipe.keep.inUse = c.keep.inUse ∧ c.wipe.keep.held = c.keep.held ∧
    c.wipe.keep.running = c.keep.running := by
  unfold Card.wipe
  (try dsimp only)
  (repeat' split) <;> simp [Keep.parts]

@[simp] theorem Card.wipe_ok (c : Card) (hk : c.keep.ok) : (c.wipe).keep.ok := by
  obtain ⟨h1, h2, h3, h4, h5, h6, h7⟩ := hk
  exact ⟨h1, h2, h3, h4, by simp [Card.wipe, Card.keep], h6, fun h => ⟨rfl, (h7 h).2⟩⟩

@[simp] theorem Card.endSanitize_keeps (c : Card) (t : Tag) (refused : List BlockRef) :
    (c.endSanitize t refused).keep.phase = c.keep.phase ∧ (c.endSanitize t refused).keep.bytes = c.keep.bytes ∧
    (c.endSanitize t refused).keep.cells = c.keep.cells ∧
    (c.endSanitize t refused).keep.place = c.keep.place ∧ (c.endSanitize t refused).keep.lanes = c.keep.lanes ∧
    (c.endSanitize t refused).keep.tread = c.keep.tread ∧ (c.endSanitize t refused).keep.hclk = c.keep.hclk ∧
    (c.endSanitize t refused).keep.dock = c.keep.dock ∧ (c.endSanitize t refused).keep.role = c.keep.role ∧
    (c.endSanitize t refused).keep.inUse = c.keep.inUse ∧ (c.endSanitize t refused).keep.held = c.keep.held ∧
    (c.endSanitize t refused).keep.running = c.keep.running := by
  unfold Card.endSanitize
  (try dsimp only)
  (repeat' split) <;> simp [Keep.parts]

@[simp] theorem Card.endSanitize_ok (c : Card) (t : Tag) (refused : List BlockRef) (hk : c.keep.ok) :
    (c.endSanitize t refused).keep.ok := by
  have h := Card.wipe_ok c hk
  unfold Card.endSanitize
  dsimp only
  split
  · rw [Card.endService_keep]; exact h
  · rw [Card.sendParts_keep, Card.endHold_keep, Card.setService_keep]; exact h

@[simp] theorem Card.serviceStep_keeps (c : Card) :
    (c.serviceStep).keep.bytes = c.keep.bytes ∧ (c.serviceStep).keep.cells = c.keep.cells ∧
    (c.serviceStep).keep.place = c.keep.place ∧ (c.serviceStep).keep.lanes = c.keep.lanes ∧
    (c.serviceStep).keep.tread = c.keep.tread ∧ (c.serviceStep).keep.hclk = c.keep.hclk ∧
    (c.serviceStep).keep.dock = c.keep.dock ∧ (c.serviceStep).keep.role = c.keep.role ∧
    (c.serviceStep).keep.inUse = c.keep.inUse := by
  unfold Card.serviceStep
  (try dsimp only)
  (repeat' split) <;> simp [Keep.parts]

/-- A dock command other than an ALCOVE SWAP that waits leaves the state and what is scheduled alone. -/
theorem Card.serviceStep_stays (c : Card) (h : ∀ t, c.alcove.service ≠ some (t, .swapCheck)) :
    c.serviceStep.keep.phase = c.keep.phase ∧ c.serviceStep.keep.held = c.keep.held ∧
    c.serviceStep.keep.running = c.keep.running := by
  unfold Card.serviceStep
  (try dsimp only)
  (repeat' split) <;> try simp [Keep.parts]
  next e => exact absurd e (h _)

@[simp] theorem Card.serviceStep_ok (c : Card) (hk : c.keep.ok) : (c.serviceStep).keep.ok := by
  have h := Card.wipe_ok c hk
  unfold Card.serviceStep
  repeat' split
  all_goals try dsimp only
  all_goals first
    | exact hk
    | (simp only [Card.setService_keep, Card.addOps_keep, Card.nextFree_keep]; exact hk)
    | (rw [Card.endService_keep]; exact h)
    | exact Card.swapNow_ok _ _ hk

@[simp] theorem Card.alcoveComplete_keeps (c : Card) (ok : Bool) :
    (c.alcoveComplete ok).keep.cells = c.keep.cells ∧
    (c.alcoveComplete ok).keep.place = c.keep.place ∧ (c.alcoveComplete ok).keep.lanes = c.keep.lanes ∧
    (c.alcoveComplete ok).keep.tread = c.keep.tread ∧ (c.alcoveComplete ok).keep.hclk = c.keep.hclk ∧
    (c.alcoveComplete ok).keep.dock = c.keep.dock ∧ (c.alcoveComplete ok).keep.role = c.keep.role := by
  unfold Card.alcoveComplete
  (try dsimp only)
  (repeat' split) <;> simp [Keep.parts]

@[simp] theorem Card.alcoveComplete_ok (c : Card) (ok : Bool) (hk : c.keep.ok) : (c.alcoveComplete ok).keep.ok := by
  unfold Card.alcoveComplete
  split
  · exact hk
  · next o r _ =>
    have h := Card.doAlcove_ok c o ok hk
    dsimp only
    split
    · exact hk
    · split
      · rw [Card.traceAlcove_keep]; exact h
      · refine Card.serviceStep_ok _ ?_
        rw [Card.serviceOp_keep, Card.traceAlcove_keep]
        exact h

@[simp] theorem Card.formatBlock_keeps (c : Card) (h d n : Nat) (ok : Bool) :
    (c.formatBlock h d n ok).keep.phase = c.keep.phase ∧ (c.formatBlock h d n ok).keep.bytes = c.keep.bytes ∧
    (c.formatBlock h d n ok).keep.place = c.keep.place ∧ (c.formatBlock h d n ok).keep.lanes = c.keep.lanes ∧
    (c.formatBlock h d n ok).keep.tread = c.keep.tread ∧ (c.formatBlock h d n ok).keep.hclk = c.keep.hclk ∧
    (c.formatBlock h d n ok).keep.dock = c.keep.dock ∧ (c.formatBlock h d n ok).keep.role = c.keep.role ∧
    (c.formatBlock h d n ok).keep.inUse = c.keep.inUse ∧ (c.formatBlock h d n ok).keep.marks = c.keep.marks ∧
    (c.formatBlock h d n ok).keep.held = c.keep.held ∧ (c.formatBlock h d n ok).keep.running = c.keep.running := by
  unfold Card.formatBlock
  (try dsimp only)
  (repeat' split) <;> simp [Keep.parts]

@[simp] theorem Card.formatBlock_ok (c : Card) (h d n : Nat) (ok : Bool) (hk : c.keep.ok) : (c.formatBlock h d n ok).keep.ok := by
  refine Keep.ok_of c _ hk ?_
  simp

@[simp] theorem Card.sanitizeBlock_keeps (c : Card) (h d b : Nat) :
    (c.sanitizeBlock h d b).keep.phase = c.keep.phase ∧ (c.sanitizeBlock h d b).keep.bytes = c.keep.bytes ∧
    (c.sanitizeBlock h d b).keep.place = c.keep.place ∧ (c.sanitizeBlock h d b).keep.lanes = c.keep.lanes ∧
    (c.sanitizeBlock h d b).keep.tread = c.keep.tread ∧ (c.sanitizeBlock h d b).keep.hclk = c.keep.hclk ∧
    (c.sanitizeBlock h d b).keep.dock = c.keep.dock ∧ (c.sanitizeBlock h d b).keep.role = c.keep.role ∧
    (c.sanitizeBlock h d b).keep.inUse = c.keep.inUse ∧ (c.sanitizeBlock h d b).keep.marks = c.keep.marks ∧
    (c.sanitizeBlock h d b).keep.held = c.keep.held ∧ (c.sanitizeBlock h d b).keep.running = c.keep.running := by
  unfold Card.sanitizeBlock
  (try dsimp only)
  (repeat' split) <;> simp [Keep.parts]

@[simp] theorem Card.sanitizeBlock_ok (c : Card) (h d b : Nat) (hk : c.keep.ok) : (c.sanitizeBlock h d b).keep.ok := by
  refine Keep.ok_of c _ hk ?_
  simp

@[simp] theorem Card.eraseAllBut_keeps (c : Card) (refused : List BlockRef) :
    (c.eraseAllBut refused).keep.phase = c.keep.phase ∧ (c.eraseAllBut refused).keep.bytes = c.keep.bytes ∧
    (c.eraseAllBut refused).keep.place = c.keep.place ∧ (c.eraseAllBut refused).keep.lanes = c.keep.lanes ∧
    (c.eraseAllBut refused).keep.tread = c.keep.tread ∧ (c.eraseAllBut refused).keep.hclk = c.keep.hclk ∧
    (c.eraseAllBut refused).keep.dock = c.keep.dock ∧ (c.eraseAllBut refused).keep.role = c.keep.role ∧
    (c.eraseAllBut refused).keep.inUse = c.keep.inUse ∧ (c.eraseAllBut refused).keep.marks = c.keep.marks ∧
    (c.eraseAllBut refused).keep.held = c.keep.held ∧ (c.eraseAllBut refused).keep.running = c.keep.running := by
  have mk : ∀ (d : Card) (p : KV Nat) (m : KV Unit), ({ d with media := { d.media with pointers := p, measured := m } } : Card).keep =
    d.keep := fun _ _ _ => rfl
  unfold Card.eraseAllBut
  dsimp only
  rw [mk]
  simp

@[simp] theorem Card.eraseAllBut_ok (c : Card) (refused : List BlockRef) (hk : c.keep.ok) : (c.eraseAllBut refused).keep.ok := by
  refine Keep.ok_of c _ hk ?_
  simp

@[simp] theorem Card.fencedReport_keeps (c : Card) (p : KV Nat) (n : Nat) (ok : Bool) :
    (c.fencedReport p n ok).keep.phase = c.keep.phase ∧ (c.fencedReport p n ok).keep.bytes = c.keep.bytes ∧
    (c.fencedReport p n ok).keep.place = c.keep.place ∧ (c.fencedReport p n ok).keep.lanes = c.keep.lanes ∧
    (c.fencedReport p n ok).keep.tread = c.keep.tread ∧ (c.fencedReport p n ok).keep.hclk = c.keep.hclk ∧
    (c.fencedReport p n ok).keep.dock = c.keep.dock ∧ (c.fencedReport p n ok).keep.role = c.keep.role ∧
    (c.fencedReport p n ok).keep.inUse = c.keep.inUse ∧ (c.fencedReport p n ok).keep.marks = c.keep.marks ∧
    (c.fencedReport p n ok).keep.held = c.keep.held ∧ (c.fencedReport p n ok).keep.running = c.keep.running := by
  unfold Card.fencedReport
  (try dsimp only)
  (repeat' split) <;> simp [Keep.parts]

@[simp] theorem Card.fencedReport_ok (c : Card) (p : KV Nat) (n : Nat) (ok : Bool) (hk : c.keep.ok) : (c.fencedReport p n ok).keep.ok := by
  refine Keep.ok_of c _ hk ?_
  simp

theorem Card.fencedReports_of {β : Type} (g : Keep → β) (h : ∀ c p n ok, g (Card.fencedReport c p n ok).keep = g c.keep)
    (p : KV Nat) (b : Nat → Bool) (l : List Nat) (c : Card) :
    g (l.foldl (fun x n => x.fencedReport p n (b n)) c).keep = g c.keep :=
  Keep.foldl_of g _ (fun c n => h c p n _) l c

/-- The reports of several dies at once leave alone what each leaves alone. -/
@[simp] theorem Card.fencedReports_keeps (p : KV Nat) (b : Nat → Bool) (l : List Nat) (c : Card) :
    (l.foldl (fun x n => x.fencedReport p n (b n)) c).keep.phase = c.keep.phase ∧
    (l.foldl (fun x n => x.fencedReport p n (b n)) c).keep.bytes = c.keep.bytes ∧
    (l.foldl (fun x n => x.fencedReport p n (b n)) c).keep.place = c.keep.place ∧
    (l.foldl (fun x n => x.fencedReport p n (b n)) c).keep.lanes = c.keep.lanes ∧
    (l.foldl (fun x n => x.fencedReport p n (b n)) c).keep.tread = c.keep.tread ∧
    (l.foldl (fun x n => x.fencedReport p n (b n)) c).keep.hclk = c.keep.hclk ∧
    (l.foldl (fun x n => x.fencedReport p n (b n)) c).keep.dock = c.keep.dock ∧
    (l.foldl (fun x n => x.fencedReport p n (b n)) c).keep.role = c.keep.role ∧
    (l.foldl (fun x n => x.fencedReport p n (b n)) c).keep.inUse = c.keep.inUse ∧
    (l.foldl (fun x n => x.fencedReport p n (b n)) c).keep.marks = c.keep.marks ∧
    (l.foldl (fun x n => x.fencedReport p n (b n)) c).keep.held = c.keep.held ∧
    (l.foldl (fun x n => x.fencedReport p n (b n)) c).keep.running = c.keep.running := by
  refine ⟨?_, ?_, ?_, ?_, ?_, ?_, ?_, ?_, ?_, ?_, ?_, ?_⟩ <;> exact Card.fencedReports_of _ (by simp) _ _ _ _

@[simp] theorem Card.serviceErase_keeps (c : Card) (r : EraseReport) :
    (c.serviceErase r).keep.phase = c.keep.phase ∧ (c.serviceErase r).keep.bytes = c.keep.bytes ∧
    (c.serviceErase r).keep.place = c.keep.place ∧ (c.serviceErase r).keep.lanes = c.keep.lanes ∧
    (c.serviceErase r).keep.tread = c.keep.tread ∧ (c.serviceErase r).keep.hclk = c.keep.hclk ∧
    (c.serviceErase r).keep.dock = c.keep.dock ∧ (c.serviceErase r).keep.role = c.keep.role ∧
    (c.serviceErase r).keep.inUse = c.keep.inUse ∧ (c.serviceErase r).keep.held = c.keep.held ∧
    (c.serviceErase r).keep.running = c.keep.running := by
  have go (d : Card) (x : Tag × Service) (hx : ∀ t, x ≠ (t, .swapCheck)) := Card.serviceStep_stays (d.setService (some x))
    (fun t e => hx t (Option.some.inj e))
  unfold Card.serviceErase
  (try dsimp only)
  (repeat' split) <;> simp [Keep.parts, go]

@[simp] theorem Card.serviceErase_ok (c : Card) (r : EraseReport) (hk : c.keep.ok) : (c.serviceErase r).keep.ok := by
  unfold Card.serviceErase
  split
  · exact hk
  · repeat' split
    all_goals try dsimp only
    all_goals first
      | exact hk
      | (simp [hk]; done)
      | (split <;> simp [hk]; done)
      | (refine Keep.ok_of c _ hk ?_; simp; done)
      | (refine Card.serviceStep_ok _ ?_
         rw [Card.setService_keep]
         refine Card.eraseAllBut_ok _ _ ?_
         rw [Keep.foldl]
         · exact hk
         · intros; simp)
      | (refine Card.endSanitize_ok _ _ _ ?_
         refine Card.eraseAllBut_ok _ _ ?_
         rw [Keep.foldl]
         · exact hk
         · intros; simp)

@[simp] theorem Card.programmed_keeps (c : Card) (k : Nat) (b : Bay) :
    (c.programmed k b).keep.bytes = c.keep.bytes ∧ (c.programmed k b).keep.cells = c.keep.cells ∧
    (c.programmed k b).keep.place = c.keep.place ∧ (c.programmed k b).keep.lanes = c.keep.lanes ∧
    (c.programmed k b).keep.tread = c.keep.tread ∧ (c.programmed k b).keep.hclk = c.keep.hclk ∧
    (c.programmed k b).keep.dock = c.keep.dock ∧ (c.programmed k b).keep.role = c.keep.role ∧
    (c.programmed k b).keep.inUse = c.keep.inUse := by
  unfold Card.programmed
  (try dsimp only)
  (repeat' split) <;> simp [Keep.parts]

@[simp] theorem Card.programmed_ok (c : Card) (k : Nat) (b : Bay) (hk : c.keep.ok) :
    (c.programmed k b).keep.ok := by
  unfold Card.programmed
  (try dsimp only)
  (repeat' split) <;> simp [hk]

@[simp] theorem Card.programEnd_keeps (c : Card) (k : Nat) (b : Bay) (r : ProgReport) :
    (c.programEnd k b r).keep.bytes = c.keep.bytes ∧ (c.programEnd k b r).keep.place = c.keep.place ∧
    (c.programEnd k b r).keep.lanes = c.keep.lanes ∧ (c.programEnd k b r).keep.tread = c.keep.tread ∧
    (c.programEnd k b r).keep.hclk = c.keep.hclk ∧ (c.programEnd k b r).keep.dock = c.keep.dock ∧
    (c.programEnd k b r).keep.role = c.keep.role ∧ (c.programEnd k b r).keep.inUse = c.keep.inUse := by
  unfold Card.programEnd
  (try dsimp only)
  (repeat' split) <;> simp [Keep.parts]

@[simp] theorem Card.programEnd_ok (c : Card) (k : Nat) (b : Bay) (r : ProgReport) (hk : c.keep.ok) :
    (c.programEnd k b r).keep.ok := by
  unfold Card.programEnd
  (try dsimp only)
  (repeat' split) <;> simp [hk]

@[simp] theorem Card.programTaken_keeps (c : Card) (h d : Nat) (r : ProgReport) :
    (c.programTaken h d r).keep.bytes = c.keep.bytes ∧ (c.programTaken h d r).keep.place = c.keep.place ∧
    (c.programTaken h d r).keep.lanes = c.keep.lanes ∧ (c.programTaken h d r).keep.tread = c.keep.tread ∧
    (c.programTaken h d r).keep.hclk = c.keep.hclk ∧ (c.programTaken h d r).keep.dock = c.keep.dock ∧
    (c.programTaken h d r).keep.role = c.keep.role ∧ (c.programTaken h d r).keep.inUse = c.keep.inUse := by
  unfold Card.programTaken
  (try dsimp only)
  (repeat' split) <;> simp [Keep.parts]

@[simp] theorem Card.programTaken_ok (c : Card) (h d : Nat) (r : ProgReport) (hk : c.keep.ok) :
    (c.programTaken h d r).keep.ok := by
  unfold Card.programTaken
  (try dsimp only)
  (repeat' split) <;> simp [hk]

@[simp] theorem Card.programDark_keeps (c : Card) (n : Nat) (r : ProgReport) :
    (c.programDark n r).keep.phase = c.keep.phase ∧ (c.programDark n r).keep.bytes = c.keep.bytes ∧
    (c.programDark n r).keep.place = c.keep.place ∧ (c.programDark n r).keep.lanes = c.keep.lanes ∧
    (c.programDark n r).keep.tread = c.keep.tread ∧ (c.programDark n r).keep.hclk = c.keep.hclk ∧
    (c.programDark n r).keep.dock = c.keep.dock ∧ (c.programDark n r).keep.role = c.keep.role ∧
    (c.programDark n r).keep.inUse = c.keep.inUse ∧ (c.programDark n r).keep.marks = c.keep.marks ∧
    (c.programDark n r).keep.held = c.keep.held ∧ (c.programDark n r).keep.running = c.keep.running := by
  unfold Card.programDark
  (try dsimp only)
  (repeat' split) <;> simp [Keep.parts]

@[simp] theorem Card.programDark_ok (c : Card) (n : Nat) (r : ProgReport) (hk : c.keep.ok) :
    (c.programDark n r).keep.ok := by
  refine Keep.ok_of c _ hk ?_
  simp

@[simp] theorem Card.programComplete_keeps (c : Card) (h d : Nat) (r : ProgReport) :
    (c.programComplete h d r).keep.bytes = c.keep.bytes ∧ (c.programComplete h d r).keep.place = c.keep.place ∧
    (c.programComplete h d r).keep.lanes = c.keep.lanes ∧ (c.programComplete h d r).keep.tread = c.keep.tread ∧
    (c.programComplete h d r).keep.hclk = c.keep.hclk ∧ (c.programComplete h d r).keep.dock = c.keep.dock ∧
    (c.programComplete h d r).keep.role = c.keep.role ∧ (c.programComplete h d r).keep.inUse = c.keep.inUse := by
  unfold Card.programComplete Card.dieReport
  (repeat' split) <;> simp

@[simp] theorem Card.programComplete_ok (c : Card) (h d : Nat) (r : ProgReport) (hk : c.keep.ok) :
    (c.programComplete h d r).keep.ok := by
  unfold Card.programComplete Card.dieReport
  (repeat' split) <;> simp [hk]

@[simp] theorem Card.eraseEnd_keeps (c : Card) (h d : Nat) (e : DieErase) (ok : Bool) :
    (c.eraseEnd h d e ok).keep.phase = c.keep.phase ∧ (c.eraseEnd h d e ok).keep.bytes = c.keep.bytes ∧
    (c.eraseEnd h d e ok).keep.place = c.keep.place ∧ (c.eraseEnd h d e ok).keep.lanes = c.keep.lanes ∧
    (c.eraseEnd h d e ok).keep.tread = c.keep.tread ∧ (c.eraseEnd h d e ok).keep.hclk = c.keep.hclk ∧
    (c.eraseEnd h d e ok).keep.dock = c.keep.dock ∧ (c.eraseEnd h d e ok).keep.role = c.keep.role ∧
    (c.eraseEnd h d e ok).keep.inUse = c.keep.inUse ∧ (c.eraseEnd h d e ok).keep.marks = c.keep.marks ∧
    (c.eraseEnd h d e ok).keep.held = c.keep.held ∧ (c.eraseEnd h d e ok).keep.running = c.keep.running := by
  unfold Card.eraseEnd
  (try dsimp only)
  (repeat' split) <;> simp [Keep.parts]

@[simp] theorem Card.eraseEnd_ok (c : Card) (h d : Nat) (e : DieErase) (ok : Bool) (hk : c.keep.ok) :
    (c.eraseEnd h d e ok).keep.ok := by
  refine Keep.ok_of c _ hk ?_
  simp

@[simp] theorem Card.eraseTaken_keeps (c : Card) (h d : Nat) (ok : Bool) :
    (c.eraseTaken h d ok).keep.phase = c.keep.phase ∧ (c.eraseTaken h d ok).keep.bytes = c.keep.bytes ∧
    (c.eraseTaken h d ok).keep.place = c.keep.place ∧ (c.eraseTaken h d ok).keep.lanes = c.keep.lanes ∧
    (c.eraseTaken h d ok).keep.tread = c.keep.tread ∧ (c.eraseTaken h d ok).keep.hclk = c.keep.hclk ∧
    (c.eraseTaken h d ok).keep.dock = c.keep.dock ∧ (c.eraseTaken h d ok).keep.role = c.keep.role ∧
    (c.eraseTaken h d ok).keep.inUse = c.keep.inUse ∧ (c.eraseTaken h d ok).keep.marks = c.keep.marks ∧
    (c.eraseTaken h d ok).keep.held = c.keep.held ∧ (c.eraseTaken h d ok).keep.running = c.keep.running := by
  unfold Card.eraseTaken
  (try dsimp only)
  (repeat' split) <;> simp [Keep.parts]

@[simp] theorem Card.eraseTaken_ok (c : Card) (h d : Nat) (ok : Bool) (hk : c.keep.ok) :
    (c.eraseTaken h d ok).keep.ok := by
  refine Keep.ok_of c _ hk ?_
  simp

@[simp] theorem Card.eraseComplete_keeps (c : Card) (r : EraseReport) :
    (c.eraseComplete r).keep.phase = c.keep.phase ∧ (c.eraseComplete r).keep.bytes = c.keep.bytes ∧
    (c.eraseComplete r).keep.place = c.keep.place ∧ (c.eraseComplete r).keep.lanes = c.keep.lanes ∧
    (c.eraseComplete r).keep.tread = c.keep.tread ∧ (c.eraseComplete r).keep.hclk = c.keep.hclk ∧
    (c.eraseComplete r).keep.dock = c.keep.dock ∧ (c.eraseComplete r).keep.role = c.keep.role ∧
    (c.eraseComplete r).keep.inUse = c.keep.inUse ∧ (c.eraseComplete r).keep.held = c.keep.held ∧
    (c.eraseComplete r).keep.running = c.keep.running := by
  unfold Card.eraseComplete Card.dieReport
  (repeat' split) <;> simp

@[simp] theorem Card.eraseComplete_ok (c : Card) (r : EraseReport) (hk : c.keep.ok) : (c.eraseComplete r).keep.ok := by
  unfold Card.eraseComplete Card.dieReport
  (repeat' split) <;> simp [hk]

@[simp] theorem Card.takeLate_keeps (c : Card) (n : Nat) :
    (c.takeLate n).keep.bytes = c.keep.bytes ∧ (c.takeLate n).keep.place = c.keep.place ∧
    (c.takeLate n).keep.lanes = c.keep.lanes ∧ (c.takeLate n).keep.tread = c.keep.tread ∧
    (c.takeLate n).keep.hclk = c.keep.hclk ∧ (c.takeLate n).keep.dock = c.keep.dock ∧
    (c.takeLate n).keep.role = c.keep.role ∧ (c.takeLate n).keep.inUse = c.keep.inUse := by
  unfold Card.takeLate
  (try dsimp only)
  (repeat' split) <;> simp [Keep.parts]

@[simp] theorem Card.takeLate_ok (c : Card) (n : Nat) (hk : c.keep.ok) :
    (c.takeLate n).keep.ok := by
  unfold Card.takeLate
  (try dsimp only)
  (repeat' split) <;> simp [hk]

@[simp] theorem Card.takeAllLate_keeps (c : Card) :
    c.takeAllLate.keep.bytes = c.keep.bytes ∧ c.takeAllLate.keep.place = c.keep.place ∧
    c.takeAllLate.keep.lanes = c.keep.lanes ∧ c.takeAllLate.keep.tread = c.keep.tread ∧
    c.takeAllLate.keep.hclk = c.keep.hclk ∧ c.takeAllLate.keep.dock = c.keep.dock ∧
    c.takeAllLate.keep.role = c.keep.role ∧ c.takeAllLate.keep.inUse = c.keep.inUse := by
  unfold Card.takeAllLate
  rw [Card.pumpAll_keep]
  refine ⟨?_, ?_, ?_, ?_, ?_, ?_, ?_, ?_⟩
  · exact Keep.foldl_of Keep.bytes _ (by simp) _ _
  · exact Keep.foldl_of Keep.place _ (by simp) _ _
  · exact Keep.foldl_of Keep.lanes _ (by simp) _ _
  · exact Keep.foldl_of Keep.tread _ (by simp) _ _
  · exact Keep.foldl_of Keep.hclk _ (by simp) _ _
  · exact Keep.foldl_of Keep.dock _ (by simp) _ _
  · exact Keep.foldl_of Keep.role _ (by simp) _ _
  · exact Keep.foldl_of Keep.inUse _ (by simp) _ _

@[simp] theorem Card.takeAllLate_ok (c : Card) (hk : c.keep.ok) : c.takeAllLate.keep.ok := by
  unfold Card.takeAllLate
  rw [Card.pumpAll_keep]
  exact Keep.foldl_ok _ (fun c n => Card.takeLate_ok c n) _ _ hk

@[simp] theorem Card.tearPage_keeps (c : Card) (k : Nat) :
    (c.tearPage k).keep.phase = c.keep.phase ∧ (c.tearPage k).keep.bytes = c.keep.bytes ∧
    (c.tearPage k).keep.place = c.keep.place ∧ (c.tearPage k).keep.lanes = c.keep.lanes ∧
    (c.tearPage k).keep.tread = c.keep.tread ∧ (c.tearPage k).keep.hclk = c.keep.hclk ∧
    (c.tearPage k).keep.dock = c.keep.dock ∧ (c.tearPage k).keep.role = c.keep.role ∧
    (c.tearPage k).keep.inUse = c.keep.inUse ∧ (c.tearPage k).keep.marks = c.keep.marks ∧
    (c.tearPage k).keep.held = c.keep.held ∧ (c.tearPage k).keep.running = c.keep.running := by
  unfold Card.tearPage
  (try dsimp only)
  (repeat' split) <;> simp [Keep.parts]

@[simp] theorem Card.tearPage_ok (c : Card) (k : Nat) (hk : c.keep.ok) :
    (c.tearPage k).keep.ok := by
  refine Keep.ok_of c _ hk ?_
  simp

@[simp] theorem Card.resetDie_keeps (c : Card) (x : HallReset) (h d : Nat) :
    (c.resetDie x h d).1.keep.phase = c.keep.phase ∧ (c.resetDie x h d).1.keep.bytes = c.keep.bytes ∧
    (c.resetDie x h d).1.keep.place = c.keep.place ∧ (c.resetDie x h d).1.keep.lanes = c.keep.lanes ∧
    (c.resetDie x h d).1.keep.tread = c.keep.tread ∧ (c.resetDie x h d).1.keep.hclk = c.keep.hclk ∧
    (c.resetDie x h d).1.keep.dock = c.keep.dock ∧ (c.resetDie x h d).1.keep.role = c.keep.role ∧
    (c.resetDie x h d).1.keep.inUse = c.keep.inUse ∧ (c.resetDie x h d).1.keep.marks = c.keep.marks ∧
    (c.resetDie x h d).1.keep.held = c.keep.held ∧ (c.resetDie x h d).1.keep.running = c.keep.running := by
  unfold Card.resetDie
  (try dsimp only)
  (repeat' split) <;> simp [Keep.parts]

@[simp] theorem Card.resetDie_ok (c : Card) (x : HallReset) (h d : Nat) (hk : c.keep.ok) :
    (c.resetDie x h d).1.keep.ok := by
  refine Keep.ok_of c _ hk ?_
  simp

theorem Card.resetDies_of {β : Type} (g : Keep → β) (hg : ∀ (c : Card) x h d, g (c.resetDie x h d).1.keep = g c.keep)
    (h : Nat)
    (l : List Nat) (y : Card × HallReset) :
    g (l.foldl (fun (y : Card × HallReset) i => y.1.resetDie y.2 h i) y).1.keep = g y.1.keep := by
  induction l generalizing y with
  | nil => rfl
  | cons a r ih => rw [List.foldl_cons, ih, hg]

/-- What a hall reset does to no die it does not do to the card. -/
theorem Card.beginReset_of {β : Type} (g : Keep → β) (hg : ∀ (c : Card) x h d, g (c.resetDie x h d).1.keep = g c.keep)
    (c : Card) (h d : Nat) (again : List Desc) : g (c.beginReset h d again).keep = g c.keep := by
  have mk : ∀ (y : Card × HallReset) (z : KV HallReset) (a : List Action),
      ({ y.1 with halls := { y.1.halls with resets := z }, flights := { y.1.flights with acts := a } } : Card).keep =
        y.1.keep := fun _ _ _ => rfl
  unfold Card.beginReset
  generalize allHalls = l
  dsimp only
  rw [mk, Card.resetDies_of g hg, Card.ev_keep, Card.bump_keep]

@[simp] theorem Card.beginReset_keeps (c : Card) (h d : Nat) (again : List Desc) :
    (c.beginReset h d again).keep.phase = c.keep.phase ∧ (c.beginReset h d again).keep.bytes = c.keep.bytes ∧
    (c.beginReset h d again).keep.place = c.keep.place ∧ (c.beginReset h d again).keep.lanes = c.keep.lanes ∧
    (c.beginReset h d again).keep.tread = c.keep.tread ∧ (c.beginReset h d again).keep.hclk = c.keep.hclk ∧
    (c.beginReset h d again).keep.dock = c.keep.dock ∧ (c.beginReset h d again).keep.role = c.keep.role ∧
    (c.beginReset h d again).keep.inUse = c.keep.inUse ∧ (c.beginReset h d again).keep.marks = c.keep.marks ∧
    (c.beginReset h d again).keep.held = c.keep.held ∧ (c.beginReset h d again).keep.running = c.keep.running := by
  refine ⟨?_, ?_, ?_, ?_, ?_, ?_, ?_, ?_, ?_, ?_, ?_, ?_⟩
  · exact Card.beginReset_of Keep.phase (by simp) _ _ _ _
  · exact Card.beginReset_of Keep.bytes (by simp) _ _ _ _
  · exact Card.beginReset_of Keep.place (by simp) _ _ _ _
  · exact Card.beginReset_of Keep.lanes (by simp) _ _ _ _
  · exact Card.beginReset_of Keep.tread (by simp) _ _ _ _
  · exact Card.beginReset_of Keep.hclk (by simp) _ _ _ _
  · exact Card.beginReset_of Keep.dock (by simp) _ _ _ _
  · exact Card.beginReset_of Keep.role (by simp) _ _ _ _
  · exact Card.beginReset_of Keep.inUse (by simp) _ _ _ _
  · exact Card.beginReset_of Keep.marks (by simp) _ _ _ _
  · exact Card.beginReset_of Keep.held (by simp) _ _ _ _
  · exact Card.beginReset_of Keep.running (by simp) _ _ _ _

@[simp] theorem Card.beginReset_ok (c : Card) (h d : Nat) (again : List Desc) (hk : c.keep.ok) :
    (c.beginReset h d again).keep.ok := by
  refine Keep.ok_of c _ hk ?_
  simp

@[simp] theorem Card.dropHung_keeps (c : Card) (o : HungWork) :
    (c.dropHung o).keep.phase = c.keep.phase ∧ (c.dropHung o).keep.bytes = c.keep.bytes ∧
    (c.dropHung o).keep.place = c.keep.place ∧ (c.dropHung o).keep.lanes = c.keep.lanes ∧
    (c.dropHung o).keep.tread = c.keep.tread ∧ (c.dropHung o).keep.hclk = c.keep.hclk ∧
    (c.dropHung o).keep.dock = c.keep.dock ∧ (c.dropHung o).keep.role = c.keep.role ∧
    (c.dropHung o).keep.inUse = c.keep.inUse ∧ (c.dropHung o).keep.marks = c.keep.marks ∧
    (c.dropHung o).keep.held = c.keep.held ∧ (c.dropHung o).keep.running = c.keep.running := by
  unfold Card.dropHung
  (try dsimp only)
  (repeat' split) <;> simp [Keep.parts]

@[simp] theorem Card.dropHung_ok (c : Card) (o : HungWork) (hk : c.keep.ok) :
    (c.dropHung o).keep.ok := by
  refine Keep.ok_of c _ hk ?_
  simp

@[simp] theorem Card.descriptorHung_keeps (c : Card) (h d : Nat) :
    (c.descriptorHung h d).keep.phase = c.keep.phase ∧ (c.descriptorHung h d).keep.bytes = c.keep.bytes ∧
    (c.descriptorHung h d).keep.place = c.keep.place ∧ (c.descriptorHung h d).keep.lanes = c.keep.lanes ∧
    (c.descriptorHung h d).keep.tread = c.keep.tread ∧ (c.descriptorHung h d).keep.hclk = c.keep.hclk ∧
    (c.descriptorHung h d).keep.dock = c.keep.dock ∧ (c.descriptorHung h d).keep.role = c.keep.role ∧
    (c.descriptorHung h d).keep.inUse = c.keep.inUse ∧ (c.descriptorHung h d).keep.marks = c.keep.marks ∧
    (c.descriptorHung h d).keep.held = c.keep.held ∧ (c.descriptorHung h d).keep.running = c.keep.running := by
  unfold Card.descriptorHung
  (try dsimp only)
  (repeat' split) <;> simp [Keep.parts]

@[simp] theorem Card.descriptorHung_ok (c : Card) (h d : Nat) (hk : c.keep.ok) :
    (c.descriptorHung h d).keep.ok := by
  refine Keep.ok_of c _ hk ?_
  simp

@[simp] theorem Card.goReady_keeps (c : Card) (n : Nat) :
    (c.goReady n).keep.phase = c.keep.phase ∧ (c.goReady n).keep.bytes = c.keep.bytes ∧
    (c.goReady n).keep.cells = c.keep.cells ∧ (c.goReady n).keep.place = c.keep.place ∧
    (c.goReady n).keep.tread = c.keep.tread ∧ (c.goReady n).keep.hclk = c.keep.hclk ∧
    (c.goReady n).keep.dock = c.keep.dock ∧ (c.goReady n).keep.role = c.keep.role ∧
    (c.goReady n).keep.inUse = c.keep.inUse ∧ (c.goReady n).keep.marks = c.keep.marks ∧
    (c.goReady n).keep.held = c.keep.held ∧ (c.goReady n).keep.running = c.keep.running := by
  unfold Card.goReady
  (try dsimp only)
  (repeat' split) <;> simp [Keep.parts]

@[simp] theorem Card.goReady_ok (c : Card) (n : Nat) (hk : c.keep.ok) (hn : n = 1 ∨ n = 2 ∨ n = 4) :
    (c.goReady n).keep.ok := by
  obtain ⟨h1, h2, h3, h4, h5, h6, h7⟩ := hk
  have hl : (c.goReady n).keep.lanes = n := by simp [Card.goReady]
  unfold Keep.ok
  rw [hl]
  simp only [Card.goReady_keeps]
  exact ⟨h1, h2, h3, Or.inr hn, h5, h6, h7⟩

@[simp] theorem Card.firstMarker_keeps (c : Card) :
    c.firstMarker.keep.bytes = c.keep.bytes ∧ c.firstMarker.keep.cells = c.keep.cells ∧
    c.firstMarker.keep.place = c.keep.place ∧ c.firstMarker.keep.lanes = c.keep.lanes ∧
    c.firstMarker.keep.tread = c.keep.tread ∧ c.firstMarker.keep.hclk = c.keep.hclk ∧
    c.firstMarker.keep.dock = c.keep.dock ∧ c.firstMarker.keep.role = c.keep.role ∧
    c.firstMarker.keep.inUse = c.keep.inUse ∧ c.firstMarker.keep.marks = c.keep.marks ∧
    c.firstMarker.keep.held = c.keep.held ∧ c.firstMarker.keep.running = c.keep.running := by
  unfold Card.firstMarker
  (try dsimp only)
  (repeat' split) <;> simp [Keep.parts]

@[simp] theorem Card.firstMarker_ok (c : Card) (hk : c.keep.ok) : (c.firstMarker).keep.ok := by
  have mk : ∀ (d : Card) (m : LinkMode) (b : Bool),
    ({ d with link := { d.link with mode := m, hostTrains := b } } : Card).keep =
    d.keep := fun _ _ _ => rfl
  unfold Card.firstMarker
  split
  · split
    · dsimp only
      rw [Card.payOwed_keep]
      split
      · refine Card.enter_ok _ _ ?_ (by simp_all)
        rw [mk]; exact hk
      · exact hk
    · exact hk
  · exact hk

@[simp] theorem Card.setPower_keeps (c : Card) (p : Power) :
    (c.setPower p).keep.phase = c.keep.phase ∧ (c.setPower p).keep.bytes = c.keep.bytes ∧
    (c.setPower p).keep.cells = c.keep.cells ∧ (c.setPower p).keep.place = c.keep.place ∧
    (c.setPower p).keep.lanes = c.keep.lanes ∧ (c.setPower p).keep.tread = c.keep.tread ∧
    (c.setPower p).keep.hclk = p.hclk ∧ (c.setPower p).keep.dock = p.dock ∧
    (c.setPower p).keep.role = c.keep.role ∧ (c.setPower p).keep.inUse = c.keep.inUse ∧
    (c.setPower p).keep.marks = c.keep.marks ∧ (c.setPower p).keep.held = c.keep.held ∧
    (c.setPower p).keep.running = c.keep.running := by
  simp [Card.setPower, Keep.parts]

@[simp] theorem Card.setPower_ok (c : Card) (p : Power) (hk : c.keep.ok) : (c.setPower p).keep.ok := hk

@[simp] theorem Card.drainPrograms_keeps (c : Card) :
    c.drainPrograms.keep.phase = c.keep.phase ∧ c.drainPrograms.keep.bytes = c.keep.bytes ∧
    c.drainPrograms.keep.place = c.keep.place ∧ c.drainPrograms.keep.lanes = c.keep.lanes ∧
    c.drainPrograms.keep.tread = c.keep.tread ∧ c.drainPrograms.keep.hclk = c.keep.hclk ∧
    c.drainPrograms.keep.dock = c.keep.dock ∧ c.drainPrograms.keep.role = c.keep.role ∧
    c.drainPrograms.keep.inUse = c.keep.inUse ∧ c.drainPrograms.keep.marks = c.keep.marks ∧
    c.drainPrograms.keep.held = c.keep.held ∧ c.drainPrograms.keep.running = c.keep.running := by
  unfold Card.drainPrograms
  refine ⟨?_, ?_, ?_, ?_, ?_, ?_, ?_, ?_, ?_, ?_, ?_, ?_⟩
  · exact Keep.foldl_of Keep.phase _ (fun c x => by split <;> simp) _ _
  · exact Keep.foldl_of Keep.bytes _ (fun c x => by split <;> simp) _ _
  · exact Keep.foldl_of Keep.place _ (fun c x => by split <;> simp) _ _
  · exact Keep.foldl_of Keep.lanes _ (fun c x => by split <;> simp) _ _
  · exact Keep.foldl_of Keep.tread _ (fun c x => by split <;> simp) _ _
  · exact Keep.foldl_of Keep.hclk _ (fun c x => by split <;> simp) _ _
  · exact Keep.foldl_of Keep.dock _ (fun c x => by split <;> simp) _ _
  · exact Keep.foldl_of Keep.role _ (fun c x => by split <;> simp) _ _
  · exact Keep.foldl_of Keep.inUse _ (fun c x => by split <;> simp) _ _
  · exact Keep.foldl_of Keep.marks _ (fun c x => by split <;> simp) _ _
  · exact Keep.foldl_of Keep.held _ (fun c x => by split <;> simp) _ _
  · exact Keep.foldl_of Keep.running _ (fun c x => by split <;> simp) _ _

@[simp] theorem Card.drainPrograms_ok (c : Card) (hk : c.keep.ok) :
    c.drainPrograms.keep.ok := by
  refine Keep.ok_of c _ hk ?_
  simp

@[simp] theorem Card.afresh_keeps (c : Card) :
    c.afresh.keep.phase = .absent ∧ c.afresh.keep.bytes = c.keep.bytes ∧ c.afresh.keep.cells = c.keep.cells ∧
    c.afresh.keep.place = (0, 0) ∧ c.afresh.keep.lanes = 0 ∧ c.afresh.keep.tread = 0 ∧
    c.afresh.keep.hclk = c.keep.hclk ∧ c.afresh.keep.dock = false ∧ c.afresh.keep.role = .solo ∧
    c.afresh.keep.inUse = none ∧ c.afresh.keep.marks = [] ∧ c.afresh.keep.held = [] ∧ c.afresh.keep.running = [] :=
  ⟨rfl, rfl, rfl, rfl, rfl, rfl, rfl, rfl, rfl, rfl, rfl, rfl, rfl⟩

@[simp] theorem Card.afresh_ok (c : Card) (hk : c.keep.ok) : (c.afresh).keep.ok := by
  obtain ⟨h1, h2, -⟩ := hk
  exact ⟨h1, h2, (by decide : (0#4).toNat = (0#12).toNat / 256), Or.inl rfl, by simp, by simp, fun _ => ⟨rfl, rfl, rfl⟩⟩

@[simp] theorem Card.softStartEnd_keeps (c : Card) :
    c.softStartEnd.keep.bytes = c.keep.bytes ∧ c.softStartEnd.keep.hclk = c.keep.hclk := by
  unfold Card.softStartEnd
  split <;> simp

@[simp] theorem Card.softStartEnd_ok (c : Card) (hk : c.keep.ok) : (c.softStartEnd).keep.ok := by
  unfold Card.softStartEnd
  split
  · rw [Card.holdUnclocked_keep]
    exact Card.enter_empty_ok _ _ (Card.afresh_ok _ (Card.drainPrograms_ok c hk)) (by simp)
  · exact hk

@[simp] theorem Card.latch_keeps (c : Card) (k : ReadKind) (v : StrapSet) :
    (c.latch k v).keep.phase = c.keep.phase ∧ (c.latch k v).keep.bytes = c.keep.bytes ∧
    (c.latch k v).keep.cells = c.keep.cells ∧ (c.latch k v).keep.lanes = c.keep.lanes ∧
    (c.latch k v).keep.tread = c.keep.tread ∧ (c.latch k v).keep.hclk = c.keep.hclk ∧
    (c.latch k v).keep.dock = c.keep.dock ∧ (c.latch k v).keep.inUse = c.keep.inUse ∧
    (c.latch k v).keep.marks = c.keep.marks ∧ (c.latch k v).keep.held = c.keep.held ∧
    (c.latch k v).keep.running = c.keep.running := by
  unfold Card.latch
  (try dsimp only)
  (repeat' split) <;> simp [Keep.parts]

@[simp] theorem Card.latch_ok (c : Card) (k : ReadKind) (v : StrapSet) (hk : c.keep.ok) : (c.latch k v).keep.ok := by
  obtain ⟨h1, h2, h3, h4, h5, h6, h7⟩ := hk
  unfold Card.latch
  simp only [Card.ev_keep]
  have g : (groupOf v).toNat = (slotOf v).toNat / 256 := by
    have := (slotOf v).isLt
    simp only [groupOf, BitVec.toNat_ofNat]
    omega
  cases k
  · exact ⟨h1, h2, g, h4, h5, h6, h7⟩
  · exact ⟨h1, h2, g, h4, h5, h6, h7⟩
  · exact ⟨h1, h2, h3, h4, h5, h6, h7⟩

@[simp] theorem Card.startLoading_keeps (c : Card) :
    c.startLoading.keep.bytes = c.keep.bytes ∧ c.startLoading.keep.cells = c.keep.cells ∧
    c.startLoading.keep.place = c.keep.place ∧ c.startLoading.keep.lanes = c.keep.lanes ∧
    c.startLoading.keep.tread = c.keep.tread ∧ c.startLoading.keep.hclk = c.keep.hclk ∧
    c.startLoading.keep.dock = c.keep.dock ∧ c.startLoading.keep.role = c.keep.role ∧
    c.startLoading.keep.inUse = c.keep.inUse ∧ c.startLoading.keep.marks = c.keep.marks ∧
    c.startLoading.keep.held = c.keep.held ∧ c.startLoading.keep.running = c.keep.running := by
  unfold Card.startLoading
  (try dsimp only)
  (repeat' split) <;> simp [Keep.parts]

@[simp] theorem Card.startLoading_ok (c : Card) (hk : c.keep.ok) : (c.startLoading).keep.ok := by
  unfold Card.startLoading
  split
  · exact hk
  · exact Card.enter_ok _ _ hk (by simp_all)

@[simp] theorem Card.takeMountRead_keeps (c : Card) :
    c.takeMountRead.keep.phase = c.keep.phase ∧ c.takeMountRead.keep.bytes = c.keep.bytes ∧
    c.takeMountRead.keep.cells = c.keep.cells ∧ c.takeMountRead.keep.lanes = c.keep.lanes ∧
    c.takeMountRead.keep.tread = c.keep.tread ∧ c.takeMountRead.keep.hclk = c.keep.hclk ∧
    c.takeMountRead.keep.dock = c.keep.dock ∧ c.takeMountRead.keep.inUse = c.keep.inUse ∧
    c.takeMountRead.keep.marks = c.keep.marks ∧ c.takeMountRead.keep.held = c.keep.held ∧
    c.takeMountRead.keep.running = c.keep.running := by
  unfold Card.takeMountRead
  (try dsimp only)
  (repeat' split) <;> simp [Keep.parts]

@[simp] theorem Card.takeMountRead_ok (c : Card) (hk : c.keep.ok) : (c.takeMountRead).keep.ok := hk

@[simp] theorem Card.endRead_keeps (c : Card) (k : ReadKind) (v : StrapSet) :
    (c.endRead k v).keep.bytes = c.keep.bytes ∧ (c.endRead k v).keep.cells = c.keep.cells ∧
    (c.endRead k v).keep.lanes = c.keep.lanes ∧ (c.endRead k v).keep.tread = c.keep.tread ∧
    (c.endRead k v).keep.hclk = c.keep.hclk ∧ (c.endRead k v).keep.dock = c.keep.dock ∧
    (c.endRead k v).keep.inUse = c.keep.inUse := by
  unfold Card.endRead
  (try dsimp only)
  (repeat' split) <;> simp [Keep.parts]

@[simp] theorem Card.endRead_ok (c : Card) (k : ReadKind) (v : StrapSet) (hk : c.keep.ok) :
    (c.endRead k v).keep.ok := by
  unfold Card.endRead
  (try dsimp only)
  (repeat' split) <;> simp [hk]

@[simp] theorem Card.strapPass_keeps (c : Card) (p : StrapPass) :
    (c.strapPass p).keep.bytes = c.keep.bytes ∧ (c.strapPass p).keep.cells = c.keep.cells ∧
    (c.strapPass p).keep.lanes = c.keep.lanes ∧ (c.strapPass p).keep.tread = c.keep.tread ∧
    (c.strapPass p).keep.hclk = c.keep.hclk ∧ (c.strapPass p).keep.dock = c.keep.dock ∧
    (c.strapPass p).keep.inUse = c.keep.inUse := by
  unfold Card.strapPass
  (try dsimp only)
  (repeat' split) <;> simp [Keep.parts]

@[simp] theorem Card.strapPass_ok (c : Card) (p : StrapPass) (hk : c.keep.ok) : (c.strapPass p).keep.ok := by
  unfold Card.strapPass
  (try dsimp only)
  (repeat' split) <;> first
    | exact hk
    | simp_all

@[simp] theorem Card.loadFault_keeps (c : Card) :
    c.loadFault.keep.bytes = c.keep.bytes ∧ c.loadFault.keep.cells = c.keep.cells ∧
    c.loadFault.keep.place = c.keep.place ∧ c.loadFault.keep.lanes = c.keep.lanes ∧
    c.loadFault.keep.tread = c.keep.tread ∧ c.loadFault.keep.hclk = c.keep.hclk ∧
    c.loadFault.keep.dock = c.keep.dock ∧ c.loadFault.keep.role = c.keep.role ∧
    c.loadFault.keep.inUse = c.keep.inUse ∧ c.loadFault.keep.marks = c.keep.marks ∧
    c.loadFault.keep.held = c.keep.held ∧ c.loadFault.keep.running = c.keep.running := by
  unfold Card.loadFault
  (try dsimp only)
  (repeat' split) <;> simp [Keep.parts]

theorem Card.loadFault_ok (c : Card) (hn : c.phase ≠ .mounted) (hk : c.keep.ok) : c.loadFault.keep.ok := by
  unfold Card.loadFault
  rw [Card.firstTraining_keep]
  exact Card.enter_ok _ _ hk hn

@[simp] theorem Card.copyComplete_keeps (c : Card) :
    c.copyComplete.keep.cells = c.keep.cells ∧ c.copyComplete.keep.place = c.keep.place ∧
    c.copyComplete.keep.lanes = c.keep.lanes ∧ c.copyComplete.keep.tread = c.keep.tread ∧
    c.copyComplete.keep.hclk = c.keep.hclk ∧ c.copyComplete.keep.dock = c.keep.dock ∧
    c.copyComplete.keep.role = c.keep.role ∧ c.copyComplete.keep.marks = c.keep.marks ∧
    c.copyComplete.keep.held = c.keep.held ∧ c.copyComplete.keep.running = c.keep.running := by
  unfold Card.copyComplete
  (try dsimp only)
  (repeat' split) <;> simp [Keep.parts]

@[simp] theorem Card.copyComplete_ok (c : Card) (hk : c.keep.ok) : (c.copyComplete).keep.ok := by
  have mk : ∀ (d : Card) (a : Alcove), d.keep.ok → a.memA = d.alcove.memA → a.memB = d.alcove.memB →
      ({ d with alcove := a } : Card).keep.ok := by
    intro d a h ha hb
    obtain ⟨h1, h2, h3⟩ := h
    refine ⟨?_, ?_, h3⟩
    · show a.memA.wf = true
      rw [ha]
      exact h1
    · show a.memB.wf = true
      rw [hb]
      exact h2
  unfold Card.copyComplete
  split
  · next hp =>
    have hn : c.phase ≠ .mounted := by rw [hp.1]; decide
    dsimp only
    repeat' split
    · rw [Card.firstTraining_keep]
      exact Card.enter_ok _ _ (mk _ _ hk rfl rfl) hn
    · exact Card.loadFault_ok _ hn (mk _ _ hk rfl rfl)
    · exact Card.loadFault_ok _ hn (mk _ _ hk rfl rfl)
    · exact mk _ _ hk rfl rfl
    · exact hk
  · exact hk

@[simp] theorem Card.cutAlcove_keeps (c : Card) :
    c.cutAlcove.keep.phase = c.keep.phase ∧ c.cutAlcove.keep.cells = c.keep.cells ∧
    c.cutAlcove.keep.place = c.keep.place ∧ c.cutAlcove.keep.lanes = c.keep.lanes ∧
    c.cutAlcove.keep.tread = c.keep.tread ∧ c.cutAlcove.keep.hclk = c.keep.hclk ∧
    c.cutAlcove.keep.dock = c.keep.dock ∧ c.cutAlcove.keep.role = c.keep.role ∧
    c.cutAlcove.keep.marks = c.keep.marks ∧ c.cutAlcove.keep.held = c.keep.held ∧
    c.cutAlcove.keep.running = c.keep.running := by
  unfold Card.cutAlcove
  (try dsimp only)
  (repeat' split) <;> simp [Keep.parts]

@[simp] theorem Card.cutAlcove_ok (c : Card) (hk : c.keep.ok) :
    c.cutAlcove.keep.ok := by
  unfold Card.cutAlcove
  (try dsimp only)
  (repeat' split) <;> simp [hk]

@[simp] theorem Card.keepLate_keeps (c : Card) (n : Nat) :
    (c.keepLate n).keep.phase = c.keep.phase ∧ (c.keepLate n).keep.bytes = c.keep.bytes ∧
    (c.keepLate n).keep.place = c.keep.place ∧ (c.keepLate n).keep.lanes = c.keep.lanes ∧
    (c.keepLate n).keep.tread = c.keep.tread ∧ (c.keepLate n).keep.hclk = c.keep.hclk ∧
    (c.keepLate n).keep.dock = c.keep.dock ∧ (c.keepLate n).keep.role = c.keep.role ∧
    (c.keepLate n).keep.inUse = c.keep.inUse ∧ (c.keepLate n).keep.marks = c.keep.marks ∧
    (c.keepLate n).keep.held = c.keep.held ∧ (c.keepLate n).keep.running = c.keep.running := by
  unfold Card.keepLate
  (try dsimp only)
  (repeat' split) <;> simp [Keep.parts]

@[simp] theorem Card.keepLate_ok (c : Card) (n : Nat) (hk : c.keep.ok) :
    (c.keepLate n).keep.ok := by
  refine Keep.ok_of c _ hk ?_
  simp

@[simp] theorem Card.keepLates_keeps (l : List Nat) (c : Card) :
    (l.foldl Card.keepLate c).keep.place = c.keep.place ∧ (l.foldl Card.keepLate c).keep.tread = c.keep.tread ∧
    (l.foldl Card.keepLate c).keep.bytes = c.keep.bytes ∧ (l.foldl Card.keepLate c).keep.hclk = c.keep.hclk := by
  refine ⟨?_, ?_, ?_, ?_⟩
  · exact Keep.foldl_of Keep.place _ (by simp) _ _
  · exact Keep.foldl_of Keep.tread _ (by simp) _ _
  · exact Keep.foldl_of Keep.bytes _ (by simp) _ _
  · exact Keep.foldl_of Keep.hclk _ (by simp) _ _

@[simp] theorem Card.powerLoss_keeps (c : Card) :
    c.powerLoss.keep.phase = .absent ∧ c.powerLoss.keep.place = c.keep.place ∧ c.powerLoss.keep.lanes = 0 ∧
    c.powerLoss.keep.tread = c.keep.tread ∧ c.powerLoss.keep.dock = false ∧ c.powerLoss.keep.role = .solo ∧
    c.powerLoss.keep.inUse = none ∧ c.powerLoss.keep.marks = [] ∧ c.powerLoss.keep.held = [] ∧
    c.powerLoss.keep.running = [] := by
  have e : ((((c.halls.dies.map Prod.fst).foldl Card.keepLate c.dropWrong).cutAlcove.dropMap).enter .absent).keep.phase =
      .absent ∧ ((((c.halls.dies.map Prod.fst).foldl Card.keepLate c.dropWrong).cutAlcove.dropMap).enter .absent).keep.place =
      c.keep.place ∧ ((((c.halls.dies.map Prod.fst).foldl Card.keepLate c.dropWrong).cutAlcove.dropMap).enter
      .absent).keep.tread = c.keep.tread := by simp
  unfold Card.powerLoss
  dsimp only
  generalize (((c.halls.dies.map Prod.fst).foldl Card.keepLate c.dropWrong).cutAlcove.dropMap).enter .absent = d at e ⊢
  exact ⟨e.1, e.2.1, rfl, e.2.2, rfl, rfl, rfl, rfl, rfl, rfl⟩

@[simp] theorem Card.powerLoss_ok (c : Card) (hk : c.keep.ok) : (c.powerLoss).keep.ok := by
  have h := Keep.foldl_ok Card.keepLate (fun c n => Card.keepLate_ok c n) (c.halls.dies.map Prod.fst) c.dropWrong
    (by simpa using hk)
  have h' := Card.enter_empty_ok _ .absent (Card.dropMap_ok _ (Card.cutAlcove_ok _ h)) (Card.dropMap_empty _)
  unfold Card.powerLoss
  dsimp only
  generalize Card.enter _ .absent = d at h' ⊢
  obtain ⟨h1, h2, h3, -⟩ := h'
  exact ⟨h1, h2, h3, Or.inl rfl, Nat.zero_le _, Nat.zero_le _, fun _ => ⟨rfl, rfl, rfl⟩⟩

@[simp] theorem Card.pdcBreak_keeps (c : Card) :
    c.pdcBreak.keep.phase = .absent ∧ c.pdcBreak.keep.place = c.keep.place ∧ c.pdcBreak.keep.tread = c.keep.tread := by
  unfold Card.pdcBreak
  dsimp only
  split
  · next h => exact ⟨h, rfl, rfl⟩
  · simp

@[simp] theorem Card.pdcBreak_ok (c : Card) (hk : c.keep.ok) : (c.pdcBreak).keep.ok := by
  unfold Card.pdcBreak
  dsimp only
  split <;> simp [hk]

@[simp] theorem Card.vmTrip_keeps (c : Card) :
    c.vmTrip.keep.phase = .absent ∧ c.vmTrip.keep.place = c.keep.place ∧ c.vmTrip.keep.tread = c.keep.tread := by
  unfold Card.vmTrip
  dsimp only
  split
  · next h => exact ⟨h, rfl, rfl⟩
  · simp

@[simp] theorem Card.vmTrip_ok (c : Card) (hk : c.keep.ok) : (c.vmTrip).keep.ok := by
  unfold Card.vmTrip
  dsimp only
  split <;> simp [hk]

@[simp] theorem Card.hclkStop_keeps (c : Card) :
    c.hclkStop.keep.phase = c.keep.phase ∧ c.hclkStop.keep.bytes = c.keep.bytes ∧
    c.hclkStop.keep.cells = c.keep.cells ∧ c.hclkStop.keep.place = c.keep.place ∧
    c.hclkStop.keep.lanes = c.keep.lanes ∧ c.hclkStop.keep.tread = c.keep.tread ∧
    c.hclkStop.keep.dock = c.keep.dock ∧ c.hclkStop.keep.role = c.keep.role ∧
    c.hclkStop.keep.inUse = c.keep.inUse ∧ c.hclkStop.keep.marks = c.keep.marks ∧
    c.hclkStop.keep.held = c.keep.held ∧ c.hclkStop.keep.running = c.keep.running := by
  unfold Card.hclkStop
  (try dsimp only)
  (repeat' split) <;> simp [Keep.parts]

@[simp] theorem Card.hclkStop_ok (c : Card) (hk : c.keep.ok) :
    c.hclkStop.keep.ok := by
  refine Keep.ok_of c _ hk ?_
  simp

@[simp] theorem Card.loseMap_keeps (c : Card) :
    c.loseMap.keep.bytes = c.keep.bytes ∧ c.loseMap.keep.cells = c.keep.cells ∧
    c.loseMap.keep.place = c.keep.place ∧ c.loseMap.keep.lanes = c.keep.lanes ∧
    c.loseMap.keep.tread = c.keep.tread ∧ c.loseMap.keep.hclk = c.keep.hclk ∧
    c.loseMap.keep.dock = c.keep.dock ∧ c.loseMap.keep.role = c.keep.role ∧
    c.loseMap.keep.inUse = c.keep.inUse := by
  unfold Card.loseMap
  (try dsimp only)
  (repeat' split) <;> simp [Keep.parts]

@[simp] theorem Card.loseMap_ok (c : Card) (hk : c.keep.ok) : (c.loseMap).keep.ok := by
  have h := Card.dropMap_ok c hk
  unfold Card.loseMap
  exact Card.enter_empty_ok _ _ h (Card.dropMap_empty c)

@[simp] theorem Card.absenceTrip_keeps (c : Card) :
    c.absenceTrip.keep.bytes = c.keep.bytes ∧ c.absenceTrip.keep.cells = c.keep.cells ∧
    c.absenceTrip.keep.place = c.keep.place ∧ c.absenceTrip.keep.lanes = c.keep.lanes ∧
    c.absenceTrip.keep.tread = c.keep.tread ∧ c.absenceTrip.keep.hclk = c.keep.hclk ∧
    c.absenceTrip.keep.dock = c.keep.dock ∧ c.absenceTrip.keep.role = c.keep.role ∧
    c.absenceTrip.keep.inUse = c.keep.inUse := by
  unfold Card.absenceTrip
  (try dsimp only)
  (repeat' split) <;> simp [Keep.parts]

@[simp] theorem Card.absenceTrip_ok (c : Card) (hk : c.keep.ok) : (c.absenceTrip).keep.ok := by
  unfold Card.absenceTrip
  dsimp only
  (repeat' split) <;> simp [hk]

@[simp] theorem Card.hclkReturn_keeps (c : Card) :
    c.hclkReturn.keep.bytes = c.keep.bytes ∧ c.hclkReturn.keep.place = c.keep.place ∧
    c.hclkReturn.keep.lanes = c.keep.lanes ∧ c.hclkReturn.keep.tread = c.keep.tread ∧
    c.hclkReturn.keep.dock = c.keep.dock ∧ c.hclkReturn.keep.role = c.keep.role ∧
    c.hclkReturn.keep.inUse = c.keep.inUse := by
  unfold Card.hclkReturn
  dsimp only
  (repeat' split) <;> simp [Card.setPower, Keep.parts]

@[simp] theorem Card.hclkReturn_ok (c : Card) (hk : c.keep.ok) : (c.hclkReturn).keep.ok := by
  unfold Card.hclkReturn
  dsimp only
  repeat' split
  · exact hk
  · exact hk
  · refine Card.takeAllLate_ok _ ?_
    rw [Card.holdUnclocked_keep, Card.returnLink_keep, Card.driveLnd_keep]
    exact hk

@[simp] theorem Card.dockOn_keeps (c : Card) :
    c.dockOn.keep.phase = c.keep.phase ∧ c.dockOn.keep.bytes = c.keep.bytes ∧
    c.dockOn.keep.cells = c.keep.cells ∧ c.dockOn.keep.place = c.keep.place ∧
    c.dockOn.keep.lanes = c.keep.lanes ∧ c.dockOn.keep.tread = c.keep.tread ∧
    c.dockOn.keep.hclk = c.keep.hclk ∧ c.dockOn.keep.role = c.keep.role ∧
    c.dockOn.keep.inUse = c.keep.inUse ∧ c.dockOn.keep.marks = c.keep.marks ∧
    c.dockOn.keep.held = c.keep.held ∧ c.dockOn.keep.running = c.keep.running := by
  unfold Card.dockOn
  (try dsimp only)
  (repeat' split) <;> simp [Keep.parts]

@[simp] theorem Card.dockOn_ok (c : Card) (hk : c.keep.ok) :
    c.dockOn.keep.ok := by
  refine Keep.ok_of c _ hk ?_
  simp

@[simp] theorem Card.dockOff_keeps (c : Card) :
    c.dockOff.keep.phase = c.keep.phase ∧ c.dockOff.keep.bytes = c.keep.bytes ∧
    c.dockOff.keep.cells = c.keep.cells ∧ c.dockOff.keep.place = c.keep.place ∧
    c.dockOff.keep.lanes = c.keep.lanes ∧ c.dockOff.keep.tread = c.keep.tread ∧
    c.dockOff.keep.hclk = c.keep.hclk ∧ c.dockOff.keep.role = c.keep.role ∧
    c.dockOff.keep.inUse = c.keep.inUse ∧ c.dockOff.keep.marks = c.keep.marks ∧
    c.dockOff.keep.held = c.keep.held ∧ c.dockOff.keep.running = c.keep.running := by
  unfold Card.dockOff
  (try dsimp only)
  (repeat' split) <;> simp [Keep.parts]

@[simp] theorem Card.dockOff_ok (c : Card) (hk : c.keep.ok) :
    c.dockOff.keep.ok := by
  refine Keep.ok_of c _ hk ?_
  simp

@[simp] theorem Card.fullScan_keeps (c : Card) (r : ScanReport) :
    (c.fullScan r).keep.phase = c.keep.phase ∧ (c.fullScan r).keep.bytes = c.keep.bytes ∧
    (c.fullScan r).keep.cells = c.keep.cells ∧ (c.fullScan r).keep.place = c.keep.place ∧
    (c.fullScan r).keep.lanes = c.keep.lanes ∧ (c.fullScan r).keep.tread = c.keep.tread ∧
    (c.fullScan r).keep.hclk = c.keep.hclk ∧ (c.fullScan r).keep.dock = c.keep.dock ∧
    (c.fullScan r).keep.role = c.keep.role ∧ (c.fullScan r).keep.inUse = c.keep.inUse ∧
    (c.fullScan r).keep.held = c.keep.held ∧ (c.fullScan r).keep.running = c.keep.running := by
  unfold Card.fullScan
  dsimp only
  rw [Card.scanMarks_keep, Card.scanCounts_keep]
  exact ⟨rfl, rfl, rfl, rfl, rfl, rfl, rfl, rfl, rfl, rfl, rfl, rfl⟩

@[simp] theorem Card.fullScan_marks (c : Card) (r : ScanReport) : (c.fullScan r).keep.marks = [] := by
  unfold Card.fullScan
  dsimp only
  rw [Card.scanMarks_keep, Card.scanCounts_keep]
  rfl

@[simp] theorem Card.fullScan_ok (c : Card) (r : ScanReport) (hk : c.keep.ok) : (c.fullScan r).keep.ok := by
  obtain ⟨h1, h2, h3, h4, h5, h6, h7⟩ := hk
  unfold Keep.ok
  rw [Card.fullScan_marks]
  simp only [Card.fullScan_keeps]
  exact ⟨h1, h2, h3, h4, by simp, h6, fun h => ⟨trivial, (h7 h).2⟩⟩

@[simp] theorem Card.tick_keeps (c : Card) :
    c.tick.keep.phase = c.keep.phase ∧ c.tick.keep.bytes = c.keep.bytes ∧
    c.tick.keep.cells = c.keep.cells ∧ c.tick.keep.place = c.keep.place ∧
    c.tick.keep.lanes = c.keep.lanes ∧ c.tick.keep.hclk = c.keep.hclk ∧
    c.tick.keep.dock = c.keep.dock ∧ c.tick.keep.role = c.keep.role ∧
    c.tick.keep.inUse = c.keep.inUse ∧ c.tick.keep.marks = c.keep.marks ∧
    c.tick.keep.held = c.keep.held ∧ c.tick.keep.running = c.keep.running := by
  unfold Card.tick
  (try dsimp only)
  (repeat' split) <;> simp [Keep.parts]

@[simp] theorem Card.tick_ok (c : Card) (hk : c.keep.ok) :
    c.tick.keep.ok := by
  refine Keep.ok_of c _ hk ?_
  simp

@[simp] theorem Card.beginMount_keeps (c : Card) (t : Tag) :
    (c.beginMount t).keep.bytes = c.keep.bytes ∧ (c.beginMount t).keep.cells = c.keep.cells ∧
    (c.beginMount t).keep.place = c.keep.place ∧ (c.beginMount t).keep.lanes = c.keep.lanes ∧
    (c.beginMount t).keep.tread = c.keep.tread ∧ (c.beginMount t).keep.hclk = c.keep.hclk ∧
    (c.beginMount t).keep.dock = c.keep.dock ∧ (c.beginMount t).keep.role = c.keep.role ∧
    (c.beginMount t).keep.inUse = c.keep.inUse ∧ (c.beginMount t).keep.marks = c.keep.marks ∧
    (c.beginMount t).keep.held = c.keep.held ∧ (c.beginMount t).keep.running = c.keep.running := by
  unfold Card.beginMount
  (try dsimp only)
  (repeat' split) <;> simp [Keep.parts]

theorem Card.beginMount_ok (c : Card) (t : Tag) (hn : c.phase ≠ .mounted) (hk : c.keep.ok) : (c.beginMount t).keep.ok := by
  have mk : ∀ (d : Card) (r : Option StrapReading), ({ d with straps := { d.straps with reading := r } } : Card).keep =
    d.keep := fun _ _ => rfl
  unfold Card.beginMount
  dsimp only
  rw [mk, Card.unfence_keep, Card.askHold_keep]
  exact Card.enter_ok _ _ (by simpa using hk) (by simpa using hn)

@[simp] theorem Card.doMount_keeps (c : Card) (f : Frame) :
    (c.doMount f).keep.bytes = c.keep.bytes ∧ (c.doMount f).keep.cells = c.keep.cells ∧
    (c.doMount f).keep.place = c.keep.place ∧ (c.doMount f).keep.lanes = c.keep.lanes ∧
    (c.doMount f).keep.tread = c.keep.tread ∧ (c.doMount f).keep.hclk = c.keep.hclk ∧
    (c.doMount f).keep.dock = c.keep.dock ∧ (c.doMount f).keep.role = c.keep.role ∧
    (c.doMount f).keep.inUse = c.keep.inUse ∧ (c.doMount f).keep.marks = c.keep.marks ∧
    (c.doMount f).keep.held = c.keep.held ∧ (c.doMount f).keep.running = c.keep.running := by
  unfold Card.doMount
  (try dsimp only)
  (repeat' split) <;> simp [Keep.parts]

theorem Card.doMount_ok (c : Card) (f : Frame) (hn : c.phase ≠ .mounted) (hk : c.keep.ok) : (c.doMount f).keep.ok := by
  unfold Card.doMount
  split
  · simpa using hk
  · exact Card.beginMount_ok c _ hn hk

@[simp] theorem Card.startMounted_keeps (c : Card) :
    c.startMounted.keep.phase = c.keep.phase ∧ c.startMounted.keep.bytes = c.keep.bytes ∧
    c.startMounted.keep.cells = c.keep.cells ∧ c.startMounted.keep.place = c.keep.place ∧
    c.startMounted.keep.lanes = c.keep.lanes ∧ c.startMounted.keep.tread = c.keep.tread ∧
    c.startMounted.keep.hclk = c.keep.hclk ∧ c.startMounted.keep.dock = c.keep.dock ∧
    c.startMounted.keep.role = c.keep.role ∧ c.startMounted.keep.inUse = c.keep.inUse ∧
    c.startMounted.keep.marks = c.keep.marks := by
  unfold Card.startMounted
  (try dsimp only)
  (repeat' split) <;> simp [Keep.parts]

@[simp] theorem Card.startMounted_ok (c : Card) (hk : c.keep.ok) : (c.startMounted).keep.ok := by
  unfold Card.startMounted
  simp only [Card.newPass_keep, Card.evalMarks_keep, Card.decideWear_keep]
  obtain ⟨h1, h2, h3, h4, h5, h6, h7⟩ := hk
  exact ⟨h1, h2, h3, h4, h5, by simp [Card.keep], fun h => ⟨(h7 h).1, rfl, rfl⟩⟩

@[simp] theorem Card.endMount_keeps (c : Card) (t : Tag) (e : TagEntry) (fast : Bool) (u : Nat) :
    (c.endMount t e fast u).keep.bytes = c.keep.bytes ∧ (c.endMount t e fast u).keep.cells = c.keep.cells ∧
    (c.endMount t e fast u).keep.place = c.keep.place ∧ (c.endMount t e fast u).keep.lanes = c.keep.lanes ∧
    (c.endMount t e fast u).keep.tread = c.keep.tread ∧ (c.endMount t e fast u).keep.hclk = c.keep.hclk ∧
    (c.endMount t e fast u).keep.dock = c.keep.dock ∧ (c.endMount t e fast u).keep.role = c.keep.role ∧
    (c.endMount t e fast u).keep.inUse = c.keep.inUse ∧ (c.endMount t e fast u).keep.marks = c.keep.marks := by
  unfold Card.endMount
  (try dsimp only)
  (repeat' split) <;> simp [Keep.parts]

@[simp] theorem Card.endMount_ok (c : Card) (t : Tag) (e : TagEntry) (fast : Bool) (u : Nat) (hk : c.keep.ok) :
    (c.endMount t e fast u).keep.ok := by
  unfold Card.endMount
  (try dsimp only)
  (repeat' split) <;> simp [hk]

theorem Card.clearings_of {α β : Type} (g : Keep → β) (h : ∀ c p, g (Card.clearPages c p).keep = g c.keep) (p : α → Nat → Bool)
    (l : List α) (c : Card) : g (l.foldl (fun c x => c.clearPages (p x)) c).keep = g c.keep :=
  Keep.foldl_of g _ (fun c x => h c _) l c

@[simp] theorem Card.useReplacements_keeps (c : Card) (r : ScanReport) :
    (c.useReplacements r).keep.phase = c.keep.phase ∧ (c.useReplacements r).keep.bytes = c.keep.bytes ∧
    (c.useReplacements r).keep.place = c.keep.place ∧ (c.useReplacements r).keep.lanes = c.keep.lanes ∧
    (c.useReplacements r).keep.tread = c.keep.tread ∧ (c.useReplacements r).keep.hclk = c.keep.hclk ∧
    (c.useReplacements r).keep.dock = c.keep.dock ∧ (c.useReplacements r).keep.role = c.keep.role ∧
    (c.useReplacements r).keep.inUse = c.keep.inUse ∧ (c.useReplacements r).keep.marks = c.keep.marks ∧
    (c.useReplacements r).keep.held = c.keep.held ∧ (c.useReplacements r).keep.running = c.keep.running := by
  unfold Card.useReplacements
  refine ⟨?_, ?_, ?_, ?_, ?_, ?_, ?_, ?_, ?_, ?_, ?_, ?_⟩ <;>
    exact Card.clearings_of _ (by simp) (fun (x : Nat × Nat × Nat) k => keyWing k == x.1 && keyHall k == x.2.1) _ _

@[simp] theorem Card.useReplacements_ok (c : Card) (r : ScanReport) (hk : c.keep.ok) : (c.useReplacements r).keep.ok := by
  refine Keep.ok_of c _ hk ?_
  simp

@[simp] theorem Card.mountComplete_keeps (c : Card) (r : ScanReport) :
    (c.mountComplete r).keep.bytes = c.keep.bytes ∧ (c.mountComplete r).keep.place = c.keep.place ∧
    (c.mountComplete r).keep.lanes = c.keep.lanes ∧ (c.mountComplete r).keep.tread = c.keep.tread ∧
    (c.mountComplete r).keep.hclk = c.keep.hclk ∧ (c.mountComplete r).keep.dock = c.keep.dock ∧
    (c.mountComplete r).keep.role = c.keep.role ∧ (c.mountComplete r).keep.inUse = c.keep.inUse := by
  unfold Card.mountComplete
  (try dsimp only)
  (repeat' split) <;> simp [Keep.parts]

@[simp] theorem Card.mountComplete_ok (c : Card) (r : ScanReport) (hk : c.keep.ok) : (c.mountComplete r).keep.ok := by
  unfold Card.mountComplete
  split
  · split
    · split
      · exact Card.endMount_ok _ _ _ _ _ (by simpa using hk)
      · split
        · exact hk
        · exact Card.endMount_ok _ _ _ _ _ (Card.fullScan_ok _ _ (Card.useReplacements_ok _ _ (Card.dropMap_ok _ hk)))
    · exact hk
  · exact hk

@[simp] theorem Card.dropScheduled_keeps (c : Card) :
    c.dropScheduled.keep.phase = c.keep.phase ∧ c.dropScheduled.keep.bytes = c.keep.bytes ∧
    c.dropScheduled.keep.cells = c.keep.cells ∧ c.dropScheduled.keep.place = c.keep.place ∧
    c.dropScheduled.keep.lanes = c.keep.lanes ∧ c.dropScheduled.keep.tread = c.keep.tread ∧
    c.dropScheduled.keep.hclk = c.keep.hclk ∧ c.dropScheduled.keep.dock = c.keep.dock ∧
    c.dropScheduled.keep.role = c.keep.role ∧ c.dropScheduled.keep.inUse = c.keep.inUse := by
  unfold Card.dropScheduled
  (try dsimp only)
  (repeat' split) <;> simp [Keep.parts]

@[simp] theorem Card.dropScheduled_empty (c : Card) :
    c.dropScheduled.keep.marks = [] ∧ c.dropScheduled.keep.held = [] ∧ c.dropScheduled.keep.running = [] :=
  ⟨rfl, (Card.dropWindows_empty c).1, (Card.dropWindows_empty c).2⟩

@[simp] theorem Card.dropScheduled_ok (c : Card) (hk : c.keep.ok) : (c.dropScheduled).keep.ok :=
  Keep.ok_empty c _ hk (by simp) (by simp)

@[simp] theorem Card.doClose_keeps (c : Card) (f : Frame) :
    (c.doClose f).keep.bytes = c.keep.bytes ∧ (c.doClose f).keep.cells = c.keep.cells ∧
    (c.doClose f).keep.place = c.keep.place ∧ (c.doClose f).keep.lanes = c.keep.lanes ∧
    (c.doClose f).keep.tread = c.keep.tread ∧ (c.doClose f).keep.hclk = c.keep.hclk ∧
    (c.doClose f).keep.dock = c.keep.dock ∧ (c.doClose f).keep.role = c.keep.role ∧
    (c.doClose f).keep.inUse = c.keep.inUse := by
  unfold Card.doClose
  (try dsimp only)
  (repeat' split) <;> simp [Keep.parts]

@[simp] theorem Card.doClose_ok (c : Card) (f : Frame) (hk : c.keep.ok) :
    (c.doClose f).keep.ok := by
  unfold Card.doClose
  (try dsimp only)
  (repeat' split) <;> simp [hk]

@[simp] theorem Card.forceClose_keeps (c : Card) (t : Tag) :
    (c.forceClose t).keep.bytes = c.keep.bytes ∧ (c.forceClose t).keep.cells = c.keep.cells ∧
    (c.forceClose t).keep.place = c.keep.place ∧ (c.forceClose t).keep.lanes = c.keep.lanes ∧
    (c.forceClose t).keep.tread = c.keep.tread ∧ (c.forceClose t).keep.hclk = c.keep.hclk ∧
    (c.forceClose t).keep.dock = c.keep.dock ∧ (c.forceClose t).keep.role = c.keep.role ∧
    (c.forceClose t).keep.inUse = c.keep.inUse := by
  unfold Card.forceClose
  (try dsimp only)
  (repeat' split) <;> simp [Keep.parts]

@[simp] theorem Card.forceClose_ok (c : Card) (t : Tag) (hk : c.keep.ok) : (c.forceClose t).keep.ok := by
  have mk : ∀ (d : Card) (st : Straps) (lk : Link) (pw : Power), st.slot = d.straps.slot → st.group = d.straps.group →
      lk.lanes = d.link.lanes → d.keep.ok → d.keep.marks = [] ∧ d.keep.held = [] ∧ d.keep.running = [] →
      ({ d with straps := st, link := lk, power := pw } : Card).keep.ok ∧
        ({ d with straps := st, link := lk, power := pw } : Card).keep.marks = [] ∧
        ({ d with straps := st, link := lk, power := pw } : Card).keep.held = [] ∧
        ({ d with straps := st, link := lk, power := pw } : Card).keep.running = [] := by
    intro d st lk pw h1 h2 h3 hd hm
    refine ⟨Keep.ok_of d _ hd ?_, hm⟩
    simp [Keep.parts, h1, h2, h3]
  unfold Card.forceClose
  generalize hf : c.abortTags.foldl (fun c x => c.finish x stAborted 0 (c.abortZ x)) c = d
  have hd : d.keep.ok := by
    rw [← hf, Keep.foldl _ (fun c x => Card.finish_keep _ _ _ _ _)]
    exact hk
  have hx : ((d.dropScheduled.dropMap).driveLnd).resetErases.keep.ok := by simp [hd]
  have hy : ((d.dropScheduled.dropMap).driveLnd).resetErases.keep.marks = [] ∧
      ((d.dropScheduled.dropMap).driveLnd).resetErases.keep.held = [] ∧
      ((d.dropScheduled.dropMap).driveLnd).resetErases.keep.running = [] := by simp
  dsimp only
  generalize ((d.dropScheduled.dropMap).driveLnd).resetErases = x at hx hy ⊢
  have e := mk x { x.straps with reading := none } { x.link with owed := [] } { x.power with lnd := false } rfl rfl rfl hx hy
  refine Card.enter_empty_ok _ _ ?_ ?_
  · rw [Card.finish_keep, Card.endHold_keep, Card.keepTags_keep]
    exact e.1
  · rw [Card.finish_keep, Card.endHold_keep, Card.keepTags_keep]
    exact e.2

@[simp] theorem Card.doForceClose_keeps (c : Card) (f : Frame) :
    (c.doForceClose f).keep.bytes = c.keep.bytes ∧ (c.doForceClose f).keep.cells = c.keep.cells ∧
    (c.doForceClose f).keep.place = c.keep.place ∧ (c.doForceClose f).keep.lanes = c.keep.lanes ∧
    (c.doForceClose f).keep.tread = c.keep.tread ∧ (c.doForceClose f).keep.hclk = c.keep.hclk ∧
    (c.doForceClose f).keep.dock = c.keep.dock ∧ (c.doForceClose f).keep.role = c.keep.role ∧
    (c.doForceClose f).keep.inUse = c.keep.inUse := by
  unfold Card.doForceClose
  (try dsimp only)
  (repeat' split) <;> simp [Keep.parts]

@[simp] theorem Card.doForceClose_ok (c : Card) (f : Frame) (hk : c.keep.ok) :
    (c.doForceClose f).keep.ok := by
  unfold Card.doForceClose
  (try dsimp only)
  (repeat' split) <;> simp [hk]

@[simp] theorem Card.takeSync_ok (c : Card) (type : Byte) (m : SyncMsg) (act : Card → Card) (hk : c.keep.ok)
    (hb : ∀ d : Card, d.keep.ok → (act d).keep.ok) : (c.takeSync type m act).keep.ok := by
  have mk : ∀ (d : Card) (x : Option (Byte × SyncMsg)),
      ({ d with treads := { d.treads with lastMsg := x } } : Card).keep = d.keep := fun _ _ => rfl
  unfold Card.takeSync
  dsimp only
  repeat' split
  all_goals first
    | exact hk
    | simpa using hk
    | simpa [mk] using hk
    | (refine hb _ ?_; simpa [mk] using hk)

/-- What a message's action leaves alone, taking the message leaves alone too. -/
theorem Card.takeSync_of {β : Type} (g : Keep → β) (c : Card) (type : Byte) (m : SyncMsg) (act : Card → Card)
    (hb : ∀ d : Card, g (act d).keep = g d.keep) : g (c.takeSync type m act).keep = g c.keep := by
  have mk : ∀ (d : Card) (x : Option (Byte × SyncMsg)),
      ({ d with treads := { d.treads with lastMsg := x } } : Card).keep = d.keep := fun _ _ => rfl
  unfold Card.takeSync
  dsimp only
  (repeat' split) <;> simp [hb, mk]

@[simp] theorem Card.reviewMarks_keeps (c : Card) :
    c.reviewMarks.keep.phase = c.keep.phase ∧ c.reviewMarks.keep.bytes = c.keep.bytes ∧
    c.reviewMarks.keep.cells = c.keep.cells ∧ c.reviewMarks.keep.place = c.keep.place ∧
    c.reviewMarks.keep.lanes = c.keep.lanes ∧ c.reviewMarks.keep.tread = c.keep.tread ∧
    c.reviewMarks.keep.hclk = c.keep.hclk ∧ c.reviewMarks.keep.dock = c.keep.dock ∧
    c.reviewMarks.keep.role = c.keep.role ∧ c.reviewMarks.keep.inUse = c.keep.inUse ∧
    c.reviewMarks.keep.held = c.keep.held ∧ c.reviewMarks.keep.running = c.keep.running := by
  unfold Card.reviewMarks
  (try dsimp only)
  (repeat' split) <;> simp [Keep.parts]

@[simp] theorem Card.reviewMarks_ok (c : Card) (hk : c.keep.ok) : (c.reviewMarks).keep.ok := by
  unfold Card.reviewMarks
  dsimp only
  rw [Keep.foldl _ (fun d x => Card.dropPastAct_keep _ _ _ _)]
  obtain ⟨h1, h2, h3, h4, h5, h6, h7⟩ := hk
  refine ⟨h1, h2, h3, h4, le_trans (List.length_filter_le ..) h5, h6, fun h => ⟨?_, (h7 h).2⟩⟩
  have e := (h7 h).1
  simp only [Card.keep] at e ⊢
  rw [e]
  rfl

@[simp] theorem Card.reviewWindows_keeps (c : Card) :
    c.reviewWindows.keep.phase = c.keep.phase ∧ c.reviewWindows.keep.bytes = c.keep.bytes ∧
    c.reviewWindows.keep.cells = c.keep.cells ∧ c.reviewWindows.keep.place = c.keep.place ∧
    c.reviewWindows.keep.lanes = c.keep.lanes ∧ c.reviewWindows.keep.tread = c.keep.tread ∧
    c.reviewWindows.keep.hclk = c.keep.hclk ∧ c.reviewWindows.keep.dock = c.keep.dock ∧
    c.reviewWindows.keep.role = c.keep.role ∧ c.reviewWindows.keep.inUse = c.keep.inUse ∧
    c.reviewWindows.keep.marks = c.keep.marks ∧ c.reviewWindows.keep.running = c.keep.running := by
  unfold Card.reviewWindows
  (try dsimp only)
  (repeat' split) <;> simp [Keep.parts]

@[simp] theorem Card.reviewWindows_ok (c : Card) (hk : c.keep.ok) : (c.reviewWindows).keep.ok := by
  unfold Card.reviewWindows
  dsimp only
  rw [Keep.foldl _ (fun d x => Card.dropPastAct_keep _ _ _ _)]
  obtain ⟨h1, h2, h3, h4, h5, h6, h7⟩ := hk
  refine ⟨h1, h2, h3, h4, h5, ?_, fun h => ⟨(h7 h).1, ?_, (h7 h).2.2⟩⟩
  · have := List.length_filter_le (fun w => treadNotPast w.start c.treads.c) c.maint.held
    simp only [Card.keep] at h6 ⊢
    omega
  · have e := (h7 h).2.1
    simp only [Card.keep] at e ⊢
    rw [e]
    rfl

@[simp] theorem Card.reviewRunning_keeps (c : Card) :
    c.reviewRunning.keep.phase = c.keep.phase ∧ c.reviewRunning.keep.bytes = c.keep.bytes ∧
    c.reviewRunning.keep.cells = c.keep.cells ∧ c.reviewRunning.keep.place = c.keep.place ∧
    c.reviewRunning.keep.lanes = c.keep.lanes ∧ c.reviewRunning.keep.tread = c.keep.tread ∧
    c.reviewRunning.keep.hclk = c.keep.hclk ∧ c.reviewRunning.keep.dock = c.keep.dock ∧
    c.reviewRunning.keep.role = c.keep.role ∧ c.reviewRunning.keep.inUse = c.keep.inUse ∧
    c.reviewRunning.keep.marks = c.keep.marks ∧ c.reviewRunning.keep.held = c.keep.held := by
  unfold Card.reviewRunning
  (try dsimp only)
  (repeat' split) <;> simp [Keep.parts]

@[simp] theorem Card.reviewRunning_ok (c : Card) (hk : c.keep.ok) :
    c.reviewRunning.keep.ok := by
  unfold Card.reviewRunning
  (try dsimp only)
  (repeat' split) <;> simp [hk]

@[simp] theorem Card.loadTread_keeps (c : Card) (t : Tread) :
    (c.loadTread t).keep.phase = c.keep.phase ∧ (c.loadTread t).keep.bytes = c.keep.bytes ∧
    (c.loadTread t).keep.cells = c.keep.cells ∧ (c.loadTread t).keep.place = c.keep.place ∧
    (c.loadTread t).keep.lanes = c.keep.lanes ∧ (c.loadTread t).keep.hclk = c.keep.hclk ∧
    (c.loadTread t).keep.dock = c.keep.dock ∧ (c.loadTread t).keep.role = c.keep.role ∧
    (c.loadTread t).keep.inUse = c.keep.inUse := by
  unfold Card.loadTread
  (try dsimp only)
  (repeat' split) <;> simp [Keep.parts]

@[simp] theorem Card.loadTread_ok (c : Card) (t : Tread) (hk : c.keep.ok) : (c.loadTread t).keep.ok := by
  unfold Card.loadTread
  refine Card.reviewWindows_ok _ ?_
  rw [Card.reviewHeld_keep]
  refine Card.reviewMarks_ok _ (Card.reviewRunning_ok _ ?_)
  rw [Card.queueLoad_keep]
  exact hk

@[simp] theorem Card.syncSet_keeps (c : Card) (m : SyncMsg) :
    (c.syncSet m).keep.phase = c.keep.phase ∧ (c.syncSet m).keep.bytes = c.keep.bytes ∧
    (c.syncSet m).keep.cells = c.keep.cells ∧ (c.syncSet m).keep.place = c.keep.place ∧
    (c.syncSet m).keep.lanes = c.keep.lanes ∧ (c.syncSet m).keep.hclk = c.keep.hclk ∧
    (c.syncSet m).keep.dock = c.keep.dock ∧ (c.syncSet m).keep.role = c.keep.role ∧
    (c.syncSet m).keep.inUse = c.keep.inUse := by
  unfold Card.syncSet
  (try dsimp only)
  (repeat' split) <;> simp [Keep.parts]

@[simp] theorem Card.syncSet_ok (c : Card) (m : SyncMsg) (hk : c.keep.ok) :
    (c.syncSet m).keep.ok := by
  unfold Card.syncSet
  (try dsimp only)
  (repeat' split) <;> simp [hk]

@[simp] theorem Card.schedule_ok (c : Card) (type : Byte) (m : SyncMsg) (late : Nat) (act : Card → Card) (hk : c.keep.ok)
    (hb : c.phase = .mounted → (act c).keep.ok) : (c.schedule type m late act).keep.ok := by
  unfold Card.schedule
  dsimp only
  repeat' split
  all_goals first
    | exact hb (by simp_all)
    | simpa using hk

theorem Card.schedule_of {β : Type} (g : Keep → β) (c : Card) (type : Byte) (m : SyncMsg) (late : Nat) (act : Card → Card)
    (hb : g (act c).keep = g c.keep) : g (c.schedule type m late act).keep = g c.keep := by
  unfold Card.schedule
  dsimp only
  (repeat' split) <;> simp [hb]

@[simp] theorem Card.syncWindowMsg_keeps (c : Card) (type : Byte) (m : SyncMsg) (quiet : Bool) :
    (c.syncWindowMsg type m quiet).keep.phase = c.keep.phase ∧ (c.syncWindowMsg type m quiet).keep.bytes = c.keep.bytes ∧
    (c.syncWindowMsg type m quiet).keep.cells = c.keep.cells ∧ (c.syncWindowMsg type m quiet).keep.place = c.keep.place ∧
    (c.syncWindowMsg type m quiet).keep.lanes = c.keep.lanes ∧ (c.syncWindowMsg type m quiet).keep.tread = c.keep.tread ∧
    (c.syncWindowMsg type m quiet).keep.hclk = c.keep.hclk ∧ (c.syncWindowMsg type m quiet).keep.dock = c.keep.dock ∧
    (c.syncWindowMsg type m quiet).keep.role = c.keep.role ∧ (c.syncWindowMsg type m quiet).keep.inUse = c.keep.inUse ∧
    (c.syncWindowMsg type m quiet).keep.marks = c.keep.marks ∧ (c.syncWindowMsg type m quiet).keep.running = c.keep.running := by
  have go {β : Type} (g : Keep → β) (h : ∀ (d : Card) w, g (d.holdWindow w).keep = g d.keep) :
      g (c.syncWindowMsg type m quiet).keep = g c.keep := by
    unfold Card.syncWindowMsg
    dsimp only
    split
    · rw [Card.dropSync_keep]
    · refine Card.schedule_of g _ _ _ _ _ ?_
      split
      · exact h _ _
      · rw [Card.dropSync_keep]
  refine ⟨?_, ?_, ?_, ?_, ?_, ?_, ?_, ?_, ?_, ?_, ?_, ?_⟩
  · exact go Keep.phase (by simp)
  · exact go Keep.bytes (by simp)
  · exact go Keep.cells (by simp)
  · exact go Keep.place (by simp)
  · exact go Keep.lanes (by simp)
  · exact go Keep.tread (by simp)
  · exact go Keep.hclk (by simp)
  · exact go Keep.dock (by simp)
  · exact go Keep.role (by simp)
  · exact go Keep.inUse (by simp)
  · exact go Keep.marks (by simp)
  · exact go Keep.running (by simp)

@[simp] theorem Card.syncWindowMsg_ok (c : Card) (type : Byte) (m : SyncMsg) (quiet : Bool) (hk : c.keep.ok) :
    (c.syncWindowMsg type m quiet).keep.ok := by
  unfold Card.syncWindowMsg
  dsimp only
  split
  · simpa using hk
  · refine Card.schedule_ok _ _ _ _ _ hk ?_
    intro hm
    split
    · exact Card.holdWindow_ok _ _ (by assumption) hm hk
    · simpa using hk

@[simp] theorem Card.syncMarkNow_keeps (c : Card) (m : SyncMsg) :
    (c.syncMarkNow m).keep.phase = c.keep.phase ∧ (c.syncMarkNow m).keep.bytes = c.keep.bytes ∧
    (c.syncMarkNow m).keep.cells = c.keep.cells ∧ (c.syncMarkNow m).keep.place = c.keep.place ∧
    (c.syncMarkNow m).keep.lanes = c.keep.lanes ∧ (c.syncMarkNow m).keep.tread = c.keep.tread ∧
    (c.syncMarkNow m).keep.hclk = c.keep.hclk ∧ (c.syncMarkNow m).keep.dock = c.keep.dock ∧
    (c.syncMarkNow m).keep.role = c.keep.role ∧ (c.syncMarkNow m).keep.inUse = c.keep.inUse ∧
    (c.syncMarkNow m).keep.held = c.keep.held ∧ (c.syncMarkNow m).keep.running = c.keep.running := by
  unfold Card.syncMarkNow
  (try dsimp only)
  (repeat' split) <;> simp [Keep.parts]

theorem Card.syncMarkNow_ok (c : Card) (m : SyncMsg) (hm : c.phase = .mounted) (hk : c.keep.ok) :
    (c.syncMarkNow m).keep.ok := by
  unfold Card.syncMarkNow
  split
  · obtain ⟨h1, h2, h3, h4, h5, h6, h7⟩ := hk
    refine ⟨h1, h2, h3, h4, ?_, h6, fun h => absurd hm h⟩
    simp [Card.keep]
    omega
  · simpa using hk

@[simp] theorem Card.syncMark_keeps (c : Card) (m : SyncMsg) :
    (c.syncMark m).keep.phase = c.keep.phase ∧ (c.syncMark m).keep.bytes = c.keep.bytes ∧
    (c.syncMark m).keep.cells = c.keep.cells ∧ (c.syncMark m).keep.place = c.keep.place ∧
    (c.syncMark m).keep.lanes = c.keep.lanes ∧ (c.syncMark m).keep.tread = c.keep.tread ∧
    (c.syncMark m).keep.hclk = c.keep.hclk ∧ (c.syncMark m).keep.dock = c.keep.dock ∧
    (c.syncMark m).keep.role = c.keep.role ∧ (c.syncMark m).keep.inUse = c.keep.inUse ∧
    (c.syncMark m).keep.held = c.keep.held ∧ (c.syncMark m).keep.running = c.keep.running := by
  refine ⟨?_, ?_, ?_, ?_, ?_, ?_, ?_, ?_, ?_, ?_, ?_, ?_⟩
  · exact Card.schedule_of Keep.phase _ _ _ _ _ (by simp)
  · exact Card.schedule_of Keep.bytes _ _ _ _ _ (by simp)
  · exact Card.schedule_of Keep.cells _ _ _ _ _ (by simp)
  · exact Card.schedule_of Keep.place _ _ _ _ _ (by simp)
  · exact Card.schedule_of Keep.lanes _ _ _ _ _ (by simp)
  · exact Card.schedule_of Keep.tread _ _ _ _ _ (by simp)
  · exact Card.schedule_of Keep.hclk _ _ _ _ _ (by simp)
  · exact Card.schedule_of Keep.dock _ _ _ _ _ (by simp)
  · exact Card.schedule_of Keep.role _ _ _ _ _ (by simp)
  · exact Card.schedule_of Keep.inUse _ _ _ _ _ (by simp)
  · exact Card.schedule_of Keep.held _ _ _ _ _ (by simp)
  · exact Card.schedule_of Keep.running _ _ _ _ _ (by simp)

@[simp] theorem Card.syncMark_ok (c : Card) (m : SyncMsg) (hk : c.keep.ok) : (c.syncMark m).keep.ok :=
  Card.schedule_ok _ _ _ _ _ hk (fun hm => Card.syncMarkNow_ok c m hm hk)

@[simp] theorem Card.syncAct_keeps (c : Card) (type : Byte) (m : SyncMsg) :
    (c.syncAct type m).keep.phase = c.keep.phase ∧ (c.syncAct type m).keep.bytes = c.keep.bytes ∧
    (c.syncAct type m).keep.cells = c.keep.cells ∧ (c.syncAct type m).keep.place = c.keep.place ∧
    (c.syncAct type m).keep.lanes = c.keep.lanes ∧ (c.syncAct type m).keep.hclk = c.keep.hclk ∧
    (c.syncAct type m).keep.dock = c.keep.dock ∧ (c.syncAct type m).keep.role = c.keep.role ∧
    (c.syncAct type m).keep.inUse = c.keep.inUse := by
  unfold Card.syncAct
  (try dsimp only)
  (repeat' split) <;> simp [Keep.parts]

@[simp] theorem Card.syncAct_ok (c : Card) (type : Byte) (m : SyncMsg) (hk : c.keep.ok) :
    (c.syncAct type m).keep.ok := by
  unfold Card.syncAct
  (try dsimp only)
  (repeat' split) <;> simp [hk]

@[simp] theorem Card.judgeSync_keeps (c : Card) (b : List Byte) :
    (c.judgeSync b).keep.phase = c.keep.phase ∧ (c.judgeSync b).keep.bytes = c.keep.bytes ∧
    (c.judgeSync b).keep.cells = c.keep.cells ∧ (c.judgeSync b).keep.place = c.keep.place ∧
    (c.judgeSync b).keep.lanes = c.keep.lanes ∧ (c.judgeSync b).keep.hclk = c.keep.hclk ∧
    (c.judgeSync b).keep.dock = c.keep.dock ∧ (c.judgeSync b).keep.role = c.keep.role ∧
    (c.judgeSync b).keep.inUse = c.keep.inUse := by
  have go {β : Type} (g : Keep → β) (h : ∀ (d : Card) t x, g (d.syncAct t x).keep = g d.keep) :
      g (c.judgeSync b).keep = g c.keep := by
    unfold Card.judgeSync
    dsimp only
    repeat' split
    · rw [Card.discardSync_keep]
    · rw [Card.discardSync_keep]
    · exact Card.takeSync_of g _ _ _ _ (fun d => h d _ _)
  refine ⟨?_, ?_, ?_, ?_, ?_, ?_, ?_, ?_, ?_⟩
  · exact go Keep.phase (by simp)
  · exact go Keep.bytes (by simp)
  · exact go Keep.cells (by simp)
  · exact go Keep.place (by simp)
  · exact go Keep.lanes (by simp)
  · exact go Keep.hclk (by simp)
  · exact go Keep.dock (by simp)
  · exact go Keep.role (by simp)
  · exact go Keep.inUse (by simp)

@[simp] theorem Card.judgeSync_ok (c : Card) (b : List Byte) (hk : c.keep.ok) : (c.judgeSync b).keep.ok := by
  unfold Card.judgeSync
  dsimp only
  repeat' split
  · rw [Card.discardSync_keep]; exact hk
  · rw [Card.discardSync_keep]; exact hk
  · exact Card.takeSync_ok _ _ _ _ hk (fun d h => Card.syncAct_ok d _ _ h)

@[simp] theorem Card.takePending_keeps (c : Card) :
    (c.takePending).keep.phase = c.keep.phase ∧ (c.takePending).keep.bytes = c.keep.bytes ∧
    (c.takePending).keep.cells = c.keep.cells ∧ (c.takePending).keep.place = c.keep.place ∧
    (c.takePending).keep.lanes = c.keep.lanes ∧ (c.takePending).keep.hclk = c.keep.hclk ∧
    (c.takePending).keep.dock = c.keep.dock ∧ (c.takePending).keep.role = c.keep.role ∧
    (c.takePending).keep.inUse = c.keep.inUse := by
  unfold Card.takePending
  split <;> simp [Keep.parts]

@[simp] theorem Card.takePending_ok (c : Card) (hk : c.keep.ok) : c.takePending.keep.ok := by
  unfold Card.takePending
  split
  · exact Card.judgeSync_ok _ _ hk
  · exact hk

@[simp] theorem Card.countTake_keeps (c : Card) :
    (c.countTake).keep.phase = c.keep.phase ∧ (c.countTake).keep.bytes = c.keep.bytes ∧
    (c.countTake).keep.cells = c.keep.cells ∧ (c.countTake).keep.place = c.keep.place ∧
    (c.countTake).keep.lanes = c.keep.lanes ∧ (c.countTake).keep.hclk = c.keep.hclk ∧
    (c.countTake).keep.dock = c.keep.dock ∧ (c.countTake).keep.role = c.keep.role ∧
    (c.countTake).keep.inUse = c.keep.inUse := by
  unfold Card.countTake
  (repeat' split) <;> simp [Keep.parts]

@[simp] theorem Card.countTake_ok (c : Card) (hk : c.keep.ok) : c.countTake.keep.ok := by
  unfold Card.countTake
  split
  · split
    · exact Card.takePending_ok _ hk
    · exact hk
  · exact hk

@[simp] theorem Card.syncRow_ok (c : Card) (type : Byte) (m : SyncMsg) (act : Card → Card) (hk : c.keep.ok)
    (hb : ∀ d : Card, d.keep.ok → (act d).keep.ok) : (c.syncRow type m act).keep.ok := by
  unfold Card.syncRow
  split
  · exact Card.takeSync_ok _ _ _ _ (Card.takePending_ok _ hk) hb
  · exact hk

/-- What a row's action leaves alone, and the message taken before it, the row leaves alone. -/
theorem Card.syncRow_of {β : Type} (g : Keep → β) (c : Card) (type : Byte) (m : SyncMsg) (act : Card → Card)
    (hp : g c.takePending.keep = g c.keep) (hb : ∀ d : Card, g (act d).keep = g d.keep) :
    g (c.syncRow type m act).keep = g c.keep := by
  unfold Card.syncRow
  split
  · exact (Card.takeSync_of g _ _ _ _ hb).trans hp
  · rfl

@[simp] theorem Card.sySample_keeps (c : Card) (high : Bool) :
    (c.sySample high).keep.phase = c.keep.phase ∧ (c.sySample high).keep.bytes = c.keep.bytes ∧
    (c.sySample high).keep.cells = c.keep.cells ∧ (c.sySample high).keep.place = c.keep.place ∧
    (c.sySample high).keep.lanes = c.keep.lanes ∧ (c.sySample high).keep.hclk = c.keep.hclk ∧
    (c.sySample high).keep.dock = c.keep.dock ∧ (c.sySample high).keep.role = c.keep.role ∧
    (c.sySample high).keep.inUse = c.keep.inUse := by
  unfold Card.sySample
  (try dsimp only)
  (repeat' split) <;> simp [Keep.parts]

@[simp] theorem Card.sySample_ok (c : Card) (high : Bool) (hk : c.keep.ok) : (c.sySample high).keep.ok := by
  unfold Card.sySample
  dsimp only
  split
  · rw [Card.discardSync_keep]; exact Card.countTake_ok _ hk
  · exact hk
  · exact Card.countTake_ok _ hk

@[simp] theorem Card.hearSy_keeps (c : Card) (line : SyLine) :
    (c.hearSy line).keep.phase = c.keep.phase ∧ (c.hearSy line).keep.bytes = c.keep.bytes ∧
    (c.hearSy line).keep.cells = c.keep.cells ∧ (c.hearSy line).keep.place = c.keep.place ∧
    (c.hearSy line).keep.lanes = c.keep.lanes ∧ (c.hearSy line).keep.hclk = c.keep.hclk ∧
    (c.hearSy line).keep.dock = c.keep.dock ∧ (c.hearSy line).keep.role = c.keep.role ∧
    (c.hearSy line).keep.inUse = c.keep.inUse := by
  unfold Card.hearSy
  split
  · refine ⟨?_, ?_, ?_, ?_, ?_, ?_, ?_, ?_, ?_⟩
    · exact Keep.foldl_of Keep.phase _ (by simp) _ _
    · exact Keep.foldl_of Keep.bytes _ (by simp) _ _
    · exact Keep.foldl_of Keep.cells _ (by simp) _ _
    · exact Keep.foldl_of Keep.place _ (by simp) _ _
    · exact Keep.foldl_of Keep.lanes _ (by simp) _ _
    · exact Keep.foldl_of Keep.hclk _ (by simp) _ _
    · exact Keep.foldl_of Keep.dock _ (by simp) _ _
    · exact Keep.foldl_of Keep.role _ (by simp) _ _
    · exact Keep.foldl_of Keep.inUse _ (by simp) _ _
  · simp

@[simp] theorem Card.hearSy_ok (c : Card) (line : SyLine) (hk : c.keep.ok) : (c.hearSy line).keep.ok := by
  unfold Card.hearSy
  split
  · exact Keep.foldl_ok _ (fun c x => Card.sySample_ok c x) _ _ hk
  · exact hk

end Sys2Proof.Machine
end

