-- ==== Sys2Proof/Machine/Line.lean ====
section
/-! DEFINITION. The characters of the command, response, twin and Balcony lines: 8b/10b with running disparity, the delimiters
of frames and records, and the bursts on TWO (R225 to R227, R526, R530, R568, R576). -/

namespace Sys2Proof.Machine

open Sys2Proof

/-- A character before coding: a data byte, or a control character by its byte. -/
inductive LineChar where
  | data (b : Byte)
  | control (b : Byte)
  deriving DecidableEq, Repr

/-- Between frames and records (R226, R568). -/
def k28_5 : LineChar := .control 0xBC
/-- Opens a frame or record. -/
def k27_7 : LineChar := .control 0xFB
/-- Closes a frame or record. -/
def k29_7 : LineChar := .control 0xFD

/-- The control characters of IEEE 802.3 Clause 36. -/
def controlCodes : List Byte := [0x1C, 0x3C, 0x5C, 0x7C, 0x9C, 0xBC, 0xDC, 0xFC, 0xF7, 0xFB, 0xFD, 0xFE]

/-- The 6-bit sub-blocks abcdei of x = 0 to 31 at negative running disparity, bit a highest (IEEE 802.3 Clause 36; log entry
70). -/
def sixTable : List (BitVec 6) :=
  [0b100111, 0b011101, 0b101101, 0b110001, 0b110101, 0b101001, 0b011001, 0b111000,
   0b111001, 0b100101, 0b010101, 0b110100, 0b001101, 0b101100, 0b011100, 0b010111,
   0b011011, 0b100011, 0b010011, 0b110010, 0b001011, 0b101010, 0b011010, 0b111010,
   0b110011, 0b100110, 0b010110, 0b110110, 0b001110, 0b101110, 0b011110, 0b101011]

/-- The 4-bit sub-blocks fghj of y = 0 to 7 at negative running disparity, bit f highest. -/
def fourTable : List (BitVec 4) := [0b1011, 0b1001, 0b0101, 0b1100, 0b1101, 0b1010, 0b0110, 0b1110]

/-- The same for control characters. -/
def fourControl : List (BitVec 4) := [0b1011, 0b0110, 0b1010, 0b1100, 0b1101, 0b0101, 0b1001, 0b0111]

/-- Ones in a sub-block. -/
def onesOf {n : Nat} (b : BitVec n) : Nat := ((List.range n).filter b.getLsbD).length

/-- The running disparity after a sub-block, `true` when positive: a balanced one leaves it. -/
def afterBlock {n : Nat} (rd : Bool) (b : BitVec n) : Bool :=
  if n < 2 * onesOf b then true else if 2 * onesOf b < n then false else rd

/-- The 6-bit sub-block of x, its complement at positive running disparity where it is not balanced, and for x = 7. -/
def sixBlock (rd control : Bool) (x : Nat) : BitVec 6 :=
  let b := if control && x == 28 then 0b001111 else sixTable.getD x 0
  if rd && (onesOf b != 3 || x == 7) then ~~~b else b

/-- The 4-bit sub-block of y after x; y = 7 takes its other form where the first would make a run of five. -/
def fourBlock (rd control : Bool) (x y : Nat) : BitVec 4 :=
  if control then (if rd then ~~~(fourControl.getD y 0) else fourControl.getD y 0)
  else
    let other := y == 7 && (if rd then x == 11 || x == 13 || x == 14 else x == 17 || x == 18 || x == 20)
    let b := if other then 0b0111 else fourTable.getD y 0
    if rd && (onesOf b != 2 || y == 3) then ~~~b else b

/-- A character's 10 bits abcdeifghj, bit a highest, and the running disparity after it (R225). -/
def encodeChar (rd : Bool) (c : LineChar) : BitVec 10 × Bool :=
  let (control, b) := match c with
    | .data b => (false, b)
    | .control b => (true, b)
  let x := b.toNat % 32
  let six := sixBlock rd control x
  let mid := afterBlock rd six
  let four := fourBlock mid control x (b.toNat / 32)
  (six ++ four, afterBlock mid four)

/-- Every character that has a code. -/
def allChars : List LineChar :=
  (List.range 256).map (fun n => .data (BitVec.ofNat 8 n)) ++ controlCodes.map .control

/-- What a receiver makes of 10 bits at a running disparity: the character, or none for an invalid code group or a disparity
error (R228, R229). -/
def decodeChar (rd : Bool) (bits : BitVec 10) : Option LineChar :=
  allChars.find? (fun c => (encodeChar rd c).1 == bits)

/-- Characters coded one after another, the running disparity running on. -/
def encodeChars (rd : Bool) (cs : List LineChar) : List (BitVec 10) :=
  match cs with
  | [] => []
  | c :: r => (encodeChar rd c).1 :: encodeChars (encodeChar rd c).2 r

/-- The levels of a line: each character bit a first (R225). -/
def lineBits (ws : List (BitVec 10)) : List Bool := ws.flatMap (fun w => (List.range 10).map w.getMsbD)

/-- A frame or record between its delimiters, byte 0 first (R226, R568). -/
def frameChars (bs : List Byte) : List LineChar := k27_7 :: (bs.map LineChar.data ++ [k29_7])

/-- Idle characters. -/
def idleChars (n : Nat) : List LineChar := List.replicate n k28_5

/-- The messages of a burst with exactly two K28.5 between them (R530). -/
def burstFrames (ms : List (List Byte)) : List LineChar :=
  match ms with
  | [] => []
  | [m] => frameChars m
  | m :: r => frameChars m ++ idleChars 2 ++ burstFrames r

/-- The characters of what the card sends on CO, DCO, TWO and BAL: a response and a record with the two K28.5 that follow it at
least, a burst whole (R226, R227, R526, R530, R568, R576). -/
def Out.chars (o : Out) : List LineChar :=
  match o with
  | .resp _ r => frameChars r.bytes ++ idleChars 2
  | .ext r p => frameChars (r.extBytes p) ++ idleChars 2
  | .balcony seq r => frameChars (balBytes seq r) ++ idleChars 2
  | .twin ms => idleChars 64 ++ burstFrames ms ++ idleChars 4
  | _ => []

/-- Their 10-bit codes at the running disparity the line has come to, which the idle characters before them, sent by time alone,
have run on (R225; log entry 24). -/
def Out.codes (o : Out) (rd : Bool) : List (BitVec 10) := encodeChars rd o.chars

end Sys2Proof.Machine
end

