-- ==== Sys2Proof/Laws/Line.lean ====
section
/-! SUPPORT. What the card writes down is what it would read back: records, ledger entries; how long its bursts are. -/

namespace Sys2Proof.Machine

open Sys2Proof

@[simp] theorem leBytes_length (n v : Nat) : (leBytes n v).length = n := by
  induction n generalizing v with
  | zero => rfl
  | succ k ih => simp [leBytes, ih]

/-- Bytes spell the number they were made of, as far as they reach. -/
theorem leNat_leBytes (n v : Nat) : leNat (leBytes n v) = v % 256 ^ n := by
  induction n generalizing v with
  | zero => simp [leBytes, leNat, Nat.mod_one]
  | succ k ih =>
    have e : (BitVec.ofNat 8 v).toNat = v % 256 := BitVec.toNat_ofNat v 8
    rw [leBytes, leNat, ih, e, Nat.pow_succ', Nat.mod_mul]

/-- Four bytes spell a CRC. -/
theorem leNat_crc (x : BitVec 32) : leNat (leBytes 4 x.toNat) = x.toNat := by
  rw [leNat_leBytes]
  exact Nat.mod_eq_of_lt (by have := x.isLt; omega)

/-- A record copy the card has written is valid (R550, R551). -/
theorem recordValid_image (r : Record) : recordValid r.image = true := by
  have hm : r.image.take 4 = recordMagic := by
    simp only [Record.image, Record.body, Record.head, List.append_assoc]
    exact List.take_left' (by decide)
  have hl : r.image.length - 4 = r.body.length := by simp [Record.image]
  unfold recordValid
  rw [hm, hl]
  simp [Record.image, leNat_crc]

/-- A ledger entry the card has written is valid (R554). -/
theorem ledgerValid_image (e : LedgerEntry) (i : Nat) : ledgerValid (e.image i) = true := by
  have hl : (e.image i).length - 4 = (e.body i).length := by simp [LedgerEntry.image]
  unfold ledgerValid
  rw [hl]
  simp [LedgerEntry.image, leNat_crc]

/-- A ledger entry fills 32 bytes. -/
theorem ledgerImage_length (e : LedgerEntry) (i : Nat) : (e.image i).length = 32 := by
  simp [LedgerEntry.image, LedgerEntry.body]

@[simp] theorem frameChars_length (bs : List Byte) : (frameChars bs).length = bs.length + 2 := by simp [frameChars]

/-- A burst's messages, each between its delimiters, with two K28.5 between them (R530). -/
theorem burstFrames_length (m : List Byte) (r : List (List Byte)) :
    (burstFrames (m :: r)).length = m.length + 2 + (r.map (fun x => x.length + 4)).sum := by
  induction r generalizing m with
  | nil => simp [burstFrames]
  | cons a l ih =>
    simp only [burstFrames, List.length_append, frameChars_length, ih, idleChars, List.length_replicate, List.map_cons,
      List.sum_cons]
    omega

@[simp] theorem helloBytes_length (c : Card) (failed replay : Bool) : (c.helloBytes failed replay).length = 20 := by
  simp [Card.helloBytes]

@[simp] theorem digestBytes_length (d : Digest) (replayed : Bool) : (digestBytes d replayed).length = 24 := by
  simp [digestBytes]

/-- A HELLO and `n` DIGESTs are 64 + 22 + n × (2 + 26) + 4 characters long (R530). -/
theorem burst_length (h : List Byte) (ds : List (List Byte)) (hh : h.length = 20) (hd : ∀ d ∈ ds, d.length = 24) :
    (Out.twin (h :: ds)).chars.length = 90 + 28 * ds.length := by
  have e : (ds.map (fun x => x.length + 4)).sum = 28 * ds.length := by
    clear hh
    induction ds with
    | nil => rfl
    | cons a r ih =>
      rw [List.map_cons, List.sum_cons, ih (fun d m => hd d (List.mem_cons_of_mem _ m)), hd a List.mem_cons_self,
        List.length_cons]
      omega
  simp only [Out.chars, List.length_append, idleChars, List.length_replicate, burstFrames_length, e, hh]
  omega

/-- No burst of a card that holds at most 64 digests is longer than 1,910 characters (R530, R531). -/
theorem burst_bounded (c : Card) (failed replay : Bool) (h : c.flights.history.length ≤ 64) :
    (Out.twin ([c.helloBytes failed replay] ++
      (if replay then c.flights.history.map (fun d => digestBytes d true) else []) ++
      (if failed then [] else (c.flights.history.getLast?.map (fun d => digestBytes d false)).toList))).chars.length ≤
      1910 := by
  rw [List.append_assoc, List.singleton_append, burst_length]
  · cases replay <;> cases failed <;> cases c.flights.history.getLast? <;> simp <;> omega
  · simp
  · intro d hd
    rw [List.mem_append] at hd
    rcases hd with hd | hd
    · cases replay
      · simp at hd
      · obtain ⟨x, -, rfl⟩ := List.mem_map.1 hd
        simp
    · cases failed
      · cases hl : c.flights.history.getLast? with
        | none => simp [hl] at hd
        | some x =>
          rw [hl] at hd
          simp only [Option.map_some, Option.toList_some, List.mem_singleton, Bool.false_eq_true, if_false] at hd
          rw [hd, digestBytes_length]
      · simp at hd

end Sys2Proof.Machine
end

