-- ==== Sys2Proof/Machine/Parity.lean ====
section
/-! DEFINITION. What a parity bay holds: the XOR of the payloads and of the metadata of its gallery's data positions as
stored (R408). -/

namespace Sys2Proof.Machine

open Sys2Proof

/-- Byte `i` of a bay's 65,536-byte payload as stored. DATA is encrypted where a key was in force (R120, R414) and FILLER is
zeros (R409); a landing bay holds its loss section's entries (R501); where a record lays its fields, and what stands for a
sector that is not written, is open (log entry 88). -/
def Bay.payloadByte (b : Bay) (i : Nat) : Byte :=
  match b.body with
  | .data _ => match b.cell (i / 4096) with
    | some x => x.stored.getD (i % 4096) 0
    | none => Config.openPayload b.seq i
  | .filler => 0
  | .landing r =>
    let l := r.losses.flatMap Loss.bytes
    if Config.lossPlace ≤ i then (l[i - Config.lossPlace]?).getD (Config.openPayload b.seq i)
    else Config.openPayload b.seq i
  | _ => Config.openPayload b.seq i

/-- The fields of a bay's metadata as numbers (R413). -/
def Bay.metadata (b : Bay) : List Nat :=
  [b.kind.code.toNat, b.addr, b.mask.toNat, b.seq, b.ord, b.slot.toNat, b.pclass, b.key, if b.reloc then 1 else 0]

/-- Byte `i` of the parity over some bays (R408). -/
def parityByte (bs : List Bay) (i : Nat) : Byte := (bs.map (fun b => b.payloadByte i)).foldr (· ^^^ ·) 0

/-- Field `n` of the metadata the parity over some bays carries of them (R408). -/
def parityField (bs : List Bay) (n : Nat) : Nat := (bs.map (fun b => b.metadata.getD n 0)).foldr (· ^^^ ·) 0

/-- The bays a parity bay covers, as they stand on media. -/
def Card.covered (c : Card) (p : Bay) : List Bay :=
  match p.body with
  | .parity ks => ks.filterMap c.bayAt
  | _ => []

/-- Byte `i` of what the bay at a position holds, a parity bay's by R408. -/
def Card.pageByte (c : Card) (k i : Nat) : Option Byte :=
  (c.bayAt k).map (fun b => match b.body with
    | .parity _ => parityByte (c.covered b) i
    | _ => b.payloadByte i)

end Sys2Proof.Machine
end

