-- ==== Sys2Proof/Laws/Parity.lean ====
section
/-! SUPPORT. A rebuild from parity gives what the missing position held (R408). -/

namespace Sys2Proof.Machine

open Sys2Proof

/-- An exclusive or over a list, with one member taken out. -/
theorem foldr_xor_erase (l m : List Nat) (x : Nat) :
    (l ++ x :: m).foldr (· ^^^ ·) 0 ^^^ (l ++ m).foldr (· ^^^ ·) 0 = x := by
  induction l with
  | nil => simp [Nat.xor_assoc]
  | cons y r ih =>
    simp only [List.cons_append, List.foldr_cons]
    rw [Nat.xor_comm y, Nat.xor_assoc, ← Nat.xor_assoc y y, Nat.xor_self, Nat.zero_xor, ih]

/-- The same for bytes. -/
theorem foldr_xor_erase_byte (l m : List Byte) (x : Byte) :
    (l ++ x :: m).foldr (· ^^^ ·) 0 ^^^ (l ++ m).foldr (· ^^^ ·) 0 = x := by
  induction l with
  | nil => simp [BitVec.xor_assoc]
  | cons y r ih =>
    simp only [List.cons_append, List.foldr_cons]
    rw [BitVec.xor_comm y, BitVec.xor_assoc, ← BitVec.xor_assoc y y, BitVec.xor_self, BitVec.zero_xor, ih]

/-- The parity with the other bays gives a bay's payload back, wherever it stands in the gallery. -/
theorem parity_rebuilds_payload (l m : List Bay) (x : Bay) (i : Nat) :
    parityByte (l ++ x :: m) i ^^^ parityByte (l ++ m) i = x.payloadByte i := by
  simpa only [parityByte, List.map_append, List.map_cons] using foldr_xor_erase_byte _ _ _

/-- And its metadata. -/
theorem parity_rebuilds_metadata (l m : List Bay) (x : Bay) (n : Nat) :
    parityField (l ++ x :: m) n ^^^ parityField (l ++ m) n = x.metadata.getD n 0 := by
  simpa only [parityField, List.map_append, List.map_cons] using foldr_xor_erase _ _ _

end Sys2Proof.Machine
end

