-- ==== Sys2Proof/Laws/PerInstr.lean ====
section
/-! SUPPORT. The commands one by one, as terms: which of them carry operands that can be ill-formed. -/

namespace Sys2Proof.Laws.Operands

open Sys2Proof

/-- The commands whose operands have a shape to check: frames, codewords, strap passes, reports, twin messages. -/
def shaped (i : Instr) : Bool :=
  match i with
  | .strapReadPassEnd _ => true
  | .dataFrame _ => true
  | .trailerFrame _ => true
  | .idleFrame _ _ => true
  | .unlistedOpcode _ _ => true
  | .read _ => true
  | .readStream _ => true
  | .stop _ => true
  | .verify _ => true
  | .write _ => true
  | .discardZ _ => true
  | .discardH _ => true
  | .land _ => true
  | .rollback _ => true
  | .service _ => true
  | .quiet _ => true
  | .mount _ => true
  | .mountComplete _ => true
  | .close _ => true
  | .inquire _ => true
  | .forceClose _ => true
  | .format _ => true
  | .sanitize _ => true
  | .alcoveLoad _ => true
  | .alcoveSwap _ => true
  | .eraseComplete _ => true
  | .twinHello _ => true
  | .twinDigest _ => true
  | _ => false

/-- A command without such operands is well-formed. -/
def Statement (i : Instr) : Prop := shaped i = false → WellFormed i = true

theorem pdcMate : Statement .pdcMate := fun _ => rfl
theorem softStartBegin : Statement .softStartBegin := fun _ => rfl
theorem softStartEnd : Statement .softStartEnd := fun _ => rfl
theorem powerUpStrapRead : Statement .powerUpStrapRead := fun _ => rfl
theorem strapReadPassEnd (p : StrapPass) : Statement (.strapReadPassEnd p) := fun h => nomatch h
theorem alcoveCopyComplete : Statement .alcoveCopyComplete := fun _ => rfl
theorem pdcBreak : Statement .pdcBreak := fun _ => rfl
theorem vmUndervoltageTrip : Statement .vmUndervoltageTrip := fun _ => rfl
theorem vmRestored : Statement .vmRestored := fun _ => rfl
theorem hclkStop : Statement .hclkStop := fun _ => rfl
theorem hclkAbsenceDetectorTrip : Statement .hclkAbsenceDetectorTrip := fun _ => rfl
theorem hclkReturn : Statement .hclkReturn := fun _ => rfl
theorem dpresQualified : Statement .dpresQualified := fun _ => rfl
theorem dpresOpen : Statement .dpresOpen := fun _ => rfl
theorem treadTick : Statement .treadTick := fun _ => rfl
theorem trainingHold (seq : BitVec 4) : Statement (.trainingHold seq) := fun _ => rfl
theorem setPreset (seq : BitVec 4) (lane : BitVec 2) (preset : BitVec 3) : Statement (.setPreset seq lane preset) := fun _ => rfl
theorem ready (seq : BitVec 4) (laneCode : BitVec 3) : Statement (.ready seq laneCode) := fun _ => rfl
theorem reservedTrainingRequest (seq code : BitVec 4) : Statement (.reservedTrainingRequest seq code) := fun _ => rfl
theorem laneTrained (lane : BitVec 2) (margin : Byte) : Statement (.laneTrained lane margin) := fun _ => rfl
theorem firstH2cMarker : Statement .firstH2cMarker := fun _ => rfl
theorem h2cMarkerTimeout : Statement .h2cMarkerTimeout := fun _ => rfl
theorem hostRetrain : Statement .hostRetrain := fun _ => rfl
theorem cardRetrainRequest (cause : RetrainCause) (lanes : BitVec 4) : Statement (.cardRetrainRequest cause lanes) := fun _ => rfl
theorem markerSend : Statement .markerSend := fun _ => rfl
theorem markerReceived (lane : BitVec 2) (mark : SeenMarker) (margin : Byte) : Statement (.markerReceived lane mark margin) := fun _ => rfl
theorem dataFrame (w : LaneWord) : Statement (.dataFrame w) := fun h => nomatch h
theorem trailerFrame (w : LaneWord) : Statement (.trailerFrame w) := fun h => nomatch h
theorem idleFrame (lane : BitVec 2) (syms : List (BitVec 10)) : Statement (.idleFrame lane syms) := fun h => nomatch h
theorem trailerTimeout (tag : Tag) : Statement (.trailerTimeout tag) := fun _ => rfl
theorem holdBegin : Statement .holdBegin := fun _ => rfl
theorem unlistedOpcode (opcode : Byte) (f : Frame) : Statement (.unlistedOpcode opcode f) := fun h => nomatch h
theorem read (f : Frame) : Statement (.read f) := fun h => nomatch h
theorem readStream (f : Frame) : Statement (.readStream f) := fun h => nomatch h
theorem streamSegmentStart (tag : Tag) : Statement (.streamSegmentStart tag) := fun _ => rfl
theorem stop (f : Frame) : Statement (.stop f) := fun h => nomatch h
theorem verify (f : Frame) : Statement (.verify f) := fun h => nomatch h
theorem write (f : Frame) : Statement (.write f) := fun h => nomatch h
theorem writeGo (tag : Tag) : Statement (.writeGo tag) := fun _ => rfl
theorem delayedMergeStart (tag : Tag) : Statement (.delayedMergeStart tag) := fun _ => rfl
theorem discardZ (f : Frame) : Statement (.discardZ f) := fun h => nomatch h
theorem discardH (f : Frame) : Statement (.discardH f) := fun h => nomatch h
theorem land (f : Frame) : Statement (.land f) := fun h => nomatch h
theorem rollback (f : Frame) : Statement (.rollback f) := fun h => nomatch h
theorem service (f : Frame) : Statement (.service f) := fun h => nomatch h
theorem quiet (f : Frame) : Statement (.quiet f) := fun h => nomatch h
theorem mount (f : Frame) : Statement (.mount f) := fun h => nomatch h
theorem mountComplete (r : ScanReport) : Statement (.mountComplete r) := fun h => nomatch h
theorem close (f : Frame) : Statement (.close f) := fun h => nomatch h
theorem inquire (f : Frame) : Statement (.inquire f) := fun h => nomatch h
theorem inquireDeferredTransfer (tag : Tag) : Statement (.inquireDeferredTransfer tag) := fun _ => rfl
theorem forceClose (f : Frame) : Statement (.forceClose f) := fun h => nomatch h
theorem format (f : Frame) : Statement (.format f) := fun h => nomatch h
theorem sanitize (f : Frame) : Statement (.sanitize f) := fun h => nomatch h
theorem alcoveLoad (f : Frame) : Statement (.alcoveLoad f) := fun h => nomatch h
theorem alcoveSwap (f : Frame) : Statement (.alcoveSwap f) := fun h => nomatch h
theorem syncSetTread (m : SyncMsg) : Statement (.syncSetTread m) := fun _ => rfl
theorem syncCheckTread (m : SyncMsg) : Statement (.syncCheckTread m) := fun _ => rfl
theorem syncLand (m : SyncMsg) : Statement (.syncLand m) := fun _ => rfl
theorem syncRollback (m : SyncMsg) : Statement (.syncRollback m) := fun _ => rfl
theorem syncService (m : SyncMsg) : Statement (.syncService m) := fun _ => rfl
theorem syncQuiet (m : SyncMsg) : Statement (.syncQuiet m) := fun _ => rfl
theorem syncMark (m : SyncMsg) : Statement (.syncMark m) := fun _ => rfl
theorem landingExecute : Statement .landingExecute := fun _ => rfl
theorem landingBayIssue (since : BitVec 24) : Statement (.landingBayIssue since) := fun _ => rfl
theorem landingCutoff : Statement .landingCutoff := fun _ => rfl
theorem rollbackExecute : Statement .rollbackExecute := fun _ => rfl
theorem rollbackBayIssue (since : BitVec 24) : Statement (.rollbackBayIssue since) := fun _ => rfl
theorem rollbackCutoff : Statement .rollbackCutoff := fun _ => rfl
theorem markExecute : Statement .markExecute := fun _ => rfl
theorem windowStart : Statement .windowStart := fun _ => rfl
theorem windowEnd : Statement .windowEnd := fun _ => rfl
theorem keepaliveInterim (tag : Tag) : Statement (.keepaliveInterim tag) := fun _ => rfl
theorem descriptorQueued (hall : BitVec 4) : Statement (.descriptorQueued hall) := fun _ => rfl
theorem programComplete (hall die : BitVec 4) (r : ProgReport) : Statement (.programComplete hall die r) := fun _ => rfl
theorem readComplete (hall die : BitVec 4) (r : ReadReport) : Statement (.readComplete hall die r) := fun _ => rfl
theorem eraseComplete (r : EraseReport) : Statement (.eraseComplete r) := fun h => nomatch h
theorem descriptorHung (hall die : BitVec 4) : Statement (.descriptorHung hall die) := fun _ => rfl
theorem hallResetEnd (hall : BitVec 4) (micros : BitVec 16) : Statement (.hallResetEnd hall micros) := fun _ => rfl
theorem windowEraseStart : Statement .windowEraseStart := fun _ => rfl
theorem reclaimRelocation : Statement .reclaimRelocation := fun _ => rfl
theorem refreshRelocation : Statement .refreshRelocation := fun _ => rfl
theorem staticLevelMove : Statement .staticLevelMove := fun _ => rfl
theorem patrolVisit : Statement .patrolVisit := fun _ => rfl
theorem annealStart (pulses : Byte) : Statement (.annealStart pulses) := fun _ => rfl
theorem heatComplete (hall die : BitVec 4) : Statement (.heatComplete hall die) := fun _ => rfl
theorem annealProbe (hall die : BitVec 4) (pulses : Byte) : Statement (.annealProbe hall die pulses) := fun _ => rfl
theorem heaterTimeout (hall die : BitVec 4) : Statement (.heaterTimeout hall die) := fun _ => rfl
theorem thermalStageChange (die : DieTemp) (others : List DieTemp) (controller : BitVec 16) :
    Statement (.thermalStageChange die others controller) := fun _ => rfl
theorem twinHello (bytes : List Byte) : Statement (.twinHello bytes) := fun h => nomatch h
theorem twinDigest (bytes : List Byte) : Statement (.twinDigest bytes) := fun h => nomatch h
theorem twinWaitExpiry : Statement .twinWaitExpiry := fun _ => rfl
theorem balconyPeriod : Statement .balconyPeriod := fun _ => rfl
theorem balconySlot : Statement .balconySlot := fun _ => rfl
theorem refusedFrame (port : Port) (b : BadFrame) : Statement (.refusedFrame port b) := fun _ => rfl
theorem alignmentLost (port : Port) : Statement (.alignmentLost port) := fun _ => rfl
theorem alignmentRegained (port : Port) : Statement (.alignmentRegained port) := fun _ => rfl
theorem characterOutsideFrame (port : Port) : Statement (.characterOutsideFrame port) := fun _ => rfl
theorem badSyncMessage (line : SyLine) : Statement (.badSyncMessage line) := fun _ => rfl
theorem syncIdleTimeout (line : SyLine) : Statement (.syncIdleTimeout line) := fun _ => rfl
theorem exclusiveReadWaitExpiry (hall die : BitVec 4) : Statement (.exclusiveReadWaitExpiry hall die) := fun _ => rfl
theorem eraseSuspendComplete (hall die : BitVec 4) : Statement (.eraseSuspendComplete hall die) := fun _ => rfl
theorem alcoveOperationComplete (ok : Bool) : Statement (.alcoveOperationComplete ok) := fun _ => rfl

end Sys2Proof.Laws.Operands
end

