-- ==== Sys2Proof/Laws/Rest.lean ====
section
/-! SUPPORT. What the work on wings, hall queues and dies leaves alone (`_rest`, and `_far` where it may end a command or
move a landing on). -/

namespace Sys2Proof.Machine

open Sys2Proof

/-- What the work on wings, hall queues and dies leaves alone. -/
structure Rest where
  phase : Phase
  power : Power
  straps : Straps
  treads : Treads
  link : Link
  ports : Ports
  flights : Flights
  views : Views
  twin : Twin
  alcove : Alcove
  out : List Out

/-- That part of a card. -/
def Card.rest (c : Card) : Rest :=
  { phase := c.phase, power := c.power, straps := c.straps, treads := c.treads, link := c.link, ports := c.ports,
    flights := c.flights, views := c.views, twin := c.twin, alcove := c.alcove, out := c.out }

/-- Each such field read from the card is the field of that part. -/
theorem Rest.parts (c : Card) :
    c.phase = c.rest.phase ∧
    c.power = c.rest.power ∧
    c.straps = c.rest.straps ∧
    c.treads = c.rest.treads ∧
    c.link = c.rest.link ∧
    c.ports = c.rest.ports ∧
    c.flights = c.rest.flights ∧
    c.views = c.rest.views ∧
    c.twin = c.rest.twin ∧
    c.alcove = c.rest.alcove ∧
    c.out = c.rest.out :=
  ⟨rfl, rfl, rfl, rfl, rfl, rfl, rfl, rfl, rfl, rfl, rfl⟩

@[simp] theorem Rest.of_mk (ph : Phase) (pw : Power) (st : Straps) (tr : Treads) (lk : Link) (po : Ports) (fl : Flights)
    (vi : Views) (me : Media) (ha : Halls) (ma : Maint) (lo : Losses) (tw : Twin) (al : Alcove) (ba : Balcony)
    (ou : List Out) (fr : Nat) :
    Card.rest ⟨ph, pw, st, tr, lk, po, fl, vi, me, ha, ma, lo, tw, al, ba, ou, fr⟩ =
      ⟨ph, pw, st, tr, lk, po, fl, vi, tw, al, ou⟩ := rfl

@[simp] theorem Rest.foldl {α : Type} (f : Card → α → Card) (h : ∀ c x, (f c x).rest = c.rest) (l : List α) (c : Card) :
    (l.foldl f c).rest = c.rest := by
  induction l generalizing c with
  | nil => rfl
  | cons a r ih => simp [ih, h]

theorem Rest.foldl_from {α : Type} (f : Card → α → Card) (h : ∀ c x, (f c x).rest = c.rest) (l : List α) (c d : Card)
    (e : d.rest = c.rest) : (l.foldl f d).rest = c.rest := (Rest.foldl f h l d).trans e

@[simp] theorem Card.setWing_rest (c : Card) (w : Nat) (v : Wing) :
    (c.setWing w v).rest = c.rest := by
  unfold Card.setWing
  (try dsimp only)
  (repeat' split) <;> simp [Rest.parts]

@[simp] theorem Card.setDie_rest (c : Card) (n : Nat) (v : Die) :
    (c.setDie n v).rest = c.rest := by
  unfold Card.setDie
  (try dsimp only)
  (repeat' split) <;> simp [Rest.parts]

@[simp] theorem Card.bump_rest (c : Card) (n k : Nat) :
    (c.bump n k).rest = c.rest := by
  unfold Card.bump
  (try dsimp only)
  (repeat' split) <;> simp [Rest.parts]

@[simp] theorem Card.ev_rest (c : Card) (n : Nat) (bs : List Byte) :
    (c.ev n bs).rest = c.rest := by
  unfold Card.ev
  (try dsimp only)
  (repeat' split) <;> simp [Rest.parts]

@[simp] theorem Card.enterEvent_rest (c : Card) (e : BalRec) :
    (c.enterEvent e).rest = c.rest := by
  unfold Card.enterEvent
  (try dsimp only)
  (repeat' split) <;> simp [Rest.parts]

@[simp] theorem Card.enterEvents_rest (c : Card) (n : Nat) :
    (c.enterEvents n).rest = c.rest := by
  unfold Card.enterEvents
  (try dsimp only)
  (repeat' split) <;> simp [Rest.parts]

@[simp] theorem Card.queueLoad_rest (c : Card) :
    c.queueLoad.rest = c.rest := by
  unfold Card.queueLoad
  (try dsimp only)
  (repeat' split) <;> simp [Rest.parts]

@[simp] theorem Card.traceFinal_rest (c : Card) (p : Port) (t : Tag) (st : Status) (info : BitVec 24) (z : Bool) :
    (c.traceFinal p t st info z).rest = c.rest := by
  unfold Card.traceFinal
  (try dsimp only)
  (repeat' split) <;> simp [Rest.parts]

@[simp] theorem Card.traceCode_rest (c : Card) (n kind : Nat) (code : DescCode) (blk page : Nat) :
    (c.traceCode n kind code blk page).rest = c.rest := by
  unfold Card.traceCode
  (try dsimp only)
  (repeat' split) <;> simp [Rest.parts]

@[simp] theorem Card.countDesc_rest (c : Card) (d : Desc) :
    (c.countDesc d).rest = c.rest := by
  unfold Card.countDesc
  (try dsimp only)
  (repeat' split) <;> simp [Rest.parts]

@[simp] theorem Card.complete_rest (c : Card) (d : Desc) (code : DescCode) :
    (c.complete d code).rest = c.rest := by
  unfold Card.complete
  (try dsimp only)
  (repeat' split) <;> simp [Rest.parts]

@[simp] theorem Card.keepDescs_rest (c : Card) (p : Desc → Bool) : (c.keepDescs p).rest = c.rest :=
  Rest.foldl_from _ (fun c d => by simp) _ _ _ (by simp [Rest.parts])

@[simp] theorem Card.keepJobs_rest (c : Card) (p : Nat × ReadJob → Bool) :
    (c.keepJobs p).rest = c.rest := by
  unfold Card.keepJobs
  (try dsimp only)
  (repeat' split) <;> simp [Rest.parts]

@[simp] theorem Card.endMoves_rest (c : Card) (p : MoveWhy → Bool) :
    (c.endMoves p).rest = c.rest := by
  unfold Card.endMoves
  (try dsimp only)
  (repeat' split) <;> simp [Rest.parts]

@[simp] theorem Card.untake_rest (c : Card) (k : Nat) :
    (c.untake k).rest = c.rest := by
  unfold Card.untake
  (try dsimp only)
  (repeat' split) <;> simp [Rest.parts]

@[simp] theorem Card.sweep_rest (c : Card) : c.sweep.rest = c.rest :=
  Rest.foldl _ (fun c x => by simp) _ _

@[simp] theorem Card.newPass_rest (c : Card) :
    c.newPass.rest = c.rest := by
  unfold Card.newPass
  (try dsimp only)
  (repeat' split) <;> simp [Rest.parts]

@[simp] theorem Card.passOver_rest (c : Card) :
    (c.passOver).rest = c.rest := by
  unfold Card.passOver
  (try dsimp only)
  (repeat' split) <;> simp [Rest.parts]

@[simp] theorem Card.awaitErase_rest (c : Card) (w : Nat) :
    (c.awaitErase w).rest = c.rest := by
  unfold Card.awaitErase
  (try dsimp only)
  (repeat' split) <;> simp [Rest.parts]

@[simp] theorem Card.nextFree_rest (c : Card) :
    c.nextFree.rest = c.rest := by
  unfold Card.nextFree
  (try dsimp only)
  (repeat' split) <;> simp [Rest.parts]

@[simp] theorem Card.countTaken_rest (c : Card) (p : Port) :
    (c.countTaken p).rest = c.rest := by
  unfold Card.countTaken
  (try dsimp only)
  (repeat' split) <;> simp [Rest.parts]

@[simp] theorem Card.setStage_rest (c : Card) (n : Nat) (s : EraseStage) :
    (c.setStage n s).rest = c.rest := by
  unfold Card.setStage
  (try dsimp only)
  (repeat' split) <;> simp [Rest.parts]

@[simp] theorem Card.issue_rest (c : Card) (d : Desc) :
    (c.issue d).rest = c.rest := by
  unfold Card.issue
  (try dsimp only)
  (repeat' split) <;> simp [Rest.parts]

@[simp] theorem Card.setPointer_rest (c : Card) (w h n : Nat) :
    (c.setPointer w h n).rest = c.rest := by
  unfold Card.setPointer
  (try dsimp only)
  (repeat' split) <;> simp [Rest.parts]

@[simp] theorem Card.setQueue_rest (c : Card) (h : Nat) (q : List Desc) :
    (c.setQueue h q).rest = c.rest := by
  unfold Card.setQueue
  (try dsimp only)
  (repeat' split) <;> simp [Rest.parts]

@[simp] theorem Card.setBack_rest (c : Card) (h : Nat) (q : List Desc) :
    (c.setBack h q).rest = c.rest := by
  unfold Card.setBack
  (try dsimp only)
  (repeat' split) <;> simp [Rest.parts]

@[simp] theorem Card.startDesc_rest (c : Card) (n : Nat) (d : Desc) :
    (c.startDesc n d).rest = c.rest := by
  unfold Card.startDesc
  (try dsimp only)
  (repeat' split) <;> simp [Rest.parts]

@[simp] theorem Card.pumpOne_rest (c : Card) (n : Nat) :
    (c.pumpOne n).rest = c.rest := by
  unfold Card.pumpOne
  (try dsimp only)
  (repeat' split) <;> simp [Rest.parts]

@[simp] theorem Card.pump_rest (c : Card) (n : Nat) :
    (c.pump n).rest = c.rest := by
  unfold Card.pump
  (try dsimp only)
  (repeat' split) <;> simp [Rest.parts]

@[simp] theorem Card.pumpAll_rest (c : Card) :
    c.pumpAll.rest = c.rest := by
  unfold Card.pumpAll
  (try dsimp only)
  (repeat' split) <;> simp [Rest.parts]

@[simp] theorem Card.enqueue_rest (c : Card) (d : Desc) :
    (c.enqueue d).rest = c.rest := by
  unfold Card.enqueue
  (try dsimp only)
  (repeat' split) <;> simp [Rest.parts]

@[simp] theorem Card.enqueueAll_rest (c : Card) (ds : List Desc) :
    (c.enqueueAll ds).rest = c.rest := by
  unfold Card.enqueueAll
  (try dsimp only)
  (repeat' split) <;> simp [Rest.parts]

@[simp] theorem Card.issueProgram_rest (c : Card) (k : Nat) :
    (c.issueProgram k).rest = c.rest := by
  unfold Card.issueProgram
  (try dsimp only)
  (repeat' split) <;> simp [Rest.parts]

@[simp] theorem Card.abortQueued_rest (c : Card) :
    c.abortQueued.rest = c.rest := by
  unfold Card.abortQueued
  (try dsimp only)
  (repeat' split) <;> simp [Rest.parts]

@[simp] theorem Card.putJob_rest (c : Card) (id : Nat) (j : ReadJob) :
    (c.putJob id j).rest = c.rest := by
  unfold Card.putJob
  (try dsimp only)
  (repeat' split) <;> simp [Rest.parts]

@[simp] theorem Card.dropJob_rest (c : Card) (id : Nat) :
    (c.dropJob id).rest = c.rest := by
  unfold Card.dropJob
  (try dsimp only)
  (repeat' split) <;> simp [Rest.parts]

@[simp] theorem Card.newId_rest (c : Card) :
    c.newId.1.rest = c.rest := by
  unfold Card.newId
  (try dsimp only)
  (repeat' split) <;> simp [Rest.parts]

@[simp] theorem Card.startKid_rest (c : Card) (parent : Nat) (mask : BitVec 16) (k : Nat) :
    (c.startKid parent mask k).rest = c.rest := by
  unfold Card.startKid
  (try dsimp only)
  (repeat' split) <;> simp [Rest.parts]

@[simp] theorem Card.markRefresh_rest (c : Card) (w trigger : Nat) :
    (c.markRefresh w trigger).rest = c.rest := by
  unfold Card.markRefresh
  (try dsimp only)
  (repeat' split) <;> simp [Rest.parts]

@[simp] theorem Card.markRead_rest (c : Card) (j : ReadJob) :
    (c.markRead j).rest = c.rest := by
  unfold Card.markRead
  (try dsimp only)
  (repeat' split) <;> simp [Rest.parts]

@[simp] theorem Card.traceStep_rest (c : Card) (j : ReadJob) (step : Nat) :
    (c.traceStep j step).rest = c.rest := by
  unfold Card.traceStep
  (try dsimp only)
  (repeat' split) <;> simp [Rest.parts]

@[simp] theorem Card.startRebuild_rest (c : Card) (id : Nat) (j : ReadJob) :
    (c.startRebuild id j).rest = c.rest := by
  unfold Card.startRebuild
  (try dsimp only)
  (repeat' split) <;> simp [Rest.parts]

@[simp] theorem Card.startJob_rest (c : Card) (k : Nat) (p : Purpose) (strict : Bool) :
    (c.startJob k p strict).rest = c.rest := by
  unfold Card.startJob
  (try dsimp only)
  (repeat' split) <;> simp [Rest.parts]

@[simp] theorem Card.countRead_rest (c : Card) (w : Nat) :
    (c.countRead w).rest = c.rest := by
  unfold Card.countRead
  (try dsimp only)
  (repeat' split) <;> simp [Rest.parts]

@[simp] theorem Card.noteSteps_rest (c : Card) (j : ReadJob) (retry : Nat) :
    (c.noteSteps j retry).rest = c.rest := by
  unfold Card.noteSteps
  (try dsimp only)
  (repeat' split) <;> simp [Rest.parts]

@[simp] theorem Card.endJob_rest (c : Card) (id : Nat) (j : ReadJob) (bad : Bool) :
    (c.endJob id j bad).rest = c.rest := by
  unfold Card.endJob
  (try dsimp only)
  (repeat' split) <;> simp [Rest.parts]

@[simp] theorem Card.dropMoveJob_rest (c : Card) (id : Nat) (j : ReadJob) :
    (c.dropMoveJob id j).rest = c.rest := by
  unfold Card.dropMoveJob
  (try dsimp only)
  (repeat' split) <;> simp [Rest.parts]

@[simp] theorem Card.stepJob_rest (c : Card) (id : Nat) (j : ReadJob) (r : ReadReport) :
    (c.stepJob id j r).rest = c.rest := by
  unfold Card.stepJob
  (try dsimp only)
  (repeat' split) <;> simp [Rest.parts]

@[simp] theorem Card.kidEnded_rest (c : Card) (parent : Nat) (kid : ReadJob) :
    (c.kidEnded parent kid).rest = c.rest := by
  unfold Card.kidEnded
  (try dsimp only)
  (repeat' split) <;> simp [Rest.parts]

@[simp] theorem Card.divertRead_rest (c : Card) (d : Desc) :
    (c.divertRead d).rest = c.rest := by
  unfold Card.divertRead
  (try dsimp only)
  (repeat' split) <;> simp [Rest.parts]

@[simp] theorem Card.divertReads_rest (c : Card) (n : Nat) :
    (c.divertReads n).rest = c.rest := by
  unfold Card.divertReads
  (try dsimp only)
  (repeat' split) <;> simp [Rest.parts]

@[simp] theorem Card.collectKids_rest (c : Card) :
    c.collectKids.rest = c.rest := by
  unfold Card.collectKids
  (try dsimp only)
  (repeat' split) <;>
    (try rw [Rest.foldl _ (fun c x => by (try dsimp only); (repeat' split) <;> simp)]) <;> simp [Rest.parts]

@[simp] theorem Card.crossMark_rest (c : Card) (old new mark code : Nat) :
    (c.crossMark old new mark code).rest = c.rest := by
  unfold Card.crossMark
  (try dsimp only)
  (repeat' split) <;> simp [Rest.parts]

@[simp] theorem Card.evalMarks_rest (c : Card) :
    c.evalMarks.rest = c.rest := by
  unfold Card.evalMarks
  (try dsimp only)
  (repeat' split) <;> simp [Rest.parts]

@[simp] theorem Card.openWing_rest (c : Card) (w : Nat) (move : Bool) :
    (c.openWing w move).rest = c.rest := by
  unfold Card.openWing
  (try dsimp only)
  (repeat' split) <;> simp [Rest.parts]

@[simp] theorem Card.ensureOpen_rest (c : Card) (user : Bool) :
    (c.ensureOpen user).rest = c.rest := by
  unfold Card.ensureOpen
  (try dsimp only)
  (repeat' split) <;> simp [Rest.parts]

@[simp] theorem Card.setOpen_rest (c : Card) (o : OpenWing) :
    (c.setOpen o).rest = c.rest := by
  unfold Card.setOpen
  (try dsimp only)
  (repeat' split) <;> simp [Rest.parts]

@[simp] theorem Card.lodge_rest (c : Card) (o : OpenWing) (g : Gallery) (b : Bay) :
    (c.lodge o g b).rest = c.rest := by
  unfold Card.lodge
  (try dsimp only)
  (repeat' split) <;> simp [Rest.parts]

@[simp] theorem Card.takeHall_rest (c : Card) (o : OpenWing) (g : Gallery) (h : Nat) (b : Bay) :
    (c.takeHall o g h b).rest = c.rest := by
  unfold Card.takeHall
  (try dsimp only)
  (repeat' split) <;> simp [Rest.parts]

@[simp] theorem Card.assignIn_rest (c : Card) (w : Nat) (b : Bay) :
    (c.assignIn w b).1.rest = c.rest := by
  unfold Card.assignIn
  (try dsimp only)
  (repeat' split) <;> simp [Rest.parts]

@[simp] theorem Card.stampBay_rest (c : Card) (b : Bay) :
    (c.stampBay b).1.rest = c.rest := by
  unfold Card.stampBay
  (try dsimp only)
  (repeat' split) <;> simp [Rest.parts]

@[simp] theorem Card.addOwn_rest (c : Card) (w : Nat) (g : Gallery) (h : Nat) (kind : BayKind) (body : Body) :
    (c.addOwn w g h kind body).rest = c.rest := by
  unfold Card.addOwn
  (try dsimp only)
  (repeat' split) <;> simp [Rest.parts]

@[simp] theorem Card.release_rest (c : Card) (ks : List Nat) :
    (c.release ks).rest = c.rest := by
  unfold Card.release
  (try dsimp only)
  (repeat' split) <;> simp [Rest.parts]

@[simp] theorem Card.closeWing_rest (c : Card) (w : Nat) :
    (c.closeWing w).rest = c.rest := by
  unfold Card.closeWing
  (try dsimp only)
  (repeat' split) <;> simp [Rest.parts]

@[simp] theorem Card.fillGallery_rest (c : Card) (w n : Nat) :
    (c.fillGallery w n).rest = c.rest := by
  unfold Card.fillGallery
  exact Rest.foldl _ (fun c x => by (try dsimp only); (repeat' split) <;> simp) _ _

@[simp] theorem Card.draw_rest (c : Card) (user : Bool) (kind : BayKind) (k : Nat) :
    (c.draw user kind k).rest = c.rest := by
  unfold Card.draw
  (try dsimp only)
  (repeat' split) <;> simp [Rest.parts]

@[simp] theorem Card.supersede_rest (c : Card) (k : Nat) :
    (c.supersede k).rest = c.rest := by
  unfold Card.supersede
  (try dsimp only)
  (repeat' split) <;> simp [Rest.parts]

@[simp] theorem Card.traceRedrive_rest (c : Card) (cause k n : Nat) :
    (c.traceRedrive cause k n).rest = c.rest := by
  unfold Card.traceRedrive
  (try dsimp only)
  (repeat' split) <;> simp [Rest.parts]

@[simp] theorem Card.releaseBare_rest (c : Card) (k : Nat) : (c.releaseBare k).rest = c.rest := by
  unfold Card.releaseBare
  split <;> simp

@[simp] theorem Card.loseHall_rest (c : Card) (k : Nat) (seq : Nat) :
    (c.loseHall k seq).rest = c.rest := by
  unfold Card.loseHall
  (try dsimp only)
  (repeat' split) <;> simp [Rest.parts]

@[simp] theorem Card.missHall_rest (c : Card) (n : Nat) :
    (c.missHall n).rest = c.rest := by
  unfold Card.missHall
  (try dsimp only)
  (repeat' split) <;> simp [Rest.parts]

@[simp] theorem Card.decideWear_rest (c : Card) :
    c.decideWear.rest = c.rest := by
  unfold Card.decideWear
  (try dsimp only)
  (repeat' split) <;> simp [Rest.parts]

@[simp] theorem Card.reclass_rest (c : Card) (w : Nat) :
    (c.reclass w).rest = c.rest := by
  unfold Card.reclass
  (try dsimp only)
  (repeat' split) <;> simp [Rest.parts]

@[simp] theorem Card.countPulses_rest (c : Card) (k pulses : Nat) :
    (c.countPulses k pulses).rest = c.rest := by
  unfold Card.countPulses
  (try dsimp only)
  (repeat' split) <;> simp [Rest.parts]

@[simp] theorem Card.writeCell_rest (c : Card) (k : Nat) (x : Cell) :
    (c.writeCell k x).rest = c.rest := by
  unfold Card.writeCell
  (try dsimp only)
  (repeat' split) <;> simp [Rest.parts]

@[simp] theorem Card.storeLoss_rest (c : Card) (e : Loss) :
    (c.storeLoss e).rest = c.rest := by
  unfold Card.storeLoss
  (try dsimp only)
  (repeat' split) <;> simp [Rest.parts]

@[simp] theorem Card.addLoss_rest (c : Card) (k : Nat) (source : LossSource) (blind : Bool) :
    (c.addLoss k source blind).rest = c.rest := by
  unfold Card.addLoss
  (try dsimp only)
  (repeat' split) <;> simp [Rest.parts]

@[simp] theorem Card.carryLosses_rest (c : Card) (f : Flight) (seq : Nat) (rec : List Loss) :
    (c.carryLosses f seq rec).rest = c.rest := by
  unfold Card.carryLosses
  (try dsimp only)
  (repeat' split) <;> simp [Rest.parts]

@[simp] theorem Card.reportLosses_rest (c : Card) :
    c.reportLosses.rest = c.rest := by
  unfold Card.reportLosses
  (try dsimp only)
  (repeat' split) <;> simp [Rest.parts]

@[simp] theorem Card.notePiece_rest (c : Card) (p : Piece) (q : Purpose) (strict : Bool) (k : Nat) :
    (c.notePiece p q strict k).rest = c.rest := by
  unfold Card.notePiece
  (try dsimp only)
  (repeat' split) <;> simp [Rest.parts]

@[simp] theorem Card.startReads_rest (c : Card) (ps : List Piece) (p : Nat → Purpose) (strict : Bool) :
    (c.startReads ps p strict).rest = c.rest := by
  unfold Card.startReads
  (try dsimp only)
  (repeat' split) <;>
    (try rw [Rest.foldl _ (fun c x => by (try dsimp only); (repeat' split) <;> simp)]) <;> simp [Rest.parts]

@[simp] theorem Card.countBytes_rest (c : Card) (n : Nat) :
    (c.countBytes n).rest = c.rest := by
  unfold Card.countBytes
  (try dsimp only)
  (repeat' split) <;> simp [Rest.parts]

@[simp] theorem Card.emptied_rest (c : Card) (w : Nat) :
    (c.emptied w).rest = c.rest := by
  unfold Card.emptied
  (try dsimp only)
  (repeat' split) <;> simp [Rest.parts]

@[simp] theorem Card.traceVictim_rest (c : Card) (w : Nat) (inl : Bool) :
    (c.traceVictim w inl).rest = c.rest := by
  unfold Card.traceVictim
  (try dsimp only)
  (repeat' split) <;> simp [Rest.parts]

@[simp] theorem Card.dropMove_rest (c : Card) (id : Nat) :
    (c.dropMove id).rest = c.rest := by
  unfold Card.dropMove
  (try dsimp only)
  (repeat' split) <;> simp [Rest.parts]

@[simp] theorem Card.startErase_rest (c : Card) (w : Nat) (o : EraseOwner) :
    (c.startErase w o).rest = c.rest := by
  unfold Card.startErase
  (try dsimp only)
  (repeat' split) <;> simp [Rest.parts]

@[simp] theorem Card.clearPages_rest (c : Card) (p : Nat → Bool) :
    (c.clearPages p).rest = c.rest := by
  unfold Card.clearPages
  (try dsimp only)
  (repeat' split) <;> simp [Rest.parts]

@[simp] theorem Card.eraseHall_rest (c : Card) (w h : Nat) :
    (c.eraseHall w h).rest = c.rest := by
  unfold Card.eraseHall
  (try dsimp only)
  (repeat' split) <;> simp [Rest.parts]

@[simp] theorem Card.endErase_rest (c : Card) (w : Nat) (failed : Bool) :
    (c.endErase w failed).rest = c.rest := by
  unfold Card.endErase
  (try dsimp only)
  (repeat' split) <;> simp [Rest.parts]

@[simp] theorem Card.newVictim_rest (c : Card) :
    c.newVictim.1.rest = c.rest := by
  unfold Card.newVictim
  (try dsimp only)
  (repeat' split) <;> simp [Rest.parts]

@[simp] theorem Card.inlineVictim_rest (c : Card) :
    c.inlineVictim.1.rest = c.rest := by
  unfold Card.inlineVictim
  (try dsimp only)
  (repeat' split) <;> simp [Rest.parts]

@[simp] theorem Card.holdWindow_rest (c : Card) (w : Window) :
    (c.holdWindow w).rest = c.rest := by
  unfold Card.holdWindow
  (try dsimp only)
  (repeat' split) <;> simp [Rest.parts]

@[simp] theorem Card.startWindow_rest (c : Card) (w : Window) :
    (c.startWindow w).rest = c.rest := by
  unfold Card.startWindow
  (try dsimp only)
  (repeat' split) <;> simp [Rest.parts]

@[simp] theorem Card.cutVisit_rest (c : Card) :
    c.cutVisit.rest = c.rest := by
  unfold Card.cutVisit
  (try dsimp only)
  (repeat' split) <;> simp [Rest.parts]

@[simp] theorem Card.windowStart_rest (c : Card) :
    (c.windowStart).rest = c.rest := by
  unfold Card.windowStart
  (try dsimp only)
  (repeat' split) <;> simp [Rest.parts]

@[simp] theorem Card.dropSync_rest (c : Card) (reason type seq : Byte) :
    (c.dropSync reason type seq).rest = c.rest := by
  unfold Card.dropSync
  (try dsimp only)
  (repeat' split) <;> simp [Rest.parts]

@[simp] theorem Card.countWritten_rest (c : Card) (w : WriteWork) :
    (c.countWritten w).rest = c.rest := by
  unfold Card.countWritten
  (try dsimp only)
  (repeat' split) <;> simp [Rest.parts]

@[simp] theorem Card.traceAlcove_rest (c : Card) (o : AlcoveOp) :
    (c.traceAlcove o).rest = c.rest := by
  unfold Card.traceAlcove
  (try dsimp only)
  (repeat' split) <;> simp [Rest.parts]

@[simp] theorem Card.unfence_rest (c : Card) :
    c.unfence.rest = c.rest := by
  unfold Card.unfence
  (try dsimp only)
  (repeat' split) <;> simp [Rest.parts]

@[simp] theorem Card.traceRefusal_rest (c : Card) (n b : Nat) (ok : Bool) :
    (c.traceRefusal n b ok).rest = c.rest := by
  unfold Card.traceRefusal
  (try dsimp only)
  (repeat' split) <;> simp [Rest.parts]

@[simp] theorem Card.sanitizeBlock_rest (c : Card) (h d b : Nat) :
    (c.sanitizeBlock h d b).rest = c.rest := by
  unfold Card.sanitizeBlock
  (try dsimp only)
  (repeat' split) <;> simp [Rest.parts]

@[simp] theorem Card.eraseAllBut_rest (c : Card) (refused : List BlockRef) :
    (c.eraseAllBut refused).rest = c.rest := by
  unfold Card.eraseAllBut
  (try dsimp only)
  (repeat' split) <;> simp [Rest.parts]

@[simp] theorem Card.lossIf_rest (c : Card) (j : ReadJob) (s : LossSource) :
    (c.lossIf j s).rest = c.rest := by
  unfold Card.lossIf
  (try dsimp only)
  (repeat' split) <;> simp [Rest.parts]

@[simp] theorem Card.renewPass_rest (c : Card) :
    c.renewPass.rest = c.rest := by
  unfold Card.renewPass
  (try dsimp only)
  (repeat' split) <;> simp [Rest.parts]

@[simp] theorem Card.visited_rest (c : Card) (w : Nat) :
    (c.visited w).rest = c.rest := by
  unfold Card.visited
  (try dsimp only)
  (repeat' split) <;> simp [Rest.parts]

@[simp] theorem Card.keepRead_rest (c : Card) (k : Nat) (bad : Bool) :
    (c.keepRead k bad).rest = c.rest := by
  unfold Card.keepRead
  (try dsimp only)
  (repeat' split) <;> simp [Rest.parts]

@[simp] theorem Card.freeDie_rest (c : Card) (n : Nat) :
    (c.freeDie n).rest = c.rest := by
  unfold Card.freeDie
  (try dsimp only)
  (repeat' split) <;> simp [Rest.parts]

@[simp] theorem Card.traceMark_rest (c : Card) (b : Bay) :
    (c.traceMark b).rest = c.rest := by
  unfold Card.traceMark
  (try dsimp only)
  (repeat' split) <;> simp [Rest.parts]

@[simp] theorem Card.pastPage_rest (c : Card) (k : Nat) :
    (c.pastPage k).rest = c.rest := by
  unfold Card.pastPage
  (try dsimp only)
  (repeat' split) <;> simp [Rest.parts]

@[simp] theorem Card.countPaced_rest (c : Card) (b : Bay) (paced : Bool) :
    (c.countPaced b paced).rest = c.rest := by
  unfold Card.countPaced
  (try dsimp only)
  (repeat' split) <;> simp [Rest.parts]

@[simp] theorem Card.programDark_rest (c : Card) (n : Nat) (r : ProgReport) :
    (c.programDark n r).rest = c.rest := by
  unfold Card.programDark
  (try dsimp only)
  (repeat' split) <;> simp [Rest.parts]

@[simp] theorem Card.dieReport_rest (c : Card) (n : Nat) (x : DieReport) (f : Card → Card) (hf : (f c).rest = c.rest) :
    (c.dieReport n x f).rest = c.rest := by
  unfold Card.dieReport
  (repeat' split) <;> simp [hf]

@[simp] theorem Card.suspendTaken_rest (c : Card) (h d : Nat) :
    (c.suspendTaken h d).rest = c.rest := by
  unfold Card.suspendTaken
  (try dsimp only)
  (repeat' split) <;> simp [Rest.parts]

@[simp] theorem Card.suspendComplete_rest (c : Card) (h d : Nat) :
    (c.suspendComplete h d).rest = c.rest := by
  unfold Card.suspendComplete
  (try dsimp only)
  (repeat' split) <;> simp [Rest.parts]

@[simp] theorem Card.readWaitExpiry_rest (c : Card) (h d : Nat) :
    (c.readWaitExpiry h d).rest = c.rest := by
  unfold Card.readWaitExpiry
  (try dsimp only)
  (repeat' split) <;> simp [Rest.parts]

@[simp] theorem Card.tearPage_rest (c : Card) (k : Nat) :
    (c.tearPage k).rest = c.rest := by
  unfold Card.tearPage
  (try dsimp only)
  (repeat' split) <;> simp [Rest.parts]

@[simp] theorem Card.completeCut_rest (c : Card) (k : Nat) (code : DescCode) :
    (c.completeCut k code).rest = c.rest := by
  unfold Card.completeCut
  (try dsimp only)
  (repeat' split) <;> simp [Rest.parts]

@[simp] theorem Card.endAnneal_rest (c : Card) (n p0 p1 retired : Nat) (done : Bool) :
    (c.endAnneal n p0 p1 retired done).rest = c.rest := by
  unfold Card.endAnneal
  (try dsimp only)
  (repeat' split) <;> simp [Rest.parts]

@[simp] theorem Card.cutAnneal_rest (c : Card) (n : Nat) :
    (c.cutAnneal n).rest = c.rest := by
  unfold Card.cutAnneal
  (try dsimp only)
  (repeat' split) <;> simp [Rest.parts]

@[simp] theorem Card.completeHung_rest (c : Card) (n : Nat) (w : HungWork) :
    (c.completeHung n w).rest = c.rest := by
  unfold Card.completeHung
  (try dsimp only)
  (repeat' split) <;> simp [Rest.parts]

@[simp] theorem Card.stopHung_rest (c : Card) (n : Nat) (w : HungWork) :
    (c.stopHung n w).rest = c.rest := by
  unfold Card.stopHung
  (try dsimp only)
  (repeat' split) <;> simp [Rest.parts]

@[simp] theorem Card.refill_rest (c : Card) (h : Nat) (ds : List Desc) :
    (c.refill h ds).rest = c.rest := by
  unfold Card.refill
  (try dsimp only)
  (repeat' split) <;> simp [Rest.parts]

@[simp] theorem Card.eraseMore_rest (c : Card) (n : Nat) : (c.eraseMore n).rest = c.rest := by
  induction n generalizing c with
  | zero => rfl
  | succ k ih =>
    simp only [Card.eraseMore]
    split <;> simp [ih]

@[simp] theorem Card.windowErase_rest (c : Card) : (c.windowErase).rest = c.rest := by
  unfold Card.windowErase
  split
  · rw [Card.eraseMore_rest]
    exact Rest.foldl _ (fun c x => by (repeat' split) <;> simp) _ _
  · rfl

@[simp] theorem Card.reclaimVictim_rest (c : Card) :
    c.reclaimVictim.1.rest = c.rest := by
  unfold Card.reclaimVictim
  (try dsimp only)
  (repeat' split) <;> simp [Rest.parts]

@[simp] theorem Card.countProbe_rest (c : Card) (n : Nat) :
    (c.countProbe n).rest = c.rest := by
  unfold Card.countProbe
  (try dsimp only)
  (repeat' split) <;> simp [Rest.parts]

@[simp] theorem Card.heatComplete_rest (c : Card) (n : Nat) :
    (c.heatComplete n).rest = c.rest := by
  unfold Card.heatComplete
  (try dsimp only)
  (repeat' split) <;> simp [Rest.parts]

@[simp] theorem Card.reclassAny_rest (c : Card) (w : Nat) :
    (c.reclassAny w).rest = c.rest := by
  unfold Card.reclassAny
  (try dsimp only)
  (repeat' split) <;> simp [Rest.parts]

@[simp] theorem Card.heaterTimeout_rest (c : Card) (n : Nat) :
    (c.heaterTimeout n).rest = c.rest := by
  unfold Card.heaterTimeout
  (try dsimp only)
  (repeat' split) <;> simp [Rest.parts]

@[simp] theorem Card.cutAnneals_rest (c : Card) :
    c.cutAnneals.rest = c.rest := by
  unfold Card.cutAnneals
  (try dsimp only)
  (repeat' split) <;> simp [Rest.parts]

@[simp] theorem Card.noteCool_rest (c : Card) (x : DieTemp) :
    (c.noteCool x).rest = c.rest := by
  unfold Card.noteCool
  (try dsimp only)
  (repeat' split) <;> simp [Rest.parts]

@[simp] theorem Card.thermal_rest (c : Card) (dies : List DieTemp) (controller : Int) :
    (c.thermal dies controller).rest = c.rest := by
  unfold Card.thermal
  (try dsimp only)
  (repeat' split) <;> simp [Rest.parts]

@[simp] theorem Card.keepLate_rest (c : Card) (n : Nat) :
    (c.keepLate n).rest = c.rest := by
  unfold Card.keepLate
  (try dsimp only)
  (repeat' split) <;> simp [Rest.parts]

@[simp] theorem Card.dropWrong_rest (c : Card) :
    (c.dropWrong).rest = c.rest := by
  unfold Card.dropWrong
  exact Rest.foldl _ (fun c x => by (try dsimp only); (repeat' split) <;> simp) _ _

@[simp] theorem Card.useReplacements_rest (c : Card) (r : ScanReport) :
    (c.useReplacements r).rest = c.rest := by
  unfold Card.useReplacements
  (try dsimp only)
  (repeat' split) <;> simp [Rest.parts]

@[simp] theorem Card.rebuildLosses_rest (c : Card) (r : ScanReport) (bs : List Bay) :
    (c.rebuildLosses r bs).rest = c.rest := by
  unfold Card.rebuildLosses
  (try dsimp only)
  (repeat' split) <;> simp [Rest.parts]

@[simp] theorem Card.scanMarks_rest (c : Card) (r : ScanReport) :
    (c.scanMarks r).rest = c.rest := by
  unfold Card.scanMarks
  (try dsimp only)
  (repeat' split) <;> simp [Rest.parts]

@[simp] theorem Card.scanCounts_rest (c : Card) :
    (c.scanCounts).rest = c.rest := by
  unfold Card.scanCounts
  (try dsimp only)
  (repeat' split) <;> simp [Rest.parts]

@[simp] theorem Card.startMounted_rest (c : Card) :
    (c.startMounted).rest = c.rest := by
  unfold Card.startMounted
  (try dsimp only)
  (repeat' split) <;> simp [Rest.parts]

@[simp] theorem Card.resetErase_rest (c : Card) (n : Nat) :
    (c.resetErase n).rest = c.rest := by
  unfold Card.resetErase
  (try dsimp only)
  (repeat' split) <;> simp [Rest.parts]

@[simp] theorem Card.resetErases_rest (c : Card) :
    c.resetErases.rest = c.rest := by
  unfold Card.resetErases
  (try dsimp only)
  (repeat' split) <;> simp [Rest.parts]

@[simp] theorem Card.afterPage_rest (c : Card) (n : Nat) :
    (c.afterPage n).rest = c.rest := by
  unfold Card.afterPage
  (try dsimp only)
  (repeat' split) <;> simp [Rest.parts]

@[simp] theorem Card.discardSync_rest (c : Card) (reason type seq : Byte) :
    (c.discardSync reason type seq).rest = c.rest := by
  unfold Card.discardSync
  (try dsimp only)
  (repeat' split) <;> simp [Rest.parts]

@[simp] theorem Card.setSlot_rest (c : Card) (n : Nat) :
    (c.setSlot n).rest = c.rest := by
  unfold Card.setSlot
  (try dsimp only)
  (repeat' split) <;> simp [Rest.parts]

/-- What such work leaves alone even where it ends commands or moves a landing on. -/
structure Far where
  phase : Phase
  power : Power
  straps : Straps
  treads : Treads
  link : Link
  views : Views
  twin : Twin
  alcove : Alcove
  out : List Out

/-- That part of a card. -/
def Card.far (c : Card) : Far :=
  { phase := c.phase, power := c.power, straps := c.straps, treads := c.treads, link := c.link, views := c.views,
    twin := c.twin, alcove := c.alcove, out := c.out }

/-- It is part of the former. -/
def Rest.far (r : Rest) : Far :=
  { phase := r.phase, power := r.power, straps := r.straps, treads := r.treads, link := r.link, views := r.views,
    twin := r.twin, alcove := r.alcove, out := r.out }

/-- Each such field read from the card is the field of that part. -/
theorem Far.parts (c : Card) :
    c.phase = c.far.phase ∧
    c.power = c.far.power ∧
    c.straps = c.far.straps ∧
    c.treads = c.far.treads ∧
    c.link = c.far.link ∧
    c.views = c.far.views ∧
    c.twin = c.far.twin ∧
    c.alcove = c.far.alcove ∧
    c.out = c.far.out :=
  ⟨rfl, rfl, rfl, rfl, rfl, rfl, rfl, rfl, rfl⟩

@[simp] theorem Far.of_mk (ph : Phase) (pw : Power) (st : Straps) (tr : Treads) (lk : Link) (po : Ports) (fl : Flights)
    (vi : Views) (me : Media) (ha : Halls) (ma : Maint) (lo : Losses) (tw : Twin) (al : Alcove) (ba : Balcony)
    (ou : List Out) (fr : Nat) :
    Card.far ⟨ph, pw, st, tr, lk, po, fl, vi, me, ha, ma, lo, tw, al, ba, ou, fr⟩ =
      ⟨ph, pw, st, tr, lk, vi, tw, al, ou⟩ := rfl

@[simp] theorem Far.foldl {α : Type} (f : Card → α → Card) (h : ∀ c x, (f c x).far = c.far) (l : List α) (c : Card) :
    (l.foldl f c).far = c.far := by
  induction l generalizing c with
  | nil => rfl
  | cons a r ih => simp [ih, h]

theorem Far.foldl_from {α : Type} (f : Card → α → Card) (h : ∀ c x, (f c x).far = c.far) (l : List α) (c d : Card)
    (e : d.far = c.far) : (l.foldl f d).far = c.far := (Far.foldl f h l d).trans e

/-- What leaves the former alone leaves this alone. -/
theorem Far.of_rest {c d : Card} (h : d.rest = c.rest) : d.far = c.far := congrArg Rest.far h

@[simp] theorem Card.setWing_far (c : Card) (w : Nat) (v : Wing) :
    (c.setWing w v).far = c.far :=
  Far.of_rest (Card.setWing_rest c w v)

@[simp] theorem Card.setDie_far (c : Card) (n : Nat) (v : Die) :
    (c.setDie n v).far = c.far :=
  Far.of_rest (Card.setDie_rest c n v)

@[simp] theorem Card.bump_far (c : Card) (n k : Nat) :
    (c.bump n k).far = c.far :=
  Far.of_rest (Card.bump_rest c n k)

@[simp] theorem Card.ev_far (c : Card) (n : Nat) (bs : List Byte) :
    (c.ev n bs).far = c.far :=
  Far.of_rest (Card.ev_rest c n bs)

@[simp] theorem Card.enterEvent_far (c : Card) (e : BalRec) :
    (c.enterEvent e).far = c.far := by
  unfold Card.enterEvent
  (try dsimp only)
  (repeat' split) <;> simp [Far.parts]

@[simp] theorem Card.enterEvents_far (c : Card) (n : Nat) :
    (c.enterEvents n).far = c.far :=
  Far.of_rest (Card.enterEvents_rest c n)

@[simp] theorem Card.queueLoad_far (c : Card) :
    c.queueLoad.far = c.far :=
  Far.of_rest (Card.queueLoad_rest c)

@[simp] theorem Card.traceFinal_far (c : Card) (p : Port) (t : Tag) (st : Status) (info : BitVec 24) (z : Bool) :
    (c.traceFinal p t st info z).far = c.far :=
  Far.of_rest (Card.traceFinal_rest c p t st info z)

@[simp] theorem Card.putTag_far (c : Card) (t : Tag) (e : TagEntry) :
    (c.putTag t e).far = c.far := by
  unfold Card.putTag
  (try dsimp only)
  (repeat' split) <;> simp [Far.parts]

@[simp] theorem Card.setCmd_far (c : Card) (t : Tag) (k : Cmd) :
    (c.setCmd t k).far = c.far := by
  unfold Card.setCmd
  (try dsimp only)
  (repeat' split) <;> simp [Far.parts]

@[simp] theorem Card.traceCode_far (c : Card) (n kind : Nat) (code : DescCode) (blk page : Nat) :
    (c.traceCode n kind code blk page).far = c.far :=
  Far.of_rest (Card.traceCode_rest c n kind code blk page)

@[simp] theorem Card.countDesc_far (c : Card) (d : Desc) :
    (c.countDesc d).far = c.far :=
  Far.of_rest (Card.countDesc_rest c d)

@[simp] theorem Card.complete_far (c : Card) (d : Desc) (code : DescCode) :
    (c.complete d code).far = c.far :=
  Far.of_rest (Card.complete_rest c d code)

@[simp] theorem Card.keepDescs_far (c : Card) (p : Desc → Bool) : (c.keepDescs p).far = c.far :=
  Far.foldl_from _ (fun c d => by simp) _ _ _ (by simp [Far.parts])

@[simp] theorem Card.keepJobs_far (c : Card) (p : Nat × ReadJob → Bool) :
    (c.keepJobs p).far = c.far := by
  unfold Card.keepJobs
  (try dsimp only)
  (repeat' split) <;> simp [Far.parts]

@[simp] theorem Card.endMoves_far (c : Card) (p : MoveWhy → Bool) :
    (c.endMoves p).far = c.far := by
  unfold Card.endMoves
  (try dsimp only)
  (repeat' split) <;> simp [Far.parts]

@[simp] theorem Card.untake_far (c : Card) (k : Nat) :
    (c.untake k).far = c.far :=
  Far.of_rest (Card.untake_rest c k)

@[simp] theorem Card.sweep_far (c : Card) : c.sweep.far = c.far :=
  Far.of_rest (Card.sweep_rest c)

@[simp] theorem Card.newPass_far (c : Card) :
    c.newPass.far = c.far :=
  Far.of_rest (Card.newPass_rest c)

@[simp] theorem Card.passOver_far (c : Card) :
    (c.passOver).far = c.far :=
  Far.of_rest (Card.passOver_rest c)

@[simp] theorem Card.awaitErase_far (c : Card) (w : Nat) :
    (c.awaitErase w).far = c.far :=
  Far.of_rest (Card.awaitErase_rest c w)

@[simp] theorem Card.inlineErased_far (c : Card) (w : Nat) (o : EraseOwner) :
    (c.inlineErased w o).far = c.far := by
  unfold Card.inlineErased
  (try dsimp only)
  (repeat' split) <;> simp [Far.parts]

@[simp] theorem Card.cutErase_far (c : Card) (w : Nat) (hs : List Nat) :
    (c.cutErase w hs).far = c.far := by
  unfold Card.cutErase
  (try dsimp only)
  (repeat' split) <;> simp [Far.parts]

@[simp] theorem Card.endErases_far (c : Card) (o : EraseOwner) :
    (c.endErases o).far = c.far := by
  unfold Card.endErases
  (try dsimp only)
  (repeat' split) <;> simp [Far.parts]

@[simp] theorem Card.dropWork_far (c : Card) (t : Tag) :
    (c.dropWork t).far = c.far := by
  unfold Card.dropWork
  (try dsimp only)
  (repeat' split) <;> simp [Far.parts]

@[simp] theorem Card.nextFree_far (c : Card) :
    c.nextFree.far = c.far :=
  Far.of_rest (Card.nextFree_rest c)

@[simp] theorem Card.countTaken_far (c : Card) (p : Port) :
    (c.countTaken p).far = c.far :=
  Far.of_rest (Card.countTaken_rest c p)

@[simp] theorem Card.taken_far (c : Card) (op : Byte) (f : Frame) (k : Cmd) :
    (c.taken op f k).far = c.far := by
  unfold Card.taken
  (try dsimp only)
  (repeat' split) <;> simp [Far.parts]

@[simp] theorem Card.setStage_far (c : Card) (n : Nat) (s : EraseStage) :
    (c.setStage n s).far = c.far :=
  Far.of_rest (Card.setStage_rest c n s)

@[simp] theorem Card.issue_far (c : Card) (d : Desc) :
    (c.issue d).far = c.far :=
  Far.of_rest (Card.issue_rest c d)

@[simp] theorem Card.setPointer_far (c : Card) (w h n : Nat) :
    (c.setPointer w h n).far = c.far :=
  Far.of_rest (Card.setPointer_rest c w h n)

@[simp] theorem Card.setQueue_far (c : Card) (h : Nat) (q : List Desc) :
    (c.setQueue h q).far = c.far := by
  unfold Card.setQueue
  (try dsimp only)
  (repeat' split) <;> simp [Far.parts]

@[simp] theorem Card.setBack_far (c : Card) (h : Nat) (q : List Desc) :
    (c.setBack h q).far = c.far := by
  unfold Card.setBack
  (try dsimp only)
  (repeat' split) <;> simp [Far.parts]

@[simp] theorem Card.startDesc_far (c : Card) (n : Nat) (d : Desc) :
    (c.startDesc n d).far = c.far :=
  Far.of_rest (Card.startDesc_rest c n d)

@[simp] theorem Card.pumpOne_far (c : Card) (n : Nat) :
    (c.pumpOne n).far = c.far :=
  Far.of_rest (Card.pumpOne_rest c n)

@[simp] theorem Card.pump_far (c : Card) (n : Nat) :
    (c.pump n).far = c.far :=
  Far.of_rest (Card.pump_rest c n)

@[simp] theorem Card.pumpAll_far (c : Card) :
    c.pumpAll.far = c.far :=
  Far.of_rest (Card.pumpAll_rest c)

@[simp] theorem Card.noteIssued_far (c : Card) (a : Action) (k cycles : Nat) :
    (c.noteIssued a k cycles).far = c.far := by
  unfold Card.noteIssued
  (try dsimp only)
  (repeat' split) <;> simp [Far.parts]

@[simp] theorem Card.noteActs_far (c : Card) :
    (c.noteActs).far = c.far := by
  unfold Card.noteActs
  exact Far.foldl _ (fun c x => by (try dsimp only); (repeat' split) <;> simp) _ _

@[simp] theorem Card.enqueue_far (c : Card) (d : Desc) :
    (c.enqueue d).far = c.far :=
  Far.of_rest (Card.enqueue_rest c d)

@[simp] theorem Card.enqueueAll_far (c : Card) (ds : List Desc) :
    (c.enqueueAll ds).far = c.far :=
  Far.of_rest (Card.enqueueAll_rest c ds)

@[simp] theorem Card.issueProgram_far (c : Card) (k : Nat) :
    (c.issueProgram k).far = c.far :=
  Far.of_rest (Card.issueProgram_rest c k)

@[simp] theorem Card.requeue_far (c : Card) (h : Nat) :
    (c.requeue h).far = c.far := by
  unfold Card.requeue
  (try dsimp only)
  (repeat' split) <;> simp [Far.parts]

@[simp] theorem Card.abortQueued_far (c : Card) :
    c.abortQueued.far = c.far :=
  Far.of_rest (Card.abortQueued_rest c)

@[simp] theorem Card.putJob_far (c : Card) (id : Nat) (j : ReadJob) :
    (c.putJob id j).far = c.far :=
  Far.of_rest (Card.putJob_rest c id j)

@[simp] theorem Card.dropJob_far (c : Card) (id : Nat) :
    (c.dropJob id).far = c.far :=
  Far.of_rest (Card.dropJob_rest c id)

@[simp] theorem Card.newId_far (c : Card) :
    c.newId.1.far = c.far :=
  Far.of_rest (Card.newId_rest c)

@[simp] theorem Card.startKid_far (c : Card) (parent : Nat) (mask : BitVec 16) (k : Nat) :
    (c.startKid parent mask k).far = c.far :=
  Far.of_rest (Card.startKid_rest c parent mask k)

@[simp] theorem Card.markRefresh_far (c : Card) (w trigger : Nat) :
    (c.markRefresh w trigger).far = c.far :=
  Far.of_rest (Card.markRefresh_rest c w trigger)

@[simp] theorem Card.markRead_far (c : Card) (j : ReadJob) :
    (c.markRead j).far = c.far :=
  Far.of_rest (Card.markRead_rest c j)

@[simp] theorem Card.traceStep_far (c : Card) (j : ReadJob) (step : Nat) :
    (c.traceStep j step).far = c.far :=
  Far.of_rest (Card.traceStep_rest c j step)

@[simp] theorem Card.startRebuild_far (c : Card) (id : Nat) (j : ReadJob) :
    (c.startRebuild id j).far = c.far :=
  Far.of_rest (Card.startRebuild_rest c id j)

@[simp] theorem Card.startJob_far (c : Card) (k : Nat) (p : Purpose) (strict : Bool) :
    (c.startJob k p strict).far = c.far :=
  Far.of_rest (Card.startJob_rest c k p strict)

@[simp] theorem Card.countRead_far (c : Card) (w : Nat) :
    (c.countRead w).far = c.far :=
  Far.of_rest (Card.countRead_rest c w)

@[simp] theorem Card.noteSteps_far (c : Card) (j : ReadJob) (retry : Nat) :
    (c.noteSteps j retry).far = c.far :=
  Far.of_rest (Card.noteSteps_rest c j retry)

@[simp] theorem Card.endJob_far (c : Card) (id : Nat) (j : ReadJob) (bad : Bool) :
    (c.endJob id j bad).far = c.far :=
  Far.of_rest (Card.endJob_rest c id j bad)

@[simp] theorem Card.dropMoveJob_far (c : Card) (id : Nat) (j : ReadJob) :
    (c.dropMoveJob id j).far = c.far :=
  Far.of_rest (Card.dropMoveJob_rest c id j)

@[simp] theorem Card.stepJob_far (c : Card) (id : Nat) (j : ReadJob) (r : ReadReport) :
    (c.stepJob id j r).far = c.far :=
  Far.of_rest (Card.stepJob_rest c id j r)

@[simp] theorem Card.kidEnded_far (c : Card) (parent : Nat) (kid : ReadJob) :
    (c.kidEnded parent kid).far = c.far :=
  Far.of_rest (Card.kidEnded_rest c parent kid)

@[simp] theorem Card.divertRead_far (c : Card) (d : Desc) :
    (c.divertRead d).far = c.far :=
  Far.of_rest (Card.divertRead_rest c d)

@[simp] theorem Card.divertReads_far (c : Card) (n : Nat) :
    (c.divertReads n).far = c.far :=
  Far.of_rest (Card.divertReads_rest c n)

@[simp] theorem Card.collectKids_far (c : Card) :
    c.collectKids.far = c.far :=
  Far.of_rest (Card.collectKids_rest c)

@[simp] theorem Card.crossMark_far (c : Card) (old new mark code : Nat) :
    (c.crossMark old new mark code).far = c.far :=
  Far.of_rest (Card.crossMark_rest c old new mark code)

@[simp] theorem Card.evalMarks_far (c : Card) :
    c.evalMarks.far = c.far :=
  Far.of_rest (Card.evalMarks_rest c)

@[simp] theorem Card.openWing_far (c : Card) (w : Nat) (move : Bool) :
    (c.openWing w move).far = c.far :=
  Far.of_rest (Card.openWing_rest c w move)

@[simp] theorem Card.ensureOpen_far (c : Card) (user : Bool) :
    (c.ensureOpen user).far = c.far :=
  Far.of_rest (Card.ensureOpen_rest c user)

@[simp] theorem Card.setOpen_far (c : Card) (o : OpenWing) :
    (c.setOpen o).far = c.far :=
  Far.of_rest (Card.setOpen_rest c o)

@[simp] theorem Card.lodge_far (c : Card) (o : OpenWing) (g : Gallery) (b : Bay) :
    (c.lodge o g b).far = c.far :=
  Far.of_rest (Card.lodge_rest c o g b)

@[simp] theorem Card.takeHall_far (c : Card) (o : OpenWing) (g : Gallery) (h : Nat) (b : Bay) :
    (c.takeHall o g h b).far = c.far := by
  unfold Card.takeHall
  (try dsimp only)
  (repeat' split) <;> simp [Far.parts]

@[simp] theorem Card.assignIn_far (c : Card) (w : Nat) (b : Bay) :
    (c.assignIn w b).1.far = c.far :=
  Far.of_rest (Card.assignIn_rest c w b)

@[simp] theorem Card.stampBay_far (c : Card) (b : Bay) :
    (c.stampBay b).1.far = c.far :=
  Far.of_rest (Card.stampBay_rest c b)

@[simp] theorem Card.addOwn_far (c : Card) (w : Nat) (g : Gallery) (h : Nat) (kind : BayKind) (body : Body) :
    (c.addOwn w g h kind body).far = c.far := by
  unfold Card.addOwn
  (try dsimp only)
  (repeat' split) <;> simp [Far.parts]

@[simp] theorem Card.release_far (c : Card) (ks : List Nat) :
    (c.release ks).far = c.far :=
  Far.of_rest (Card.release_rest c ks)

@[simp] theorem Card.closeWing_far (c : Card) (w : Nat) :
    (c.closeWing w).far = c.far :=
  Far.of_rest (Card.closeWing_rest c w)

@[simp] theorem Card.startGallery_far (c : Card) (w : Nat) (g : Gallery) :
    (c.startGallery w g).far = c.far := by
  unfold Card.startGallery
  (try dsimp only)
  (repeat' split) <;> simp [Far.parts]

@[simp] theorem Card.leaveGallery_far (c : Card) (w : Nat) :
    (c.leaveGallery w).far = c.far := by
  unfold Card.leaveGallery
  (try dsimp only)
  (repeat' split) <;> simp [Far.parts]

@[simp] theorem Card.leaveBare_far (c : Card) (w cause : Nat) :
    (c.leaveBare w cause).far = c.far := by
  unfold Card.leaveBare
  (try dsimp only)
  (repeat' split) <;> simp [Far.parts]

@[simp] theorem Card.tryParity_far (c : Card) (w : Nat) :
    (c.tryParity w).far = c.far := by
  unfold Card.tryParity
  (try dsimp only)
  (repeat' split) <;> simp [Far.parts]

@[simp] theorem Card.fillGallery_far (c : Card) (w n : Nat) :
    (c.fillGallery w n).far = c.far :=
  Far.of_rest (Card.fillGallery_rest c w n)

@[simp] theorem Card.fillTo_far (c : Card) (w n : Nat) :
    (c.fillTo w n).far = c.far := by
  unfold Card.fillTo
  split
  · rfl
  · rw [Card.tryParity_far]
    exact Far.foldl _ (fun c x => by simp) _ _

@[simp] theorem Card.fillWing_far (c : Card) (w : Nat) : (c.fillWing w).far = c.far := by
  unfold Card.fillWing
  (repeat' split) <;> simp

@[simp] theorem Card.continueWing_far (c : Card) (w : Nat) :
    (c.continueWing w).far = c.far := by
  unfold Card.continueWing
  (try dsimp only)
  (repeat' split) <;> simp [Far.parts]

@[simp] theorem Card.prepare_far (c : Card) (user : Bool) (n : Nat) : (c.prepare user n).far = c.far := by
  induction n generalizing c with
  | zero => rfl
  | succ k ih =>
    simp only [Card.prepare]
    repeat' split
    all_goals simp [ih]

@[simp] theorem Card.draw_far (c : Card) (user : Bool) (kind : BayKind) (k : Nat) :
    (c.draw user kind k).far = c.far :=
  Far.of_rest (Card.draw_rest c user kind k)

@[simp] theorem Card.place_far (c : Card) (user fresh : Bool) (b : Bay) :
    (c.place user fresh b).1.far = c.far := by
  have key (d : Card) (w : Nat) (b : Bay) (h : d.far = c.far) :
      (match ({ d with media := { d.media with lastWing := some w } } : Card).assignIn w b with
        | (c, some k) => (c.draw user b.kind k, some k)
        | (c, none) => ((c, none) : Card × Option Nat)).1.far = c.far := by
    have e : (({ d with media := { d.media with lastWing := some w } } : Card).assignIn w b).1.far = c.far := by
      rw [Card.assignIn_far]
      exact Eq.trans rfl h
    split <;> next h => rw [h] at e; simpa using e
  unfold Card.place
  dsimp only
  split
  · rfl
  · split
    · simp
    · cases fresh
      · exact key _ _ _ (by simp)
      · exact key _ _ _ (by simp)

@[simp] theorem Card.placeNew_far (c : Card) (user : Bool) (b : Bay) :
    (c.placeNew user b).1.far = c.far := by
  unfold Card.placeNew
  (try dsimp only)
  (repeat' split) <;> simp [Far.parts]

theorem Card.placeAll_far (u : Bool) (bs : List Bay) (c d : Card) (ks : List Nat)
    (h : c.placeAll u bs = some (d, ks)) : d.far = c.far := by
  induction bs generalizing c d ks with
  | nil => simp only [Card.placeAll, Option.some.injEq, Prod.mk.injEq] at h; rw [← h.1]
  | cons b r ih =>
    unfold Card.placeAll at h
    split at h
    · cases h
    · next x k e =>
      split at h
      · next y ks' e' =>
        simp only [Option.some.injEq, Prod.mk.injEq] at h
        rw [← h.1, ih _ _ _ e', ← Card.placeNew_far c u b, e]
      · cases h

@[simp] theorem Card.supersede_far (c : Card) (k : Nat) :
    (c.supersede k).far = c.far :=
  Far.of_rest (Card.supersede_rest c k)

@[simp] theorem Card.awaitHome_far (c : Card) (x : Homeless) :
    (c.awaitHome x).far = c.far := by
  unfold Card.awaitHome
  (try dsimp only)
  (repeat' split) <;> simp [Far.parts]

@[simp] theorem Card.traceRedrive_far (c : Card) (cause k n : Nat) :
    (c.traceRedrive cause k n).far = c.far :=
  Far.of_rest (Card.traceRedrive_rest c cause k n)

@[simp] theorem Card.releaseBare_far (c : Card) (k : Nat) : (c.releaseBare k).far = c.far :=
  Far.of_rest (Card.releaseBare_rest c k)

@[simp] theorem Card.loseHall_far (c : Card) (k : Nat) (seq : Nat) :
    (c.loseHall k seq).far = c.far :=
  Far.of_rest (Card.loseHall_rest c k seq)

@[simp] theorem Card.missHall_far (c : Card) (n : Nat) :
    (c.missHall n).far = c.far :=
  Far.of_rest (Card.missHall_rest c n)

@[simp] theorem Card.decideWear_far (c : Card) :
    c.decideWear.far = c.far :=
  Far.of_rest (Card.decideWear_rest c)

@[simp] theorem Card.reclass_far (c : Card) (w : Nat) :
    (c.reclass w).far = c.far :=
  Far.of_rest (Card.reclass_rest c w)

@[simp] theorem Card.countPulses_far (c : Card) (k pulses : Nat) :
    (c.countPulses k pulses).far = c.far :=
  Far.of_rest (Card.countPulses_rest c k pulses)

@[simp] theorem Card.advanceGallery_far (c : Card) (k : Nat) (kind : BayKind) :
    (c.advanceGallery k kind).far = c.far := by
  unfold Card.advanceGallery
  (try dsimp only)
  (repeat' split) <;> simp [Far.parts]

@[simp] theorem Card.writeCell_far (c : Card) (k : Nat) (x : Cell) :
    (c.writeCell k x).far = c.far :=
  Far.of_rest (Card.writeCell_rest c k x)

@[simp] theorem Card.storeLoss_far (c : Card) (e : Loss) :
    (c.storeLoss e).far = c.far := by
  unfold Card.storeLoss
  (try dsimp only)
  (repeat' split) <;> simp [Far.parts]

@[simp] theorem Card.addLoss_far (c : Card) (k : Nat) (source : LossSource) (blind : Bool) :
    (c.addLoss k source blind).far = c.far :=
  Far.of_rest (Card.addLoss_rest c k source blind)

@[simp] theorem Card.carryLosses_far (c : Card) (f : Flight) (seq : Nat) (rec : List Loss) :
    (c.carryLosses f seq rec).far = c.far :=
  Far.of_rest (Card.carryLosses_rest c f seq rec)

@[simp] theorem Card.reportLosses_far (c : Card) :
    c.reportLosses.far = c.far :=
  Far.of_rest (Card.reportLosses_rest c)

@[simp] theorem Card.notePiece_far (c : Card) (p : Piece) (q : Purpose) (strict : Bool) (k : Nat) :
    (c.notePiece p q strict k).far = c.far :=
  Far.of_rest (Card.notePiece_rest c p q strict k)

@[simp] theorem Card.startReads_far (c : Card) (ps : List Piece) (p : Nat → Purpose) (strict : Bool) :
    (c.startReads ps p strict).far = c.far := by
  unfold Card.startReads
  (try dsimp only)
  (repeat' split) <;>
    (try rw [Far.foldl _ (fun c x => by (try dsimp only); (repeat' split) <;> simp)]) <;> simp [Far.parts]

@[simp] theorem Card.countBytes_far (c : Card) (n : Nat) :
    (c.countBytes n).far = c.far :=
  Far.of_rest (Card.countBytes_rest c n)

@[simp] theorem Card.openSegment_far (c : Card) (t : Tag) (s : StreamWork) :
    (c.openSegment t s).far = c.far := by
  unfold Card.openSegment
  (try dsimp only)
  (repeat' split) <;> simp [Far.parts]

@[simp] theorem Card.emptied_far (c : Card) (w : Nat) :
    (c.emptied w).far = c.far :=
  Far.of_rest (Card.emptied_rest c w)

@[simp] theorem Card.traceVictim_far (c : Card) (w : Nat) (inl : Bool) :
    (c.traceVictim w inl).far = c.far :=
  Far.of_rest (Card.traceVictim_rest c w inl)

@[simp] theorem Card.countInline_far (c : Card) (t : Tag) (again : Nat) :
    (c.countInline t again).far = c.far := by
  unfold Card.countInline
  (try dsimp only)
  (repeat' split) <;> simp [Far.parts]

@[simp] theorem Card.dropMove_far (c : Card) (id : Nat) :
    (c.dropMove id).far = c.far :=
  Far.of_rest (Card.dropMove_rest c id)

@[simp] theorem Card.moveBack_far (c : Card) (id : Nat) (m : Move) :
    (c.moveBack id m).far = c.far := by
  unfold Card.moveBack
  (try dsimp only)
  (repeat' split) <;> simp [Far.parts]

@[simp] theorem Card.copyBay_far (c : Card) (id : Nat) (m : Move) (b : Bay) :
    (c.copyBay id m b).far = c.far := by
  unfold Card.copyBay
  (try dsimp only)
  (repeat' split) <;> simp [Far.parts]

@[simp] theorem Card.moveLost_far (c : Card) (id : Nat) (blind : Bool) :
    (c.moveLost id blind).far = c.far := by
  unfold Card.moveLost
  (try dsimp only)
  (repeat' split) <;> simp [Far.parts]

@[simp] theorem Card.startMove_far (c : Card) (k : Nat) (why : MoveWhy) :
    (c.startMove k why).far = c.far := by
  unfold Card.startMove
  (try dsimp only)
  (repeat' split) <;> simp [Far.parts]

@[simp] theorem Card.moveGot_far (c : Card) (id : Nat) :
    (c.moveGot id).far = c.far := by
  unfold Card.moveGot
  (try dsimp only)
  (repeat' split) <;> simp [Far.parts]

@[simp] theorem Card.startErase_far (c : Card) (w : Nat) (o : EraseOwner) :
    (c.startErase w o).far = c.far :=
  Far.of_rest (Card.startErase_rest c w o)

@[simp] theorem Card.abortSuspended_far (c : Card) (w : Nat) :
    (c.abortSuspended w).far = c.far := by
  unfold Card.abortSuspended
  (try dsimp only)
  (repeat' split) <;> simp [Far.parts]

@[simp] theorem Card.abortErases_far (c : Card) :
    c.abortErases.far = c.far := by
  unfold Card.abortErases
  (try dsimp only)
  (repeat' split) <;> simp [Far.parts]

@[simp] theorem Card.clearPages_far (c : Card) (p : Nat → Bool) :
    (c.clearPages p).far = c.far := by
  unfold Card.clearPages
  (try dsimp only)
  (repeat' split) <;> simp [Far.parts]

@[simp] theorem Card.eraseHall_far (c : Card) (w h : Nat) :
    (c.eraseHall w h).far = c.far :=
  Far.of_rest (Card.eraseHall_rest c w h)

@[simp] theorem Card.endErase_far (c : Card) (w : Nat) (failed : Bool) :
    (c.endErase w failed).far = c.far :=
  Far.of_rest (Card.endErase_rest c w failed)

@[simp] theorem Card.newVictim_far (c : Card) :
    c.newVictim.1.far = c.far :=
  Far.of_rest (Card.newVictim_rest c)

@[simp] theorem Card.inlineVictim_far (c : Card) :
    c.inlineVictim.1.far = c.far :=
  Far.of_rest (Card.inlineVictim_rest c)

@[simp] theorem Card.setInline_far (c : Card) (t : Tag) (f : WriteWork → WriteWork) :
    (c.setInline t f).far = c.far := by
  unfold Card.setInline
  (try dsimp only)
  (repeat' split) <;> simp [Far.parts]

@[simp] theorem Card.inlineErase_far (c : Card) (t : Tag) (w : Nat) :
    (c.inlineErase t w).far = c.far := by
  unfold Card.inlineErase
  (try dsimp only)
  (repeat' split) <;> simp [Far.parts]

@[simp] theorem Card.inlineTry_far (c : Card) (t : Tag) (w : Nat) :
    (c.inlineTry t w).far = c.far := by
  unfold Card.inlineTry
  (try dsimp only)
  (repeat' split) <;> simp [Far.parts]

@[simp] theorem Card.inlineSpent_far (c : Card) (t : Tag) (w : Nat) :
    (c.inlineSpent t w).far = c.far := by
  unfold Card.inlineSpent
  (try dsimp only)
  (repeat' split) <;> simp [Far.parts]

@[simp] theorem Card.inlineTake_far (c : Card) (t : Tag) (due w : Nat) :
    (c.inlineTake t due w).far = c.far := by
  unfold Card.inlineTake
  (try dsimp only)
  (repeat' split) <;> simp [Far.parts]

@[simp] theorem Card.inlineMore_far (c : Card) (t : Tag) (n : Nat) : (c.inlineMore t n).far = c.far := by
  induction n generalizing c with
  | zero => simp [Card.inlineMore]
  | succ n ih =>
    unfold Card.inlineMore
    (repeat' split) <;> (try simp only [Prod.ext_iff] at *) <;> (try casesm* _ ∧ _) <;> (try subst_vars) <;>
      simp_all

@[simp] theorem Card.inlineStep_far (c : Card) (t : Tag) :
    (c.inlineStep t).far = c.far := by
  unfold Card.inlineStep
  (try dsimp only)
  (repeat' split) <;> simp [Far.parts]

@[simp] theorem Card.inlineReclaim_far (c : Card) (t : Tag) (b : Nat) :
    (c.inlineReclaim t b).far = c.far := by
  unfold Card.inlineReclaim
  (try dsimp only)
  (repeat' split) <;> (try simp only [Prod.ext_iff] at *) <;> (try casesm* _ ∧ _) <;> (try subst_vars) <;>
    simp_all

@[simp] theorem Card.leaveTarget_far (c : Card) :
    c.leaveTarget.far = c.far := by
  unfold Card.leaveTarget
  (try dsimp only)
  (repeat' split) <;> simp [Far.parts]

@[simp] theorem Card.moveOver_far (c : Card) (w : Nat) :
    (c.moveOver w).far = c.far := by
  unfold Card.moveOver
  (try dsimp only)
  (repeat' split) <;> simp [Far.parts]

@[simp] theorem Card.holdWindow_far (c : Card) (w : Window) :
    (c.holdWindow w).far = c.far :=
  Far.of_rest (Card.holdWindow_rest c w)

@[simp] theorem Card.startWindow_far (c : Card) (w : Window) :
    (c.startWindow w).far = c.far :=
  Far.of_rest (Card.startWindow_rest c w)

@[simp] theorem Card.cutVisit_far (c : Card) :
    c.cutVisit.far = c.far :=
  Far.of_rest (Card.cutVisit_rest c)

@[simp] theorem Card.cutWindow_far (c : Card) :
    c.cutWindow.far = c.far := by
  unfold Card.cutWindow
  (try dsimp only)
  (repeat' split) <;> simp [Far.parts]

@[simp] theorem Card.endOne_far (c : Card) (w : Window) (cause : Nat) :
    (c.endOne w cause).far = c.far := by
  unfold Card.endOne
  (try dsimp only)
  (repeat' split) <;> simp [Far.parts]

@[simp] theorem Card.endWindows_far (c : Card) (cause : Nat) :
    (c.endWindows cause).far = c.far := by
  unfold Card.endWindows
  (try dsimp only)
  (repeat' split) <;> simp [Far.parts]

@[simp] theorem Card.dropWindows_far (c : Card) :
    (c.dropWindows).far = c.far := by
  unfold Card.dropWindows
  (try dsimp only)
  (repeat' split) <;> simp [Far.parts]

@[simp] theorem Card.windowStart_far (c : Card) :
    (c.windowStart).far = c.far :=
  Far.of_rest (Card.windowStart_rest c)

@[simp] theorem Card.windowEnd_far (c : Card) :
    (c.windowEnd).far = c.far := by
  unfold Card.windowEnd
  (try dsimp only)
  (repeat' split) <;> simp [Far.parts]

@[simp] theorem Card.dropSync_far (c : Card) (reason type seq : Byte) :
    (c.dropSync reason type seq).far = c.far :=
  Far.of_rest (Card.dropSync_rest c reason type seq)

@[simp] theorem Card.closeFlight_far (c : Card) :
    c.closeFlight.far = c.far := by
  unfold Card.closeFlight
  (try dsimp only)
  (repeat' split) <;> simp [Far.parts]

@[simp] theorem Card.completeRange_far (c : Card) (lo hi : Nat) :
    (c.completeRange lo hi).far = c.far := by
  unfold Card.completeRange
  (try dsimp only)
  (repeat' split) <;> simp [Far.parts]

@[simp] theorem Card.setAct_far (c : Card) (a : Action) :
    (c.setAct a).far = c.far := by
  unfold Card.setAct
  (try dsimp only)
  (repeat' split) <;> simp [Far.parts]

@[simp] theorem Card.stepAct_far (c : Card) (a : Action) : (c.stepAct a).far = c.far := by
  unfold Card.stepAct
  repeat' split
  all_goals first | (simp; done) | (have h := Card.placeAll_far _ _ _ _ _ (by assumption); simp [h])

@[simp] theorem Card.placeMark_far (c : Card) (x : HeldMark × Nat) : (c.placeMark x).far = c.far := by
  unfold Card.placeMark
  split
  · next h => rw [← Card.placeNew_far c, h]
  · rfl

@[simp] theorem Card.placeDue_far (c : Card) :
    c.placeDue.far = c.far := by
  unfold Card.placeDue
  (try dsimp only)
  (repeat' split) <;> simp [Far.parts]

@[simp] theorem Card.stepActs_far (c : Card) :
    c.stepActs.far = c.far := by
  unfold Card.stepActs
  (try dsimp only)
  (repeat' split) <;> simp [Far.parts]

@[simp] theorem Card.countWritten_far (c : Card) (w : WriteWork) :
    (c.countWritten w).far = c.far :=
  Far.of_rest (Card.countWritten_rest c w)

@[simp] theorem Card.lodgeAct_far (c : Card) (a : Action) (k since : Nat) :
    (c.lodgeAct a k since).far = c.far := by
  unfold Card.lodgeAct
  (try dsimp only)
  (repeat' split) <;> simp [Far.parts]

@[simp] theorem Card.issueLanding_far (c : Card) (since : Nat) :
    (c.issueLanding since).far = c.far := by
  unfold Card.issueLanding
  (try dsimp only)
  (repeat' split) <;> (try simp only [Prod.ext_iff] at *) <;> (try casesm* _ ∧ _) <;> (try subst_vars) <;>
    simp_all

@[simp] theorem Card.disown_far (c : Card) (w : WriteWork) :
    (c.disown w).far = c.far := by
  unfold Card.disown
  (try dsimp only)
  (repeat' split) <;> simp [Far.parts]

@[simp] theorem Card.unhold_far (c : Card) :
    c.unhold.far = c.far := by
  unfold Card.unhold
  (try dsimp only)
  (repeat' split) <;> simp [Far.parts]

@[simp] theorem Card.markExecute_far (c : Card) :
    (c.markExecute).far = c.far := by
  unfold Card.markExecute
  (try dsimp only)
  (repeat' split) <;> simp [Far.parts]

@[simp] theorem Card.setWrite_far (c : Card) (t : Tag) (w : WriteWork) :
    (c.setWrite t w).far = c.far := by
  unfold Card.setWrite
  (try dsimp only)
  (repeat' split) <;> simp [Far.parts]

@[simp] theorem Card.issueMerges_far (c : Card) (t : Tag) (w : WriteWork) :
    (c.issueMerges t w).far = c.far := by
  unfold Card.issueMerges
  (try dsimp only)
  (repeat' split) <;> simp [Far.parts]

@[simp] theorem Card.lateInline_far (c : Card) (t : Tag) (w : WriteWork) (n : Nat) :
    (c.lateInline t w n).far = c.far := by
  unfold Card.lateInline
  (try dsimp only)
  (repeat' split) <;> simp [Far.parts]

@[simp] theorem Card.traceAlcove_far (c : Card) (o : AlcoveOp) :
    (c.traceAlcove o).far = c.far :=
  Far.of_rest (Card.traceAlcove_rest c o)

@[simp] theorem Card.unfence_far (c : Card) :
    c.unfence.far = c.far :=
  Far.of_rest (Card.unfence_rest c)

@[simp] theorem Card.wipe_far (c : Card) :
    (c.wipe).far = c.far := by
  unfold Card.wipe
  (try dsimp only)
  (repeat' split) <;> simp [Far.parts]

@[simp] theorem Card.traceRefusal_far (c : Card) (n b : Nat) (ok : Bool) :
    (c.traceRefusal n b ok).far = c.far :=
  Far.of_rest (Card.traceRefusal_rest c n b ok)

@[simp] theorem Card.sanitizeBlock_far (c : Card) (h d b : Nat) :
    (c.sanitizeBlock h d b).far = c.far := by
  unfold Card.sanitizeBlock
  (try dsimp only)
  (repeat' split) <;> simp [Far.parts]

@[simp] theorem Card.eraseAllBut_far (c : Card) (refused : List BlockRef) :
    (c.eraseAllBut refused).far = c.far :=
  Far.of_rest (Card.eraseAllBut_rest c refused)

@[simp] theorem Card.lossIf_far (c : Card) (j : ReadJob) (s : LossSource) :
    (c.lossIf j s).far = c.far :=
  Far.of_rest (Card.lossIf_rest c j s)

@[simp] theorem Card.renewPass_far (c : Card) :
    c.renewPass.far = c.far :=
  Far.of_rest (Card.renewPass_rest c)

@[simp] theorem Card.visited_far (c : Card) (w : Nat) :
    (c.visited w).far = c.far :=
  Far.of_rest (Card.visited_rest c w)

@[simp] theorem Card.patrolRewrite_far (c : Card) (k : Nat) :
    (c.patrolRewrite k).far = c.far := by
  unfold Card.patrolRewrite
  (try dsimp only)
  (repeat' split) <;> simp [Far.parts]

@[simp] theorem Card.patrolResult_far (c : Card) (j : ReadJob) (bad : Bool) :
    (c.patrolResult j bad).far = c.far := by
  unfold Card.patrolResult
  (try dsimp only)
  (repeat' split) <;> simp [Far.parts]

@[simp] theorem Card.keepRead_far (c : Card) (k : Nat) (bad : Bool) :
    (c.keepRead k bad).far = c.far :=
  Far.of_rest (Card.keepRead_rest c k bad)

@[simp] theorem Card.freeDie_far (c : Card) (n : Nat) :
    (c.freeDie n).far = c.far :=
  Far.of_rest (Card.freeDie_rest c n)

@[simp] theorem Card.markDone_far (c : Card) (k : Nat) :
    (c.markDone k).far = c.far := by
  unfold Card.markDone
  (try dsimp only)
  (repeat' split) <;>
    (try rw [Far.foldl _ (fun c x => by (try dsimp only); (repeat' split) <;> simp)]) <;> simp [Far.parts]

@[simp] theorem Card.traceMark_far (c : Card) (b : Bay) :
    (c.traceMark b).far = c.far :=
  Far.of_rest (Card.traceMark_rest c b)

@[simp] theorem Card.pastPage_far (c : Card) (k : Nat) :
    (c.pastPage k).far = c.far :=
  Far.of_rest (Card.pastPage_rest c k)

@[simp] theorem Card.countPaced_far (c : Card) (b : Bay) (paced : Bool) :
    (c.countPaced b paced).far = c.far :=
  Far.of_rest (Card.countPaced_rest c b paced)

@[simp] theorem Card.programDark_far (c : Card) (n : Nat) (r : ProgReport) :
    (c.programDark n r).far = c.far :=
  Far.of_rest (Card.programDark_rest c n r)

@[simp] theorem Card.dieReport_far (c : Card) (n : Nat) (x : DieReport) (f : Card → Card) (hf : (f c).far = c.far) :
    (c.dieReport n x f).far = c.far := by
  unfold Card.dieReport
  (repeat' split) <;> simp [hf]

@[simp] theorem Card.suspendTaken_far (c : Card) (h d : Nat) :
    (c.suspendTaken h d).far = c.far := by
  unfold Card.suspendTaken
  (try dsimp only)
  (repeat' split) <;> simp [Far.parts]

@[simp] theorem Card.suspendComplete_far (c : Card) (h d : Nat) :
    (c.suspendComplete h d).far = c.far := by
  unfold Card.suspendComplete
  (try dsimp only)
  (repeat' split) <;> simp [Far.parts]

@[simp] theorem Card.readWaitExpiry_far (c : Card) (h d : Nat) :
    (c.readWaitExpiry h d).far = c.far := by
  unfold Card.readWaitExpiry
  (try dsimp only)
  (repeat' split) <;> simp [Far.parts]

@[simp] theorem Card.tearPage_far (c : Card) (k : Nat) :
    (c.tearPage k).far = c.far :=
  Far.of_rest (Card.tearPage_rest c k)

@[simp] theorem Card.completeCut_far (c : Card) (k : Nat) (code : DescCode) :
    (c.completeCut k code).far = c.far :=
  Far.of_rest (Card.completeCut_rest c k code)

@[simp] theorem Card.resetDie_far (c : Card) (x : HallReset) (h d : Nat) :
    (c.resetDie x h d).1.far = c.far := by
  unfold Card.resetDie
  (try dsimp only)
  (repeat' split) <;> simp [Far.parts]

@[simp] theorem Card.endAnneal_far (c : Card) (n p0 p1 retired : Nat) (done : Bool) :
    (c.endAnneal n p0 p1 retired done).far = c.far :=
  Far.of_rest (Card.endAnneal_rest c n p0 p1 retired done)

@[simp] theorem Card.cutAnneal_far (c : Card) (n : Nat) :
    (c.cutAnneal n).far = c.far :=
  Far.of_rest (Card.cutAnneal_rest c n)

@[simp] theorem Card.completeHung_far (c : Card) (n : Nat) (w : HungWork) :
    (c.completeHung n w).far = c.far :=
  Far.of_rest (Card.completeHung_rest c n w)

@[simp] theorem Card.stopHung_far (c : Card) (n : Nat) (w : HungWork) :
    (c.stopHung n w).far = c.far :=
  Far.of_rest (Card.stopHung_rest c n w)

@[simp] theorem Card.refill_far (c : Card) (h : Nat) (ds : List Desc) :
    (c.refill h ds).far = c.far := by
  unfold Card.refill
  (try dsimp only)
  (repeat' split) <;> simp [Far.parts]

@[simp] theorem Card.eraseMore_far (c : Card) (n : Nat) : (c.eraseMore n).far = c.far :=
  Far.of_rest (Card.eraseMore_rest c n)

@[simp] theorem Card.windowErase_far (c : Card) : (c.windowErase).far = c.far :=
  Far.of_rest (Card.windowErase_rest c)

@[simp] theorem Card.emptyOne_far (c : Card) (w : Nat) (why : MoveWhy) :
    (c.emptyOne w why).far = c.far := by
  unfold Card.emptyOne
  (try dsimp only)
  (repeat' split) <;> simp [Far.parts]

@[simp] theorem Card.reclaimVictim_far (c : Card) :
    c.reclaimVictim.1.far = c.far :=
  Far.of_rest (Card.reclaimVictim_rest c)

@[simp] theorem Card.refreshOne_far (c : Card) :
    c.refreshOne.far = c.far := by
  unfold Card.refreshOne
  (try dsimp only)
  (repeat' split) <;> simp [Far.parts]

@[simp] theorem Card.reclaimOne_far (c : Card) :
    c.reclaimOne.far = c.far := by
  unfold Card.reclaimOne
  (try dsimp only)
  (repeat' split) <;> (try simp only [Prod.ext_iff] at *) <;> (try casesm* _ ∧ _) <;> (try subst_vars) <;>
    simp_all

@[simp] theorem Card.levelWing_far (c : Card) :
    c.levelWing.1.far = c.far := by
  unfold Card.levelWing
  (try dsimp only)
  (repeat' split) <;> simp [Far.parts]

@[simp] theorem Card.levelOne_far (c : Card) :
    c.levelOne.far = c.far := by
  unfold Card.levelOne
  (try dsimp only)
  (repeat' split) <;> (try simp only [Prod.ext_iff] at *) <;> (try casesm* _ ∧ _) <;> (try subst_vars) <;>
    simp_all

@[simp] theorem Card.countProbe_far (c : Card) (n : Nat) :
    (c.countProbe n).far = c.far :=
  Far.of_rest (Card.countProbe_rest c n)

@[simp] theorem Card.heatComplete_far (c : Card) (n : Nat) :
    (c.heatComplete n).far = c.far :=
  Far.of_rest (Card.heatComplete_rest c n)

@[simp] theorem Card.reclassAny_far (c : Card) (w : Nat) :
    (c.reclassAny w).far = c.far :=
  Far.of_rest (Card.reclassAny_rest c w)

@[simp] theorem Card.heaterTimeout_far (c : Card) (n : Nat) :
    (c.heaterTimeout n).far = c.far :=
  Far.of_rest (Card.heaterTimeout_rest c n)

@[simp] theorem Card.cutAnneals_far (c : Card) :
    c.cutAnneals.far = c.far :=
  Far.of_rest (Card.cutAnneals_rest c)

@[simp] theorem Card.noteCool_far (c : Card) (x : DieTemp) :
    (c.noteCool x).far = c.far :=
  Far.of_rest (Card.noteCool_rest c x)

@[simp] theorem Card.thermal_far (c : Card) (dies : List DieTemp) (controller : Int) :
    (c.thermal dies controller).far = c.far :=
  Far.of_rest (Card.thermal_rest c dies controller)

@[simp] theorem Card.keepLate_far (c : Card) (n : Nat) :
    (c.keepLate n).far = c.far :=
  Far.of_rest (Card.keepLate_rest c n)

@[simp] theorem Card.dropWrong_far (c : Card) :
    (c.dropWrong).far = c.far :=
  Far.of_rest (Card.dropWrong_rest c)

@[simp] theorem Card.useReplacements_far (c : Card) (r : ScanReport) :
    (c.useReplacements r).far = c.far :=
  Far.of_rest (Card.useReplacements_rest c r)

@[simp] theorem Card.rebuildLosses_far (c : Card) (r : ScanReport) (bs : List Bay) :
    (c.rebuildLosses r bs).far = c.far :=
  Far.of_rest (Card.rebuildLosses_rest c r bs)

@[simp] theorem Card.scanMarks_far (c : Card) (r : ScanReport) :
    (c.scanMarks r).far = c.far :=
  Far.of_rest (Card.scanMarks_rest c r)

@[simp] theorem Card.scanCounts_far (c : Card) :
    (c.scanCounts).far = c.far :=
  Far.of_rest (Card.scanCounts_rest c)

@[simp] theorem Card.startMounted_far (c : Card) :
    (c.startMounted).far = c.far :=
  Far.of_rest (Card.startMounted_rest c)

@[simp] theorem Card.emptyTags_far (c : Card) :
    c.emptyTags.far = c.far := by
  unfold Card.emptyTags
  (try dsimp only)
  (repeat' split) <;> simp [Far.parts]

@[simp] theorem Card.dropScheduled_far (c : Card) :
    (c.dropScheduled).far = c.far := by
  unfold Card.dropScheduled
  (try dsimp only)
  (repeat' split) <;> simp [Far.parts]

@[simp] theorem Card.resetErase_far (c : Card) (n : Nat) :
    (c.resetErase n).far = c.far :=
  Far.of_rest (Card.resetErase_rest c n)

@[simp] theorem Card.resetErases_far (c : Card) :
    c.resetErases.far = c.far :=
  Far.of_rest (Card.resetErases_rest c)

@[simp] theorem Card.keepTags_far (c : Card) (t : Tag) :
    (c.keepTags t).far = c.far := by
  unfold Card.keepTags
  (try dsimp only)
  (repeat' split) <;> simp [Far.parts]

@[simp] theorem Card.afterPage_far (c : Card) (n : Nat) :
    (c.afterPage n).far = c.far :=
  Far.of_rest (Card.afterPage_rest c n)

@[simp] theorem Card.discardSync_far (c : Card) (reason type seq : Byte) :
    (c.discardSync reason type seq).far = c.far :=
  Far.of_rest (Card.discardSync_rest c reason type seq)

@[simp] theorem Card.reviewRunning_far (c : Card) :
    (c.reviewRunning).far = c.far := by
  unfold Card.reviewRunning
  (try dsimp only)
  (repeat' split) <;> simp [Far.parts]

@[simp] theorem Card.syncMarkNow_far (c : Card) (m : SyncMsg) :
    (c.syncMarkNow m).far = c.far := by
  unfold Card.syncMarkNow
  (try dsimp only)
  (repeat' split) <;> simp [Far.parts]

@[simp] theorem Card.setSlot_far (c : Card) (n : Nat) :
    (c.setSlot n).far = c.far :=
  Far.of_rest (Card.setSlot_rest c n)

@[simp] theorem Card.setAligned_far (c : Card) (p : Port) (v : Bool) :
    (c.setAligned p v).far = c.far := by
  unfold Card.setAligned
  (try dsimp only)
  (repeat' split) <;> simp [Far.parts]

end Sys2Proof.Machine
end

