-- ==== Sys2Proof/Tests/Slice0.lean ====
section
/-! SUPPORT. Tests: well-formedness, and for every statement with hypotheses a state and operands that meet them. -/

namespace Sys2Proof.Tests

set_option Elab.async false

open Sys2Proof Sys2Proof.Machine

/-- A state with nothing waiting. -/
def st (c : Card) : State := { card := c, pending := [] }

/-- A frame on CI. -/
def ci (tag : Tag) (sector : BitVec 32) (count : BitVec 10) (arg : BitVec 32) (flags : Byte) : Frame :=
  { port := .ci, tag := tag, issue := false, sector := sector, count := count, arg := arg, flags := flags, ext := none }

/-- A frame on DCI. -/
def dci (tag : Tag) (arg : BitVec 32) : Frame := { ci tag 0 0 arg 0 with port := .dci }

/-- A configuration copy: slot 0 of alcove A, profile 1 (unencrypted, rewritable). -/
def conf : Conf :=
  { selected := some (.a, false)
    record := { Record.factory with generation := 3, epoch := 1, profile := some 1, capacity := 220200960 }
    p := 0, key := none, table := [], retired := [], unlogged := 0, freeA := true, freeB := false, ledger := [] }

/-- Powered, with HCLK, after soft start. -/
def powered : Card :=
  { Card.reset with phase := .poweredUnclocked
                    power := { Card.reset.power with pdcLow := true, strapSources := true } }

/-- A strap set with these address levels, solo, four lanes. -/
def levels (h m l : BitVec 4) : StrapSet :=
  let v (x : BitVec 4) : StrapVal := { level := x, mv := 0, unstable := false }
  { prf := v 1, wpw := v 0, adh := v h, adm := v m, adl := v l, twn := v 0, lns := v 2 }

/-- In LINK-TRAINING, alcove A in use. -/
def training : Card :=
  { powered with
    phase := .linkTraining
    straps := { powered.straps with vals := levels 1 2 3, slot := 0x123, group := 1, lns := 2, lastRead := some .powerUp }
    link := { powered.link with mode := .training }
    alcove := { powered.alcove with inUse := some .a, seqInUse := 1, conf := some conf } }

/-- READY-UNMOUNTED, the link trained with four lanes. -/
def ready : Card :=
  { training with phase := .readyUnmounted
                  link := { training.link with mode := .up, lanes := 4, trained := 15 } }

/-- MOUNTED, nothing written yet. -/
def mounted : Card :=
  { ready with
    phase := .mounted
    treads := { ready.treads with c := 0x100000, rx := .rest }
    straps := { ready.straps with mountSlot := 0x123 }
    views := { ready.views with valid := true }
    media := { ready.media with cells := [], wings := [] } }

/-- CLOSED, DRAM in self-refresh. -/
def closed : Card :=
  { mounted with phase := .closed, views := { mounted.views with selfRefresh := true } }

/-- The dock is there. -/
def docked (c : Card) : Card := { c with power := { c.power with dock := true } }

/-- A tag-table entry. -/
def entry (p : Port) (op : Byte) (s : TagState) : TagEntry :=
  { port := p, issue := false, opcode := op, sector := 0, count := 0, arg := 0, flags := 0, crcx := none, state := s }

/-- A command outstanding on a tag. -/
def withCmd (c : Card) (g : Tag) (op : Byte) (k : Cmd) : Card := c.putTag g (entry .ci op (.outstanding k))

/-- A WRITE that waits for GO. -/
def waiting : WriteWork :=
  { discard := false, sector := 16, count := 16, ord := 0, order := 1, landAfter := none, stage := .waitGo, credit := 1,
    delayed := false, mergesIssued := false, merges := [], xfer := none, data := [], bays := [], inlineErases := [],
    inlineMoves := 0, inlineDue := 0, inlineEmpty := [], inlined := false, applied := false }

/-- Its transfer open. -/
def opened (n : Nat) : WriteWork :=
  { waiting with stage := .data, xfer := some { bytes := n, frames := [], trailers := [], failed := 0, cause := none } }

/-- A written data bay. -/
def dataBay (addr key : Nat) : Bay :=
  { kind := .data, addr := addr, mask := 0xFFFF, seq := 1, ord := 0, slot := 0, pclass := 0, key := key, reloc := false,
    body := .data [] }

/-- A window of 100,000 treads at a tread. -/
def window (quiet : Bool) (kinds : BitVec 8) (start : Tread) : Window :=
  { seq := 0, quiet := quiet, kinds := kinds, start := start, duration := 4000000, began := 0 }

/-- A running window. -/
def inWindow (c : Card) (kinds : BitVec 8) : Card :=
  { c with maint := { c.maint with running := [window false kinds c.treads.c] } }

/-- A lane-frame on a lane whose scrambler starts at 0. -/
def wordOn (lane : BitVec 2) (h : BitVec 20) (payload : List Byte) : LaneWord :=
  { lane := lane, syms := (laneWord 0 h payload).1.map (BitVec.ofNat 10) }

/-- A word that the code does not correct: of its thirty syndromes only the last is not zero. -/
def noise (lane : BitVec 2) : LaneWord :=
  { lane := lane
    syms := List.replicate 514 0 ++
      [1, 287, 513, 656, 197, 885, 815, 1011, 141, 211, 282, 451, 394, 740, 375, 387, 301, 883, 11, 812, 927, 370, 437,
        2, 961, 563, 614, 564, 941, 464] }

/-- A frame of zeros. -/
def zeros640 : List Byte := List.replicate 640 0

/-- A frame received on lane 0. -/
def got0 : RxData := { lane := 0, index := 0, payload := zeros640 }

/-- A transfer of one frame, received. -/
def oneFrame : Xfer := { bytes := 640, frames := [got0], trailers := [], failed := 0, cause := none }

/-- The trailer that goes with it. -/
def itsTrailer : Trailer :=
  { crc := crc32c zeros640, count := 1, lane := 0, laneCode := 1, issue := false, length := 640 }

/-- A trailer's frame for tag 5 on lane 0. -/
def trailerWord (t : Trailer) : LaneWord := wordOn 0 (laneHeader .trailer 5 0) (trailerBytes t)

/-- A WRITE far away that holds every place of the vestibule. -/
def hoarder : WriteWork := { waiting with sector := 100000, stage := .data, credit := 8128 }

/-- A landing in progress. -/
def act (rollback : Bool) (stage : ActStage) : Action :=
  { rollback := rollback, flight := 7, exec := 0x100000, late := 0, src := .cmd 5, closed := 0, opened := 1, stage := stage,
    begun := 0, bay := none, failed := false }

/-- That landing alone, its command outstanding. -/
def acting (rollback : Bool) (stage : ActStage) : Card :=
  let c := withCmd mounted 5 opLand .timed
  { c with flights := { c.flights with openOrd := 1, nextOrd := 2, acts := [act rollback stage] } }

/-- A last landed flight. -/
def landed (f : Flight) : Landed :=
  { flight := f, tread := 0, prev := 0, first := 0, last := 0, seq := 1, digest := 0, slot := 0 }

/-- Flight `f` landed last, and may be rolled back. -/
def after (f : Flight) (c : Card) : Card :=
  { c with flights := { c.flights with last := some (landed f), canRoll := true } }

/-- A LAND or ROLLBACK held for now. -/
def holding (rollback : Bool) (f : Flight) : Card :=
  let c := withCmd (after 7 mounted) 5 opLand .timed
  { c with flights := { c.flights with held := some { rollback := rollback, tread := 0x100000, flight := f, src := .cmd 5 } } }

/-- A SYNC message to every card. -/
def msg (tread : Tread) (arg : BitVec 32) : SyncMsg := { seq := 1, kind := 0, addr := 0, tread := tread, arg := arg }

/-- A card with one die in some state. -/
def withDie (c : Card) (n : Nat) (d : Die) : Card := c.setDie n d

/-- A closed wing 0 with one valid bay. -/
def oneBay : Card :=
  { mounted with
    media := { mounted.media with
      cells := [(0, .bay (dataBay 0 0))]
      seq := 0x2000000
      wings := [(0, { Wing.fresh 0 with state := .closed, closeSeq := 1 })] }
    views := { mounted.views with map := [(0, { working := .at 0, landed := .at 0, hmark := false })] } }

/-- What a command leaves, for tests. -/
def next (i : Instr) (c : Card) : Card :=
  match exec i (st c) with
  | .next t => t.card
  | _ => c

/-- A card of the tests below. -/
def stateChangesOnlyByTableCard : Card :=
    { powered with phase := .absent, power := { powered.power with softStarting := true } }

/-- A card of the tests below. -/
def alcoveBytesFrameProgramCard : Card :=
    { ready with alcove := { ready.alcove with ops := [.programBytes .a 62 [0x0F, 0x55]] } }

/-- A card of the tests below. -/
def alcoveBytesFrameSeqCard : Card := { ready with alcove := { ready.alcove with ops := [.programSeq .b 2] } }

/-- A card of the tests below. -/
def pinEventsSoftCard : Card := { Card.reset with power := { Card.reset.power with pdcLow := true } }

/-- A card of the tests below. -/
def pinEventsVmCard : Card := { Card.reset with power := { Card.reset.power with pdcLow := true, vmLow := true } }

/-- A card of the tests below. -/
def supplyUpAndDownUpCard : Card :=
    { Card.reset with power := { Card.reset.power with pdcLow := true, softStarting := true } }

/-- A card of the tests below. -/
def clockLossAndReturnTripCard : Card :=
    { oneBay with power := { oneBay.power with hclk := false, hclkTripped := false } }

/-- A card of the tests below. -/
def clockLossAndReturnOtherCard : Card := { ready with power := { ready.power with hclk := false } }

/-- A card of the tests below. -/
def stablePassLatchesCard : Card :=
    { powered with straps := { powered.straps with reading := some { kind := .powerUp, pass := 0, todo := allStraps, got := .unread } } }

/-- A card of the tests below. -/
def strapReadPassesUnstableCard : Card :=
    { ready with straps := { ready.straps with reading := some { kind := .mount, pass := 3, todo := [.adh], got := .unread } } }

/-- A card of the tests below. -/
def loaderOutcomesGoodCard : Card :=
    { powered with phase := .loading, alcove := { powered.alcove with trying := some (.a, false) } }

/-- A card of the tests below. -/
def loaderOutcomesNorecordCard : Card :=
    { powered with phase := .loading, alcove := { powered.alcove with trying := some (.a, false), shipped := .broken } }

/-- A card of the tests below. -/
def loaderOutcomesFirstCard : Card :=
    { powered with phase := .loading, alcove := { powered.alcove with trying := some (.b, false) } }

/-- A card of the tests below. -/
def loaderOutcomesSecondCard : Card :=
    { powered with phase := .loading, alcove := { powered.alcove with trying := some (.b, true) } }

/-- A card of the tests below. -/
def trainingRequestsRepeatCard : Card := { training with link := { training.link with reqSeq := some 3 } }

/-- A card of the tests below. -/
def trainingRequestsCapCard : Card :=
    { training with straps := { training.straps with lns := 0 } }

/-- A card of the tests below. -/
def readyRuleFitCard : Card := { training with link := { training.link with trained := 15 } }

/-- A card of the tests below. -/
def trainingLanesMarkerCard : Card := { training with link := { training.link with mode := .accepted 4, lanes := 4 } }

/-- A card of the tests below. -/
def retrainRuleHeldCard : Card := { ready with link := { ready.link with hold := true } }

/-- A card of the tests below. -/
def retrainRuleReadCard : Card :=
    withCmd mounted 5 opRead (.read { sector := 0, count := 1, view := true, pieces := [{ bay := 0, src := .at 0, val := .waiting, weak := false }] })

/-- A card of the tests below. -/
def retrainRuleWriteCard : Card := withCmd mounted 5 opWrite (.write (opened 65536))

/-- A card of the tests below. -/
def markersHoldAndIdleHoldCard : Card := { mounted with phase := .mounting, link := { mounted.link with holdDue := true } }

/-- A card of the tests below. -/
def trailerRulesCard (delayed : Bool) : Card :=
  let c := withCmd mounted 5 opWrite
    (.write { waiting with count := 1, stage := .data, delayed := delayed, xfer := some oneFrame })
  { c with link := { c.link with lanes := 1 } }

/-- A card of the tests below. -/
def frameCheckOrderLengthCard : Card := docked mounted

/-- A card of the tests below. -/
def frameCheckOrderSameCard : Card :=
    mounted.putTag 5 (entryOf opRead (ci 5 0 1 0 0) (.completed stLost (info3 3 4 5)))

/-- A card of the tests below. -/
def rangeAndNoLinkReadCard : Card := { mounted with link := { mounted.link with mode := .training } }

/-- A card of the tests below. -/
def streamRuleMoreCard : Card :=
    withCmd mounted 5 opStream (.stream (let ps := (mounted.piecesOf true (baysOf 10 20)).map (mounted.prefetch false); ({ view := true, next := 10, stop := 40, sent := 2, zeros := false, cur := { sector := 10, count := 20, view := true, pieces := ps } } : StreamWork)))

/-- A card of the tests below. -/
def streamRuleLastCard : Card :=
    withCmd mounted 5 opStream (.stream (let ps := (mounted.piecesOf true (baysOf 10 20)).map (mounted.prefetch false); ({ view := true, next := 10, stop := 30, sent := 2, zeros := false, cur := { sector := 10, count := 20, view := true, pieces := ps } } : StreamWork)))

/-- A card of the tests below. -/
def streamRuleLostCard : Card :=
    withCmd { mounted with views := { mounted.views with map := [(1, { working := .at 16, landed := .at 16, hmark := false })] } } 5 opStream (.stream ({ view := true, next := 10, stop := 40, sent := 2, zeros := false, cur := { sector := 10, count := 20, view := true, pieces := [{ bay := 0, src := .zero, val := .waiting, weak := false }, { bay := 1, src := .at 16, val := .lost, weak := false }] } } : StreamWork))

/-- A card of the tests below. -/
def writeRuleGoCard : Card := withCmd mounted 5 opWrite (.write waiting)

/-- A card of the tests below. -/
def writeRuleDelayedCard : Card := withCmd mounted 5 opWrite (.write { waiting with delayed := true })

/-- A card of the tests below. -/
def writeRuleSharesCard : Card :=
    withCmd writeRuleGoCard 6 opWrite (.write { waiting with delayed := true, order := 2 })

/-- A card of the tests below. -/
def writeRuleMergesCard : Card :=
    withCmd mounted 5 opWrite (.write { waiting with delayed := true, sector := 8, stage := .data })

/-- A card of the tests below. -/
def timedCommandsStaleCard : Card := after 8 mounted

/-- A card of the tests below. -/
def timedCommandsBlockedCard : Card := holding false 9

/-- A card of the tests below. -/
def timedCommandsRollbackCard : Card := after 7 mounted

/-- A card of the tests below. -/
def timedCommandsOverlapCard : Card :=
    { mounted with maint := { mounted.maint with held := [window true 0 0x100010] } }

/-- A card of the tests below. -/
def mountRuleNoneCard : Card :=
    { ready with alcove := { ready.alcove with conf := some { conf with record := Record.factory } } }

/-- A card of the tests below. -/
def mountRuleEndsCard : Card :=
    (withCmd { ready with phase := .mounting, views := { ready.views with selfRefresh := true } } 5 opMount (.mount true))

/-- A card of the tests below. -/
def closeRulesStaleCard : Card :=
    (fun (c : Card) => { c with flights := { c.flights with records := [{ ord := 0, order := 1, bytes := [] }] } }) timedCommandsStaleCard

/-- A card of the tests below. -/
def closeRulesForceCard : Card := docked (withCmd oneBay 5 opRead (.read .empty))

/-- A card of the tests below. -/
def closeRulesForceReadyCard : Card := docked ready

/-- A card of the tests below. -/
def inquireRuleHeldCard : Card := { mounted with link := { mounted.link with hold := true } }

/-- A card of the tests below. -/
def dockCommandsSanitizeCard : Card := docked closed

/-- A card of the tests below. -/
def dockCommandsSwapCard : Card :=
    { dockCommandsSanitizeCard with alcove := { closed.alcove with inUse := some .b, memA := Mem.erase Mem.shippedAlcove 8 8 } }

/-- A card of the tests below. -/
def dockCommandsSwapDoneCard : Card :=
    { dockCommandsSanitizeCard with alcove := { closed.alcove with inUse := some .b, seqInUse := 0 } }

/-- A card of the tests below. -/
def syncEffectsNinthCard : Card :=
    { mounted with flights := { mounted.flights with marks := List.replicate 8 { seq := 1, tread := 0x100020, value := 1 } } }

/-- A card of the tests below. -/
def syncEffectsRepeatCard : Card :=
    { mounted with treads := { mounted.treads with lastMsg := some (syncTypeMark, msg 0x100010 9) } }

/-- A card of the tests below. -/
def landingActionsExecuteCard : Card := holding false 8

/-- A card of the tests below. -/
def landingActionsStaleCard : Card := holding false 7

/-- A card of the tests below. -/
def landingActionsIssueCard : Card := (acting false .completing)

/-- A card of the tests below. -/
def rollbackAndMarkActionsExecuteCard : Card := (withCmd (holding true 7) 9 opWrite (.write waiting))

/-- A card of the tests below. -/
def rollbackAndMarkActionsIssueCard : Card := (after 7 (acting true .completing))

/-- A card of the tests below. -/
def rollbackAndMarkActionsStaleCard : Card := (after 8 (acting true .completing))

/-- A card of the tests below. -/
def rollbackAndMarkActionsMarkCard : Card :=
    { mounted with flights := { mounted.flights with marks := [{ seq := 1, tread := 0x100000, value := 5 }] } }

/-- A card of the tests below. -/
def windowsRunStartCard : Card := { mounted with maint := { mounted.maint with held := [window false 1 0x100000] } }

/-- A card of the tests below. -/
def windowsRunEndCard : Card := inWindow mounted 1

/-- A card of the tests below. -/
def baysOfActionsLandLandingCard : Card :=
    { oneBay with flights := { oneBay.flights with openOrd := 1, nextOrd := 2, acts := [{ act false (.issued 16) with src := .sync 1 }] }, views := { oneBay.views with changes := [{ ord := 0, bay := 3, loc := .at 48, mask := 0xFFFF }] } }

/-- A card of the tests below. -/
def dieReportsProgramCard : Card :=
    (withDie { mounted with media := { mounted.media with vest := [(16, dataBay 1 16)], pointers := [(0, 1)] } } 0 { op := some (.program 16), erase := none, hangs := 0, fenced := false, heat := .cold, late := none })

/-- A card of the tests below. -/
def dieReportsReadCard : Card :=
    (withDie oneBay 0 { op := some (.read 4 0 false 0xFFFF 0), erase := none, hangs := 0, fenced := false, heat := .cold, late := none })

/-- A card of the tests below. -/
def dieReportsEraseCard : Card :=
    (withDie oneBay 0 { op := none, erase := some { wing := 0, owner := .window, stage := .running }, hangs := 0, fenced := false, heat := .cold, late := none })

/-- A card of the tests below. -/
def dieReportsWaitCard : Card :=
    (fun (c : Card) (s : EraseStage) => withDie { c with halls := { c.halls with queues := [(0, [.read 4 0 false 0xFFFF 0])], jobs := [(4, { key := 0, purpose := .patrol, stage := .normal, left := 0xFFFF, soft := 0, weak := false, step := 1, beyond := 0, beyondHelp := 0, kids := 0, kidFailed := false })] } } 0 { Die.idle with erase := some { wing := 1, owner := .window, stage := s } }) oneBay .running

/-- A card of the tests below. -/
def dieReportsSuspendedCard : Card :=
    (fun (c : Card) (s : EraseStage) => withDie { c with halls := { c.halls with queues := [(0, [.read 4 0 false 0xFFFF 0])], jobs := [(4, { key := 0, purpose := .patrol, stage := .normal, left := 0xFFFF, soft := 0, weak := false, step := 1, beyond := 0, beyondHelp := 0, kids := 0, kidFailed := false })] } } 0 { Die.idle with erase := some { wing := 1, owner := .window, stage := s } }) oneBay .suspending

/-- A card of the tests below. -/
def dieReportsQueuedCard : Card :=
    { dieReportsReadCard with halls := { dieReportsReadCard.halls with back := [(0, [.program 16])] } }

/-- A card of the tests below. -/
def dieReportsFencedCard : Card :=
    (withDie (docked oneBay) 0 { op := some (.read 4 0 false 0xFFFF 0), erase := none, hangs := 1, fenced := false, heat := .cold, late := none })

/-- A card of the tests below. -/
def dieReportsResetEndCard : Card :=
    { oneBay with halls := { oneBay.halls with resets := [(0, { hung := 0, again := [.read 4 0 false 0xFFFF 0], redrive := [] })] } }

/-- A card of the tests below. -/
def windowWorkEraseCard : Card :=
    (inWindow { mounted with media := { mounted.media with wings := [(0, { Wing.fresh 0 with state := .waiting })] } } 2)

/-- A card of the tests below. -/
def windowWorkRefreshCard : Card :=
    (inWindow { oneBay with media := { oneBay.media with wings := [(0, { Wing.fresh 0 with state := .closed, closeSeq := 1, mark := some 0 })] } } 16)

/-- A card of the tests below. -/
def windowWorkLevelCard : Card := (inWindow { oneBay with media := { oneBay.media with rowClass := [(1, 3)] } } 4)

/-- A card of the tests below. -/
def windowWorkPatrolCard : Card := (inWindow { oneBay with maint := { oneBay.maint with pass := [0] } } 8)

/-- A card of the tests below. -/
def windowWorkPatrolEmptyCard : Card :=
    (inWindow { oneBay with maint := { oneBay.maint with pass := [0, 1] }, media := { oneBay.media with cells := [], wings := [(0, { Wing.fresh 0 with state := .closed, closeSeq := 1 }), (1, { Wing.fresh 0 with state := .closed, closeSeq := 2 })] } } 8)

/-- A card of the tests below. -/
def annealAndThermalStartCard : Card :=
    (inWindow { mounted with media := { mounted.media with dieClasses := [(35, List.replicate 64 5)] } } 64)

/-- A card of the tests below. -/
def annealAndThermalHeatCard : Card :=
    (fun (h : HeatStage) => withDie { mounted with maint := { mounted.maint with anneals := [{ die := 35, p0 := 7 }] } } 35 { Die.idle with heat := h }) .heating

/-- A card of the tests below. -/
def annealAndThermalProbeCard : Card :=
    (fun (h : HeatStage) => withDie { mounted with maint := { mounted.maint with anneals := [{ die := 35, p0 := 7 }] } } 35 { Die.idle with heat := h }) .cooling

/-- A card of the tests below. -/
def twinRulesHelloCard : Card :=
    (let c := frameCheckOrderLengthCard; { c with straps := { c.straps with role := .twinA } })

/-- A card of the tests below. -/
def twinRulesDigestCard : Card :=
    { twinRulesHelloCard with twin := { twinRulesHelloCard.twin with burst := some { replay := false, left := none, digests := [] } } }

/-- A card of the tests below. -/
def twinRulesWaitCard : Card :=
    { twinRulesHelloCard with twin := { twinRulesHelloCard.twin with waits := [{ flight := 7, ended := true }], linkUp := true } }

/-- A card of the tests below. -/
def twinRulesSameCard : Card :=
    { twinRulesHelloCard with twin := { twinRulesHelloCard.twin with waits := [{ flight := 7, ended := true }], heard := [{ replay := false, left := none, digests := [{ flight := 7, digest := 5, prev := 6 }] }] }, flights := { twinRulesHelloCard.flights with history := [{ flight := 7, digest := 5, prev := 6 }] } }

/-- A card of the tests below. -/
def twinRulesDifferCard : Card :=
    { twinRulesHelloCard with twin := { twinRulesHelloCard.twin with waits := [{ flight := 7, ended := true }], heard := [{ replay := false, left := none, digests := [{ flight := 7, digest := 5, prev := 6 }] }] }, flights := { twinRulesHelloCard.flights with history := [{ flight := 7, digest := 4, prev := 6 }] } }

/-- A card of the tests below. -/
def balconyPeriodPeriodCard : Card :=
    { frameCheckOrderLengthCard with bal := { mounted.bal with startDue := true, seq := 5 } }

/-- A card of the tests below. -/
def balconyPeriodCounterCard : Card :=
    { frameCheckOrderLengthCard with bal := { mounted.bal with slot := some 96, queue := [] } }

/-- A card of the tests below. -/
def balconyPeriodEmptyCard : Card :=
    { frameCheckOrderLengthCard with bal := { mounted.bal with slot := some 97, queue := [] } }

/-- A card of the tests below. -/
def balconyPeriodQueueCard : Card :=
    { frameCheckOrderLengthCard with bal := { mounted.bal with slot := some 1561, queue := [{ type := 0x17, stamp := 0, payload := [] }] } }

theorem witness_StepRunsFrontCommand_idle : (st mounted).pending = [] := by decide +kernel

theorem witness_CoreFrames :
    exec (.keepaliveInterim 1) (st mounted) = .next (st (next (.keepaliveInterim 1) mounted)) ∧
    exec .holdBegin (st mounted) = .next (st (next .holdBegin mounted)) := ⟨rfl, rfl⟩

theorem witness_CoreFrames_taking : mounted.treads.taking = none := rfl

theorem witness_AlcoveBytesFrame : exec .treadTick (st mounted) = .next (st (next .treadTick mounted)) := rfl

theorem witness_AlcoveBytesFrame_op :
    ((([.eraseSector .b 0] : List AlcoveOp).head?.any (fun o => o.touches .b 65536)) = false) ∧
    exec (.alcoveOperationComplete true) (st { mounted with alcove := { mounted.alcove with ops := [.eraseSector .b 0] } }) = .next (st (next (.alcoveOperationComplete true) { mounted with alcove := { mounted.alcove with ops := [.eraseSector .b 0] } })) :=
    ⟨by decide +kernel, rfl⟩

theorem witness_AlcoveBytesFrame_erase : ready.alcove.memA.wf = true ∧ ready.alcove.memB.wf = true ∧
    ready.power.hclk = true := by decide +kernel

theorem witness_AlcoveBytesFrame_program :
    alcoveBytesFrameProgramCard.alcove.ops = [.programBytes .a 62 [0x0F, 0x55]] := by decide +kernel

theorem witness_AlcoveBytesFrame_seq : (seqField 2).length = 8 := by decide +kernel

theorem witness_FlashFrame : cellTouched oneBay .treadTick 0 = false ∧
    exec .treadTick (st oneBay) = .next (st (next .treadTick oneBay)) := ⟨by decide +kernel, rfl⟩

theorem witness_PinEvents_soft : pinEventsSoftCard.phase = .absent ∧ Card.reset.power.broken = false ∧
    Card.reset.power.vmLow = false := by decide +kernel

theorem witness_PinEvents_none : Card.reset.power.pdcLow = false := by decide +kernel

theorem witness_PinEvents_vm : pinEventsVmCard.power.vmLow = true := by decide +kernel

theorem witness_PinEvents_dock : ready.phase ≠ .absent ∧ ready.power.hclk = true ∧ ready.power.dock = false :=
    by decide +kernel

theorem witness_PinEvents_hclk : powered.phase = .poweredUnclocked ∧ ready.phase ≠ .poweredUnclocked := by
  decide +kernel

theorem witness_SupplyUpAndDown_up : supplyUpAndDownUpCard.phase = .absent ∧
    supplyUpAndDownUpCard.power.softStarting = true ∧ supplyUpAndDownUpCard.runningPrograms = [] := by decide +kernel

theorem witness_SupplyUpAndDown_down : mounted.phase ≠ .absent := by decide +kernel

theorem witness_SupplyUpAndDown_trip : mounted.phase ≠ .absent := by decide +kernel

theorem witness_SupplyUpAndDown_late : ∀ n, (mounted.die n).late = none := fun _ => rfl

theorem witness_SupplyUpAndDown_absent : Card.reset.phase = .absent := rfl

theorem witness_ClockLossAndReturn_late : ∀ n, (clockLossAndReturnOtherCard.die n).late = none := fun _ => rfl

theorem witness_ClockLossAndReturn_trip : clockLossAndReturnTripCard.phase ≠ .absent ∧
    clockLossAndReturnTripCard.power.hclk = false ∧ clockLossAndReturnTripCard.power.hclkTripped = false :=
    by decide +kernel

theorem witness_ClockLossAndReturn_other : clockLossAndReturnOtherCard.phase ≠ .mounted ∧
    clockLossAndReturnOtherCard.phase ≠ .mounting := by decide +kernel

theorem witness_ClockLossAndReturn_back : clockLossAndReturnOtherCard.link.mode = .up ∧
    clockLossAndReturnOtherCard.link.hold = false ∧ clockLossAndReturnOtherCard.cuts = [] ∧
    clockLossAndReturnOtherCard.flights.acts = [] := by decide +kernel

theorem witness_StrapReadPasses_start : powered.phase = .poweredUnclocked ∧ powered.power.hclk = true ∧
    powered.power.strapSources = true ∧ powered.straps.reading = none := by decide +kernel

theorem witness_StablePassLatches :
    ((let l (n : Nat) := List.replicate 8 n; (⟨l 300, l 10, l 300, l 500, l 800, l 10, l 500⟩ : StrapPass))).wf = true ∧
    (stablePassLatchesCard.straps.reading = some { kind := .powerUp, pass := 0, todo := allStraps, got := .unread }) ∧
    (∀ i ∈ allStraps, strapDecode (passOf (let l (n : Nat) := List.replicate 8 n; (⟨l 300, l 10, l 300, l 500, l 800, l 10, l 500⟩ : StrapPass)) i) = some (if i = .wpw ∨ i = .twn then 0 else if i = .adl then 3 else if i = .adm ∨ i = .lns then 2 else 1)) :=
    by decide +kernel

theorem witness_StrapReadPasses_unstable :
    ((let l (n : Nat) := List.replicate 8 n; (⟨l 300, l 10, [300, 30000, 300, 300, 300, 300, 300, 300], l 500, l 800, l 10, l 500⟩ : StrapPass))).wf = true ∧
    strapDecode (passOf (let l (n : Nat) := List.replicate 8 n; (⟨l 300, l 10, [300, 30000, 300, 300, 300, 300, 300, 300], l 500, l 800, l 10, l 500⟩ : StrapPass)) .adh) = none ∧
    ready.power.hclk = true := by decide +kernel

theorem witness_StrapReadPasses_again :
    (strapReadPassesUnstableCard.straps.reading.map (fun r => { r with pass := 2 })) =
      some { kind := .mount, pass := 2, todo := [.adh], got := .unread } ∧ 2 < 3 := by decide +kernel

theorem witness_LoaderOutcomes_good : loaderOutcomesGoodCard.phase = .loading ∧
    (loaderOutcomesGoodCard.alcove.mem .a).loadable = true ∧ loaderOutcomesGoodCard.alcove.loadConf.isSome = true :=
    by decide +kernel

theorem witness_LoaderOutcomes_norecord : loaderOutcomesNorecordCard.alcove.loadConf = none := by decide +kernel

theorem witness_LoaderOutcomes_first : (loaderOutcomesFirstCard.alcove.mem .b).loadable = false := by decide +kernel

theorem witness_LoaderOutcomes_second : (loaderOutcomesSecondCard.alcove.mem .b).loadable = false := by decide +kernel

theorem witness_TreadTickCounts : mounted.phase ≠ .absent ∧ mounted.power.hclk = true ∧ Card.reset.phase = .absent :=
    by decide +kernel

theorem witness_TreadAndFlightOrder_past : treadNotPast 0 1 = false ∧ ((1#32) - 1).toNat = 0 := by decide +kernel

theorem witness_TrainingRequests_repeat : trainingRequestsRepeatCard.link.reqSeq = some 3 := by decide +kernel

theorem witness_TrainingRequests_new : training.trainable = true ∧ training.link.reqSeq ≠ some 3 ∧
    training.laneCap = 4 ∧ (3#2).toNat < training.laneCap ∧ 3 ≤ (3#4).toNat := by decide +kernel

theorem witness_TrainingRequests_cap : trainingRequestsCapCard.laneCap ≤ (1#2).toNat ∧
    trainingRequestsCapCard.trainable = true := by decide +kernel

theorem witness_ReadyRule_fit : readyRuleFitCard.trainable = true ∧ readyRuleFitCard.link.reqSeq ≠ some 3 ∧
    (4#3).toNat ≤ readyRuleFitCard.laneCap ∧ readyRuleFitCard.link.trained = 0b1111 := by decide +kernel

theorem witness_ReadyRule_unfit : training.trainable = true ∧ training.link.trained.getLsbD 0 = false :=
    by decide +kernel

theorem witness_TrainingLanes_lane : training.trainable = true := by decide +kernel

theorem witness_TrainingLanes_marker : trainingLanesMarkerCard.link.mode = .accepted 4 ∧
    trainingLanesMarkerCard.power.hclk = true := by decide +kernel

theorem witness_MarkerTimeoutRetrains : trainingLanesMarkerCard.link.mode = .accepted 4 ∧
    trainingLanesMarkerCard.power.hclk = true := by decide +kernel

theorem witness_RetrainRule_free : ready.link.mode = .up ∧ ready.power.hclk = true ∧ ready.link.hold = false ∧
    ready.cuts = [] ∧ ready.flights.acts = [] := by decide +kernel

theorem witness_RetrainRule_host : ready.link.mode = .up := by decide +kernel

theorem witness_RetrainRule_held : retrainRuleHeldCard.link.mode = .up ∧ retrainRuleHeldCard.link.hold = true :=
    by decide +kernel

theorem witness_RetrainRule_read : retrainRuleReadCard.link.mode = .up ∧ retrainRuleReadCard.ports.tags.length = 1 ∧
    (retrainRuleReadCard.cmdOf 5).isSome = true := by decide +kernel

theorem witness_RetrainRule_write : retrainRuleWriteCard.cmdOf 5 = some (.write (opened 65536)) ∧
    (opened 65536).stage = .data := by decide +kernel

theorem witness_RetrainRule_card :
    ({ ready with link := { ready.link with badWords := [(3, 32)] } }).retrainLanes .codewords 0 = 8 ∧
    ready.retrainLanes .codewords 0 = 0 ∧ ready.retrainLanes .markers 1 = 1 ∧ ready.retrainLanes .skew 15 = 0 := by
  decide +kernel

theorem witness_RetrainRule_stream : streamRuleMoreCard.link.mode = .up ∧ streamRuleMoreCard.link.hold = false ∧
    streamRuleMoreCard.ports.tags.length = 1 ∧ streamRuleMoreCard.flights.acts = [] := by decide +kernel

theorem witness_RetrainRule_several :
    let c := withCmd streamRuleMoreCard 6 opWrite (.write (opened 65536))
    c.link.mode = .up ∧ c.link.hold = false ∧ c.flights.acts = [] ∧ (c.cmdOf 5).isSome = true ∧
    c.cmdOf 6 = some (.write (opened 65536)) := by decide +kernel

theorem witness_MarkersHoldAndIdle_send : ready.sendsFrames = true := by decide +kernel

theorem witness_MarkersHoldAndIdle_got : ready.laneOpen 3 = true := by decide +kernel

theorem witness_MarkersHoldAndIdle_hold : markersHoldAndIdleHoldCard.link.holdDue = true ∧
    markersHoldAndIdleHoldCard.holds = true ∧
    markersHoldAndIdleHoldCard.link.hold = false ∧ markersHoldAndIdleHoldCard.link.mode ≠ .down ∧
    markersHoldAndIdleHoldCard.power.hclk = true := by decide +kernel

theorem witness_MarkersHoldAndIdle_idle : mounted.hearsWord (wordOn 2 (laneHeader .idle 0 0) zeros640) .idle = true ∧
    (mounted.decodeWord (wordOn 2 (laneHeader .idle 0 0) zeros640)).bad = false := by decide +kernel

theorem witness_MarkersHoldAndIdle_idle_bad : mounted.hearsWord (noise 2) .idle = true ∧
    (mounted.decodeWord (noise 2)).bad = true := by decide +kernel

theorem witness_DataFrameRule_none : mounted.hearsWord (wordOn 2 (laneHeader .data 5 2) zeros640) .data = true ∧
    (mounted.decodeWord (wordOn 2 (laneHeader .data 5 2) zeros640)).tag = 5 ∧ mounted.openXfer 5 = none := by
  decide +kernel

theorem witness_DataFrameRule_kept :
    retrainRuleWriteCard.hearsWord (wordOn 2 (laneHeader .data 5 2) zeros640) .data = true ∧
    (retrainRuleWriteCard.openXfer 5).map (fun p => p.2.trailers) = some [] ∧
    retrainRuleWriteCard.link.lastBad.getLsbD 2 = false := by decide +kernel

theorem witness_DataFrameRule_after_trailer : (KV.find ([(2, itsTrailer)] : KV Trailer) 2).isSome = true := rfl

theorem witness_DataFrameRule_bad :
    let c := withCmd mounted 0 opWrite (.write (opened 640))
    c.hearsWord (noise 2) .data = true ∧ (c.decodeWord (noise 2)).bad = true ∧ (c.decodeWord (noise 2)).tag = 0 ∧
    (c.openXfer 0).isSome = true := by decide +kernel

set_option maxRecDepth 100000 in
theorem witness_TrailerRules_clean : (trailerRulesCard true).hearsWord (trailerWord itsTrailer) .trailer = true ∧
    ((trailerRulesCard true).openXfer 5).map Prod.snd = some oneFrame ∧
    ((trailerRulesCard true).decodeWord (trailerWord itsTrailer)).tag = 5 ∧
    ((trailerRulesCard true).decodeWord (trailerWord itsTrailer)).bad = false ∧ mounted.link.lastBad = 0 ∧
    oneFrame.check 1 0 false (trailerOf (trailerBytes itsTrailer)) = none := by decide +kernel

set_option maxRecDepth 100000 in
theorem witness_TrailerRules_crc :
    oneFrame.check 1 0 false (trailerOf (trailerBytes { itsTrailer with crc := 1 })) = some 0x01 := by decide +kernel

theorem witness_TrailerRules_field :
    oneFrame.check 1 0 false (trailerOf (trailerBytes { itsTrailer with count := 2 })) = some 0x03 := by decide +kernel

theorem witness_TrailerRules_bad :
    let c := { withCmd mounted 0 opWrite (.write (opened 640)) with link := { mounted.link with lanes := 1 } }
    c.hearsWord (noise 0) .trailer = true ∧ (c.decodeWord (noise 0)).bad = true ∧
    (c.decodeWord (noise 0)).tag = 0 ∧ (c.openXfer 0).isSome = true := by decide +kernel

theorem witness_TrailerRules_late : (retrainRuleWriteCard.openXfer 5).isSome = true ∧
    (retrainRuleWriteCard.tagEntry 5).isSome = true ∧ retrainRuleWriteCard.power.hclk = true := by decide +kernel

theorem witness_SentLanesCheck :
    let x : C2h := { tag := 5, issue := false, lanes := 1, seed := 0, bytes := zeros640 }
    x.lanes = 1 ∧ x.bytes.length ≤ 2621440 ∧ oneFrame.bytes = x.bytes.length ∧
    (∀ k ∈ List.range x.lanes, oneFrame.lane k = x.laneFrames k) := by decide +kernel

theorem witness_WireBytes : (2 ^ 58 - 1 < 2 ^ 58) ∧ (List.replicate 514 1023).length = 514 ∧
    (∀ x ∈ List.replicate 514 1023, x < 1024) := by decide +kernel

theorem witness_FrameCheckOrder_deaf : commandOf (.read (ci 5 0 1 0 0)) = some (opRead, (ci 5 0 1 0 0)) ∧
    powered.receives .ci = false := by decide +kernel

theorem witness_FrameCheckOrder_length : frameCheckOrderLengthCard.receives .dci = true ∧
    lengthOk ({ dci 5 1 with ext := some [1, 2, 3] } : Frame) = false := by decide +kernel

theorem witness_FrameCheckOrder_busy : retrainRuleReadCard.receives .ci = true ∧ lengthOk (ci 5 0 1 0 0) = true ∧
    (retrainRuleReadCard.cmdOf 5).isSome = true := by decide +kernel

theorem witness_FrameCheckOrder_same : frameCheckOrderSameCard.receives .ci = true ∧
    sameFrame opRead (ci 5 0 1 0 0) (entryOf opRead (ci 5 0 1 0 0) (.completed stLost (info3 3 4 5))) = true :=
    by decide +kernel

theorem witness_FrameCheckOrder_other :
    sameFrame opRead (ci 5 1 1 0 0) (entryOf opRead (ci 5 0 1 0 0) (.completed stLost (info3 3 4 5))) = false :=
    by decide +kernel

theorem witness_FrameCheckOrder_unlisted : listed 0x7F = false ∧ mounted.tagOpen (ci 5 0 1 0 0) = true ∧
    commandOf (.unlistedOpcode 0x7F (ci 5 0 1 0 0)) = some (0x7F, (ci 5 0 1 0 0)) := by decide +kernel

theorem witness_FrameCheckOrder_port : listed opFormat = true ∧ entitled .ci opFormat = false := by decide +kernel

theorem witness_FrameCheckOrder_state : ready.step7 opRead (ci 5 0 1 0 0) = some stNotMounted ∧
    entitled .ci opRead = true := by decide +kernel

theorem witness_FrameCheckOrder_field : mounted.step7 opRead (ci 5 0 1 9 0) = none ∧
    fieldsOk opRead (ci 5 0 1 9 0) = false := by decide +kernel

theorem witness_DuplicateAnswer : commandOf (.read (ci 5 0 1 0 0)) = some (opRead, (ci 5 0 1 0 0)) ∧
    frameCheckOrderSameCard.tagEntry 5 = some (entryOf opRead (ci 5 0 1 0 0) (.completed stLost (info3 3 4 5))) ∧
    frameCheckOrderSameCard.receives .ci = true ∧ lengthOk (ci 5 0 1 0 0) = true ∧
    sameFrame opRead (ci 5 0 1 0 0) (entryOf opRead (ci 5 0 1 0 0) (.completed stLost (info3 3 4 5))) = true :=
    by decide +kernel

theorem witness_CommandsReachTheirChapters_read : (mounted).admits opRead (ci 5 0 1 0 0) = true := by decide +kernel

theorem witness_CommandsReachTheirChapters_stream : (mounted).admits opStream (ci 5 0 0 8 0) = true :=
    by decide +kernel

theorem witness_CommandsReachTheirChapters_stop : (mounted).admits opStop (ci 5 0 0 1 0) = true := by decide +kernel

theorem witness_CommandsReachTheirChapters_verify : (mounted).admits opVerify (ci 5 0 1 0 0) = true :=
    by decide +kernel

theorem witness_CommandsReachTheirChapters_write : (mounted).admits opWrite (ci 5 0 16 0 0) = true :=
    by decide +kernel

theorem witness_CommandsReachTheirChapters_discardz : (mounted).admits opDiscardZ (ci 5 0 16 0 0) = true :=
    by decide +kernel

theorem witness_CommandsReachTheirChapters_discardh : (mounted).admits opDiscardH (ci 5 0 16 0 0) = true :=
    by decide +kernel

theorem witness_CommandsReachTheirChapters_land : (mounted).admits opLand (ci 5 0x100010 0 8 0) = true :=
    by decide +kernel

theorem witness_CommandsReachTheirChapters_rollback : (mounted).admits opRollback (ci 5 0x100010 0 7 0) = true :=
    by decide +kernel

theorem witness_CommandsReachTheirChapters_service : (mounted).admits opService (ci 5 0x100010 0 64 1) = true :=
    by decide +kernel

theorem witness_CommandsReachTheirChapters_quiet : (mounted).admits opQuiet (ci 5 0x100010 0 64 0) = true :=
    by decide +kernel

theorem witness_CommandsReachTheirChapters_mount : (ready).admits opMount (ci 5 0 0 0 0) = true := by decide +kernel

theorem witness_CommandsReachTheirChapters_close : (closed).admits opClose (ci 5 0 0 1 0) = true := by decide +kernel

theorem witness_CommandsReachTheirChapters_inquire : (mounted).admits opInquire (ci 5 0 0 7 0) = true :=
    by decide +kernel

theorem witness_CommandsReachTheirChapters_forceclose :
    frameCheckOrderLengthCard.admits opForceClose (dci 5 0) = true := by decide +kernel

theorem witness_CommandsReachTheirChapters_format : closeRulesForceReadyCard.admits opFormat (dci 5 0) = true :=
    by decide +kernel

theorem witness_CommandsReachTheirChapters_sanitize : dockCommandsSanitizeCard.admits opSanitize (dci 5 0) = true :=
    by decide +kernel

theorem witness_CommandsReachTheirChapters_alcoveload :
    dockCommandsSanitizeCard.admits opAlcoveLoad ({ dci 5 0 with ext := some [1, 2, 3, 4] }) = true :=
    by decide +kernel

theorem witness_CommandsReachTheirChapters_alcoveswap :
    dockCommandsSanitizeCard.admits opAlcoveSwap (dci 5 0) = true := by decide +kernel

theorem witness_CommandsReachTheirChapters_unlisted : listed 0x7F = false ∧ mounted.receives .ci = true ∧
    lengthOk (ci 5 0 1 0 0) = true ∧ mounted.tagOpen (ci 5 0 1 0 0) = true := by decide +kernel

theorem witness_OneFinalResponse :
    retrainRuleReadCard.tagEntry 5 = some (entry .ci opRead (.outstanding (.read { sector := 0, count := 1, view := true, pieces := [{ bay := 0, src := .at 0, val := .waiting, weak := false }] }))) ∧
    retrainRuleReadCard.portUp .ci = true ∧ mounted.cmdOf 4 = none := by decide +kernel

theorem witness_OneFinalResponse_write :
    (withCmd retrainRuleReadCard 6 opWrite (.write waiting)).cmdOf 6 = some (.write waiting) := by decide +kernel

theorem witness_UnlistedOpcodeAnswered : listed 0x7F = false ∧ mounted.receives .ci = true ∧
    lengthOk (ci 5 0 1 0 0) = true ∧ mounted.tagOpen (ci 5 0 1 0 0) = true := by decide +kernel

theorem witness_RangeAndNoLinkAnswers_count : mounted.admits opRead (ci 5 0 0 0 0) = true ∧
    mounted.admits opWrite (ci 5 0 641 0 0) = true ∧ 640 < (641#10).toNat := by decide +kernel

theorem witness_RangeAndNoLinkAnswers_end : 16 * mounted.capacity = 3523215360 ∧
    mounted.admits opDiscardH (ci 5 3523215360 1 0 0) = true := by decide +kernel

theorem witness_RangeAndNoLinkAnswers_inside : mounted.rangeOk (ci 5 3523215359 1 0 0) = true := by decide +kernel

theorem witness_RangeAndNoLinkAnswers_stream : mounted.admits opStream (ci 5 3523215350 0 11 0) = true ∧
    16 * mounted.capacity < (3523215350#32).toNat + (11#32).toNat := by decide +kernel

theorem witness_RangeAndNoLinkAnswers_no_link_read : rangeAndNoLinkReadCard.link.mode ≠ .up ∧
    rangeAndNoLinkReadCard.rangeOk (ci 5 0 1 0 0) = true ∧ rangeAndNoLinkReadCard.admits opRead (ci 5 0 1 0 0) = true :=
    by decide +kernel

theorem witness_RangeAndNoLinkAnswers_no_link_write : rangeAndNoLinkReadCard.admits opWrite (ci 5 0 16 0 0) = true ∧
    (rangeAndNoLinkReadCard.accept opWrite (ci 5 0 16 0 0) .timed).writeRefusal opWrite (ci 5 0 16 0 0) = none :=
    by decide +kernel

theorem witness_RangeAndNoLinkAnswers_no_link_inquire : rangeAndNoLinkReadCard.admits opInquire (ci 5 0 0 0 0) = true ∧
    rangeAndNoLinkReadCard.link.hold = false := by decide +kernel

theorem witness_RangeAndNoLinkAnswers_no_link_stream :
    rangeAndNoLinkReadCard.admits opStream (ci 5 10 0 8 0) = true ∧ 10 + 8 ≤ 16 * rangeAndNoLinkReadCard.capacity := by
  decide +kernel

theorem witness_ReadAndVerify_unmapped : mounted.admits opRead (ci 5 16 1 0 1) = true ∧ mounted.link.mode = .up ∧
    mounted.rangeOk (ci 5 16 1 0 1) = true ∧ (∀ b ∈ baysOf 16 1, mounted.resolve true b = .none) := by decide +kernel

theorem witness_ReadAndVerify_mapped : oneBay.admits opRead (ci 5 0 1 0 1) = true ∧
    oneBay.rangeOk (ci 5 0 1 0 1) = true ∧
    ((oneBay.piecesOf true (baysOf 0 1)).map (oneBay.prefetch false)).all Piece.ready = false := by decide +kernel

theorem witness_ReadAndVerify_ready :
    let c := { oneBay with media := { oneBay.media with vest := [(0, dataBay 0 0)] } }
    c.admits opRead (ci 5 0 1 0 1) = true ∧
    ((c.piecesOf true (baysOf 0 1)).map (c.prefetch false)).all Piece.ready = true := by decide +kernel

theorem witness_ReadAndVerify_lost :
    let c := withDie oneBay 0 { Die.idle with fenced := true }
    let w : ReadWork := { sector := 0, count := 1, view := true,
                          pieces := (c.piecesOf true (baysOf 0 1)).map (c.prefetch false) }
    c.admits opRead (ci 5 0 1 0 1) = true ∧ w.ready = true ∧ w.lostAt = some 0 := by decide +kernel

theorem witness_ReadAndVerify_verify : mounted.admits opVerify (ci 5 16 17 0 1) = true ∧
    mounted.rangeOk (ci 5 16 17 0 1) = true := by decide +kernel

theorem witness_StreamRule_opens : mounted.admits opStream (ci 5 10 0 700 1) = true ∧ mounted.link.mode = .up ∧
    10 + 700 ≤ 16 * mounted.capacity := by decide +kernel

theorem witness_StreamRule_more :
    streamRuleMoreCard.cmdOf 5 = some (.stream (let ps := (mounted.piecesOf true (baysOf 10 20)).map (mounted.prefetch false); ({ view := true, next := 10, stop := 40, sent := 2, zeros := false, cur := { sector := 10, count := 20, view := true, pieces := ps } } : StreamWork))) ∧
    (let ps := (mounted.piecesOf true (baysOf 10 20)).map (mounted.prefetch false); ({ view := true, next := 10, stop := 40, sent := 2, zeros := false, cur := { sector := 10, count := 20, view := true, pieces := ps } } : StreamWork)).cur.ready = true ∧
    streamRuleMoreCard.sourcesNow (let ps := (mounted.piecesOf true (baysOf 10 20)).map (mounted.prefetch false); ({ view := true, next := 10, stop := 40, sent := 2, zeros := false, cur := { sector := 10, count := 20, view := true, pieces := ps } } : StreamWork)) = (let ps := (mounted.piecesOf true (baysOf 10 20)).map (mounted.prefetch false); ({ view := true, next := 10, stop := 40, sent := 2, zeros := false, cur := { sector := 10, count := 20, view := true, pieces := ps } } : StreamWork)).cur.pieces.map Piece.src ∧
    (let ps := (mounted.piecesOf true (baysOf 10 20)).map (mounted.prefetch false); ({ view := true, next := 10, stop := 40, sent := 2, zeros := false, cur := { sector := 10, count := 20, view := true, pieces := ps } } : StreamWork)).cur.lostAt = none :=
    by decide +kernel

theorem witness_StreamRule_last :
    streamRuleLastCard.cmdOf 5 = some (.stream (let ps := (mounted.piecesOf true (baysOf 10 20)).map (mounted.prefetch false); ({ view := true, next := 10, stop := 30, sent := 2, zeros := false, cur := { sector := 10, count := 20, view := true, pieces := ps } } : StreamWork))) ∧
    (let ps := (mounted.piecesOf true (baysOf 10 20)).map (mounted.prefetch false); ({ view := true, next := 10, stop := 30, sent := 2, zeros := false, cur := { sector := 10, count := 20, view := true, pieces := ps } } : StreamWork)).cur.ready = true ∧
    streamRuleLastCard.sourcesNow (let ps := (mounted.piecesOf true (baysOf 10 20)).map (mounted.prefetch false); ({ view := true, next := 10, stop := 30, sent := 2, zeros := false, cur := { sector := 10, count := 20, view := true, pieces := ps } } : StreamWork)) = (let ps := (mounted.piecesOf true (baysOf 10 20)).map (mounted.prefetch false); ({ view := true, next := 10, stop := 30, sent := 2, zeros := false, cur := { sector := 10, count := 20, view := true, pieces := ps } } : StreamWork)).cur.pieces.map Piece.src ∧
    (let ps := (mounted.piecesOf true (baysOf 10 20)).map (mounted.prefetch false); ({ view := true, next := 10, stop := 30, sent := 2, zeros := false, cur := { sector := 10, count := 20, view := true, pieces := ps } } : StreamWork)).cur.lostAt = none :=
    by decide +kernel

theorem witness_StreamRule_lost :
    streamRuleLostCard.cmdOf 5 = some (.stream ({ view := true, next := 10, stop := 40, sent := 2, zeros := false, cur := { sector := 10, count := 20, view := true, pieces := [{ bay := 0, src := .zero, val := .waiting, weak := false }, { bay := 1, src := .at 16, val := .lost, weak := false }] } } : StreamWork)) ∧
    ({ view := true, next := 10, stop := 40, sent := 2, zeros := false, cur := { sector := 10, count := 20, view := true, pieces := [{ bay := 0, src := .zero, val := .waiting, weak := false }, { bay := 1, src := .at 16, val := .lost, weak := false }] } } : StreamWork).cur.ready = true ∧
    streamRuleLostCard.sourcesNow ({ view := true, next := 10, stop := 40, sent := 2, zeros := false, cur := { sector := 10, count := 20, view := true, pieces := [{ bay := 0, src := .zero, val := .waiting, weak := false }, { bay := 1, src := .at 16, val := .lost, weak := false }] } } : StreamWork) = ({ view := true, next := 10, stop := 40, sent := 2, zeros := false, cur := { sector := 10, count := 20, view := true, pieces := [{ bay := 0, src := .zero, val := .waiting, weak := false }, { bay := 1, src := .at 16, val := .lost, weak := false }] } } : StreamWork).cur.pieces.map Piece.src ∧
    ({ view := true, next := 10, stop := 40, sent := 2, zeros := false, cur := { sector := 10, count := 20, view := true, pieces := [{ bay := 0, src := .zero, val := .waiting, weak := false }, { bay := 1, src := .at 16, val := .lost, weak := false }] } } : StreamWork).cur.lostAt = some 6 :=
    by decide +kernel

theorem witness_StreamRule_hclk : streamRuleMoreCard.power.hclk = true ∧ streamRuleMoreCard.link.mode = .up := by
  decide +kernel

theorem witness_StopRule_stream : streamRuleMoreCard.admits opStop (ci 6 0 0 5 0) = true ∧
    (streamRuleMoreCard.cmdOf 5).isSome = true := by decide +kernel

theorem witness_StopRule_none : mounted.admits opStop (ci 6 0 0 5 0) = true ∧ mounted.cmdOf 5 = none :=
    by decide +kernel

/-- A stream that an HCLK absence has cut. -/
def cutStreamCard : Card :=
  let c := withCmd mounted 5 opStream .timed
  { c with link := { c.link with owed := [{ tag := 5, mask := 15, cause := 5, z := false }] } }

theorem witness_StopRule_cut : cutStreamCard.admits opStop (ci 6 0 0 5 0) = true ∧ cutStreamCard.cutStream 5 = true ∧
    cutStreamCard.cmdOf 5 = some .timed ∧ mounted.cutStream 5 = false := by decide +kernel

theorem witness_WriteRule_accepted : mounted.admits opWrite (ci 5 8 16 0 0) = true ∧ mounted.link.mode = .up ∧
    (mounted.accept opWrite (ci 5 8 16 0 0) .timed).writeRefusal opWrite (ci 5 8 16 0 0) = none := by decide +kernel

theorem witness_WriteRule_go : writeRuleGoCard.cmdOf 5 = some (.write waiting) ∧
    writeRuleGoCard.mayGo waiting = true := by decide +kernel

theorem witness_WriteRule_hclk : writeRuleGoCard.power.hclk = true ∧ writeRuleDelayedCard.power.hclk = true ∧
    ({ mounted with power := { mounted.power with hclk := false } }).power.hclk = false := by decide +kernel

theorem witness_WriteRule_delayed : writeRuleDelayedCard.cmdOf 5 = some (.write { waiting with delayed := true }) ∧
    writeRuleDelayedCard.earlierShares 1 16 16 = false := by decide +kernel

theorem witness_WriteRule_shares : writeRuleSharesCard.earlierShares 2 16 16 = true := by decide +kernel

theorem witness_WriteRule_merges : writeRuleMergesCard.earlierShares 1 8 16 = false ∧
    ({ waiting with delayed := true, sector := 8, stage := .data } : WriteWork).mergesIssued = false :=
    by decide +kernel

theorem witness_DiscardZRule : mounted.admits opDiscardZ (ci 5 16 32 0 0) = true ∧
    (mounted.accept opDiscardZ (ci 5 16 32 0 0) .timed).writeRefusal opDiscardZ (ci 5 16 32 0 0) = none ∧
    partBays 16 32 = [] := by decide +kernel

theorem witness_DiscardZRule_placed :
    let c := mounted.accept opDiscardZ (ci 5 16 32 0 0) .timed
    let v := c.newWrite (ci 5 16 32 0 0) true
    v.delayed = false ∧ ((c.setWrite 5 v).pumpAll.placeNew false (newBay .discard 0 0 0 (.discard
      [{ first := 16, count := 32, ord := 0, seq := 0 }]))).2.isSome = true := by decide +kernel

theorem witness_DiscardZRule_waits :
    let c := (withCmd mounted 9 opWrite (.write hoarder)).accept opDiscardZ (ci 5 16 32 0 0) .timed
    let v := c.newWrite (ci 5 16 32 0 0) true
    c.writeRefusal opDiscardZ (ci 5 16 32 0 0) = none ∧ v.delayed = false ∧
    ((c.setWrite 5 v).pumpAll.placeNew false (newBay .discard 0 0 0 (.discard
      [{ first := 16, count := 32, ord := 0, seq := 0 }]))).2 = none := by decide +kernel

theorem witness_DiscardZRule_delayed :
    let d := withCmd mounted 9 opWrite (.write waiting)
    let c := { d with ports := { d.ports with order := 2 } }.accept opDiscardZ (ci 5 16 32 0 0) .timed
    c.writeRefusal opDiscardZ (ci 5 16 32 0 0) = none ∧ (c.newWrite (ci 5 16 32 0 0) true).delayed = true := by
  decide +kernel

theorem witness_DiscardZRule_part :
    let c := oneBay.accept opDiscardZ (ci 5 8 8 0 0) .timed
    let c1 := (c.setWrite 5 (c.newWrite (ci 5 8 8 0 0) true)).pumpAll
    c.writeRefusal opDiscardZ (ci 5 8 8 0 0) = none ∧ (c.newWrite (ci 5 8 8 0 0) true).delayed = false ∧
    partBays 8 8 = [0] ∧ ((partBays 8 8).map c1.mergePiece).all Piece.ready = false := by decide +kernel

theorem witness_DiscardZRule_part_ready :
    let c := mounted.accept opDiscardZ (ci 5 8 8 0 0) .timed
    let v := c.newWrite (ci 5 8 8 0 0) true
    let c1 := (c.setWrite 5 v).pumpAll
    let ps := (partBays 8 8).map c1.mergePiece
    let w := { v with mergesIssued := true, merges := ps }
    v.delayed = false ∧ ps.all Piece.ready = true ∧ (∀ p ∈ ps, p.val ≠ .lost) ∧
    (((c1.setWrite 5 w).placeWrite 5 w ((w.toProgram c.dataKey).map Prod.snd)).map (fun x => x.2.length)) = some 2 := by
  decide +kernel

theorem witness_DiscardHRule : oneBay.admits opDiscardH (ci 5 0 16 0 0) = true ∧
    (oneBay.accept opDiscardH (ci 5 0 16 0 0) .timed).writeRefusal opDiscardH (ci 5 0 16 0 0) = none :=
    by decide +kernel

theorem witness_WriteAppliedAtOk :
    (withCmd mounted 5 opWrite (.write { waiting with stage := .programming, bays := [{ bay := some 1, key := 16, done := true }] })).cmdOf 5 = some (.write { waiting with stage := .programming, bays := [{ bay := some 1, key := 16, done := true }] }) ∧
    ({ waiting with stage := .programming, bays := [{ bay := some 1, key := 16, done := true }] } : WriteWork).inlineDone = true ∧
    mounted.flights.acts = [] := by decide +kernel

theorem witness_WriteAppliedAtOk_due : mounted.flights.due = [] ∧ waiting.landAfter = none := by decide +kernel

theorem witness_WriteAppliedAtOk_discard :
    (let w : WriteWork := { waiting with discard := true, stage := .programming, bays := [{ bay := none, key := 16, done := true }] }
     (withCmd mounted 5 opDiscardZ (.write w)).cmdOf 5 = some (.write w) ∧ w.inlineDone = true) ∧
    wholeBays 16 16 = [1] := by decide +kernel

theorem witness_WriteAppliedAtOk_bays :
    let w : WriteWork := { waiting with sector := 8, count := 16 }
    (w.toProgram none).map Prod.fst = [some 0, some 1] ∧ w.covers 8 = true ∧ w.covers 7 = false ∧ w.discard = false := by
  decide +kernel

theorem witness_WriteAppliedAtOk_two_bays :
    let bs : List BayWork := [{ bay := some 0, key := 16, done := true }, { bay := some 1, key := 17, done := true }]
    (∀ x ∈ bs, ∀ y ∈ bs, y.bay = x.bay → y.key = x.key) ∧ (∀ x ∈ bs, x.bay ≠ some 2) ∧ 1 ∉ wholeBays 8 16 := by
  decide +kernel

theorem witness_TimedCommands_land : mounted.admits opLand (ci 5 0x100010 0 8 0) = true ∧
    treadNotPast (nameTread 0x100010 mounted.treads.c) mounted.treads.c = true ∧
    treadAhead (nameTread 0x100010 mounted.treads.c) mounted.treads.c = 16 ∧ mounted.flights.held = none ∧
    mounted.landAfterOut = false ∧ mounted.landingOk 8 = true := by decide +kernel

theorem witness_TimedCommands_late : frameCheckOrderLengthCard.admits opLand (ci 5 0xFFC00 0 8 0) = true ∧
    treadNotPast (nameTread 0xFFC00 mounted.treads.c) mounted.treads.c = false ∧
    treadAhead mounted.treads.c (nameTread 0xFFC00 mounted.treads.c) = 1024 := by decide +kernel

theorem witness_TimedCommands_tooLate : mounted.admits opLand (ci 5 0xFFBFF 0 8 0) = true ∧
    treadAhead mounted.treads.c (nameTread 0xFFBFF mounted.treads.c) = 1025 := by decide +kernel

theorem witness_TimedCommands_range : mounted.admits opLand (ci 5 0x1100001 0 8 0) = true ∧
    treadAhead (nameTread 0x1100001 mounted.treads.c) mounted.treads.c = 2 ^ 24 + 1 := by decide +kernel

theorem witness_TimedCommands_stale : timedCommandsStaleCard.landingOk 8 = false ∧
    timedCommandsStaleCard.admits opLand (ci 5 0x100010 0 8 0) = true := by decide +kernel

theorem witness_TimedCommands_blocked : timedCommandsBlockedCard.flights.held.isSome = true ∧
    timedCommandsBlockedCard.admits opLand (ci 6 0x100010 0 10 0) = true := by decide +kernel

theorem witness_TimedCommands_rollback : timedCommandsRollbackCard.admits opRollback (ci 5 0x100010 0 7 0) = true ∧
    timedCommandsRollbackCard.rollbackOk 7 = true ∧ timedCommandsRollbackCard.landAfterOut = false :=
    by decide +kernel

theorem witness_TimedCommands_notLast : timedCommandsRollbackCard.rollbackOk 6 = false := by decide +kernel

theorem witness_TimedCommands_service : mounted.admits opService (ci 5 0x100010 0 64 1) = true ∧
    mounted.windowFits { seq := 1, quiet := false, kinds := 1, start := 0x100010, duration := 64, began := 0 } = true := by decide +kernel

theorem witness_TimedCommands_short : mounted.admits opQuiet (ci 5 0x100010 0 63 0) = true := by decide +kernel

theorem witness_TimedCommands_overlap : timedCommandsOverlapCard.admits opQuiet (ci 5 0x100020 0 64 0) = true ∧
    timedCommandsOverlapCard.windowFits { seq := 0, quiet := true, kinds := 0, start := 0x100020, duration := 64, began := 0 } = false :=
    by decide +kernel

theorem witness_MountRule_profile : ready.admits opMount (ci 5 0 0 0 0) = true ∧ ready.profile.isSome = true :=
    by decide +kernel

theorem witness_MountRule_none : mountRuleNoneCard.admits opMount (ci 5 0 0 0 0) = true ∧
    mountRuleNoneCard.profile = none := by decide +kernel

theorem witness_MountRule_ends : mountRuleEndsCard.phase = .mounting ∧ mountRuleEndsCard.power.hclk = true ∧
    mountRuleEndsCard.straps.reading = none ∧
    mountRuleEndsCard.mounting = some (5, entry .ci opMount (.outstanding (.mount true)), true) := by decide +kernel

theorem witness_MountRule_reset :
    let c := { mountRuleEndsCard with halls := { mountRuleEndsCard.halls with
      resets := [(0, { hung := 0, again := [], redrive := [] })] } }
    c.halls.resets ≠ [] ∧ c.phase = .mounting ∧ mountRuleEndsCard.halls.resets = [] := by decide +kernel

theorem witness_MountRule_scan : mountRuleEndsCard.phase = .mounting := by decide +kernel

theorem witness_CloseRules_again : closed.admits opClose (ci 5 0 0 1 0) = true ∧ closed.phase = .closed :=
    by decide +kernel

theorem witness_CloseRules_blocked : timedCommandsBlockedCard.admits opClose (ci 6 0 0 1 0) = true ∧
    timedCommandsBlockedCard.phase = .mounted := by decide +kernel

theorem witness_CloseRules_discard : oneBay.admits opClose (ci 5 0 0 0 1) = true ∧ oneBay.outstanding = [] ∧
    oneBay.flights.acts = [] := by decide +kernel

theorem witness_CloseRules_empty : mounted.admits opClose (ci 5 0 0 1 0) = true ∧ mounted.openEmpty = true :=
    by decide +kernel

theorem witness_CloseRules_stale : closeRulesStaleCard.openEmpty = false ∧ closeRulesStaleCard.closeAhead 8 = false :=
    by decide +kernel

theorem witness_CloseRules_landing : closeRulesStaleCard.closeAhead 9 = true ∧
    closeRulesStaleCard.admits opClose (ci 5 0 0 9 0) = true := by decide +kernel

theorem witness_CloseRules_force : closeRulesForceCard.admits opForceClose (dci 6 0) = true ∧
    closeRulesForceCard.phase ≠ .readyUnmounted ∧
    ((closeRulesForceCard.tagEntry 5).map TagEntry.aborted) = some true := by decide +kernel

theorem witness_CloseRules_force_z : closeRulesForceCard.phase = .mounted ∧ closeRulesForceCard.portUp .ci = true := by
  decide +kernel

theorem witness_CloseRules_forceReady : closeRulesForceReadyCard.admits opForceClose (dci 6 0) = true :=
    by decide +kernel

theorem witness_InquireRule_ci : mounted.admits opInquire (ci 5 0 0 3 0) = true ∧ mounted.link.hold = false :=
    by decide +kernel

theorem witness_InquireRule_held : inquireRuleHeldCard.admits opInquire (ci 5 0 0 3 0) = true := by decide +kernel

theorem witness_InquireRule_dci : frameCheckOrderLengthCard.admits opInquire (dci 5 1) = true := by decide +kernel

theorem witness_InquireRule_deferred : (withCmd mounted 5 opInquire (.inquire 0)).cmdOf 5 = some (.inquire 0) ∧
    mounted.link.hold = false ∧ mounted.power.hclk = true := by decide +kernel

theorem witness_DockCommands_format : closeRulesForceReadyCard.admits opFormat (dci 5 0) = true := by decide +kernel

theorem witness_DockCommands_sanitize : dockCommandsSanitizeCard.admits opSanitize (dci 5 0) = true ∧
    dockCommandsSanitizeCard.record.isSome = true := by decide +kernel

theorem witness_DockCommands_load :
    dockCommandsSanitizeCard.admits opAlcoveLoad ({ dci 5 0 with sector := 0x10000, ext := some [1, 2, 3, 4] } : Frame) = true ∧
    loadRange 0x10000 4 false = true ∧ closed.alcove.target = .b := by decide +kernel

theorem witness_DockCommands_loadRange : loadRange 8 4 false = false ∧ loadRange 4 4 false = true ∧
    loadRange 16 4 true = false ∧ loadRange 0x50FFFC 4 false = true ∧ loadRange 0x50FFFD 4 false = false :=
    by decide +kernel

theorem witness_DockCommands_swap : dockCommandsSwapCard.admits opAlcoveSwap (dci 5 0) = true ∧
    dockCommandsSwapCard.alcove.target = .a ∧ dockCommandsSwapCard.swapSeq = some 2 ∧
    Mem.bytes dockCommandsSwapCard.alcove.memA 0 8 = alcoveMagic ∧ dockCommandsSwapCard.alcove.memA.lengthsOk = true ∧
    dockCommandsSwapCard.alcove.memA.sectionsOk = true ∧
    Mem.bytes dockCommandsSwapCard.alcove.memA 8 8 = List.replicate 8 0xFF := by decide +kernel

theorem witness_DockCommands_swapBad : dockCommandsSanitizeCard.admits opAlcoveSwap (dci 5 0) = true ∧
    Mem.bytes (closed.alcove.mem closed.alcove.target) 0 8 ≠ alcoveMagic := by decide +kernel

theorem witness_DockCommands_swapDone : dockCommandsSwapDoneCard.swapSeq = some 1 ∧
    Mem.bytes dockCommandsSwapDoneCard.alcove.memA 8 8 = seqField 1 := by decide +kernel

theorem witness_DockCommands_swap_ops : dockCommandsSwapCard.alcove.ops = [] ∧
    ({ dockCommandsSwapCard.alcove with ops := [.eraseSector .a 0] } : Alcove).ops ≠ [] := by decide +kernel

theorem witness_SyncTreadMessages_set : frameCheckOrderLengthCard.hearsSync = true ∧
    mounted.addressed (msg 77 0) = true ∧ mounted.treads.lastMsg ≠ some (syncTypeSet, msg 77 0) := by decide +kernel

theorem witness_SyncTreadMessages_dropped : training.hearsSync = true := by decide +kernel

theorem witness_SyncTreadMessages_check : treadDiff mounted.treads.c 0x100002 = -2 ∧
    treadDiff mounted.treads.c 0xFFFFF = 1 := by decide +kernel

theorem witness_SyncTreadMessages_near : treadDiff mounted.treads.c 0x100001 = -1 := by decide +kernel

theorem witness_SyncEffects_outside : ready.hearsSync = true ∧ ready.phase ≠ .mounted ∧
    ready.addressed (msg 0x100010 8) = true := by decide +kernel

theorem witness_SyncEffects_land : mounted.landingOk 8 = true ∧ treadNotPast 0x100010 mounted.treads.c = true ∧
    mounted.hearsSync = true := by decide +kernel

theorem witness_SyncEffects_rollback : timedCommandsRollbackCard.rollbackOk 7 = true := by decide +kernel

theorem witness_SyncEffects_service :
    mounted.windowFits { seq := 1, quiet := false, kinds := 1, start := 0x100010, duration := 64, began := 0 } = true := by decide +kernel

theorem witness_SyncEffects_short : (0x100003E#32).toNat % 2 ^ 24 + 1 < 64 := by decide +kernel

theorem witness_SyncEffects_quiet : (63#32).toNat < 2 ^ 24 := by decide +kernel

theorem witness_SyncEffects_mark : mounted.flights.marks.length < 8 := by decide +kernel

theorem witness_SyncEffects_ninth : ¬ syncEffectsNinthCard.flights.marks.length < 8 := by decide +kernel

theorem witness_SyncEffects_late : treadNotPast 0xFFC00 mounted.treads.c = false ∧
    treadAhead mounted.treads.c 0xFFC00 = 1024 := by decide +kernel

theorem witness_SyncEffects_repeat : syncEffectsRepeatCard.treads.lastMsg = some (syncTypeMark, msg 0x100010 9) ∧
    syncFieldsOk syncTypeMark (msg 0x100010 9) = true := by decide +kernel

theorem witness_SyncEffects_taking : syncEffectsRepeatCard.treads.taking = none ∧
    frameCheckOrderLengthCard.treads.taking = none := ⟨rfl, rfl⟩

theorem witness_SyncEffects_other : mounted.addressed { msg 0x100010 9 with kind := 2, addr := 5 } = false :=
    by decide +kernel

theorem witness_SyncEffects_last : frameCheckOrderLengthCard.treads.lastMsg = none := by decide +kernel

theorem witness_SyLineIsJudged_char : mounted.hearsSync = true ∧ mounted.treads.rx = .rest ∧
    (charLine 0x7E).length = 160 := by decide +kernel

theorem witness_SyLineIsJudged_false_start :
    let rx : SyRx := { idle := 0, char := some { cycle := 6, fromIdle := true, bits := 0 }, msg := none, since := 0 }
    ({ mounted with treads := { mounted.treads with rx := rx } }).treads.rx.char =
      some { cycle := 6, fromIdle := true, bits := 0 } := by decide +kernel

theorem witness_SyLineIsJudged_gap :
    let rx : SyRx := { idle := 47, char := none, msg := some [0x7E], since := 47 }
    rx.char = none ∧ rx.msg = some [0x7E] ∧ 48 ≤ rx.since + 1 := by decide +kernel

theorem witness_SyLineIsJudged_framing :
    let rx : SyRx := { idle := 0, char := some { cycle := 150, fromIdle := false, bits := 4 }, msg := some [0x7E], since := 0 }
    rx.char = some { cycle := 150, fromIdle := false, bits := 4 } ∧ rx.msg = some [0x7E] ∧
    frameCheckOrderLengthCard.power.dock = true ∧ frameCheckOrderLengthCard.bal.queue.length < 480 := by decide +kernel

theorem witness_SyLineIsJudged_ends :
    let good := syncBytes syncTypeMark (msg 0x100010 9)
    let badField := syncBytes syncTypeMark { msg 0x100010 9 with kind := 1, addr := 16 }
    (good.take 17).length = 17 ∧ leNat (good.drop 16) = (crc16 (good.take 16)).toNat ∧ syncBytesOk good = true ∧
    leNat (badField.drop 16) = (crc16 (badField.take 16)).toNat ∧ syncBytesOk badField = false ∧
    leNat ((good.take 17 ++ [0]).drop 16) ≠ (crc16 ((good.take 17 ++ [0]).take 16)).toNat := by decide +kernel

theorem witness_SyLineIsJudged_taking :
    let c := { mounted with treads := { mounted.treads with taking := some (3, syncBytes syncTypeMark (msg 0x100010 9)) } }
    c.treads.taking = some (3, syncBytes syncTypeMark (msg 0x100010 9)) ∧ c.treads.rx = .rest ∧ c.hearsSync = true ∧
    mounted.treads.taking = none := by decide +kernel

theorem witness_SyncBytesRoundTrip : syncTypeLand ∈ syncTypes ∧
    syncFieldsOk syncTypeLand { seq := 9, kind := 2, addr := 0xFFF, tread := 0xFFFFFFFFFFFF, arg := 0xFFFFFFFF } = true :=
    by decide +kernel

theorem witness_LandingActions_execute : landingActionsExecuteCard.phase = .mounted ∧
    landingActionsExecuteCard.flights.held = some { rollback := false, tread := 0x100000, flight := 8, src := .cmd 5 } ∧
    landingActionsExecuteCard.firstOfTread = true ∧ landingActionsExecuteCard.flights.acts = [] ∧
    landingActionsExecuteCard.unhold.landingOk 8 = true := by decide +kernel

theorem witness_LandingActions_stale : landingActionsStaleCard.unhold.landingOk 7 = false := by decide +kernel

theorem witness_LandingActions_issue : landingActionsIssueCard.flights.acts = [act false .completing] ∧
    landingActionsIssueCard.mayIssue (act false .completing) = true ∧ (281250#24).toNat ≤ 281250 ∧
    (landingActionsIssueCard.placeNew false (newBay .landing 0 0 0 (.landing (landingActionsIssueCard.landingRec (act false .completing))))).2.isSome = true :=
    by decide +kernel

theorem witness_LandingActions_issueLate : 281250 < (281251#24).toNat := by decide +kernel

theorem witness_LandingActions_cutoff : landingActionsIssueCard.straps.role = .solo ∧
    landingActionsIssueCard.twin.waits = [] ∧ landingActionsIssueCard.flights.held = none ∧
    landingActionsIssueCard.cmdOf 5 = some .timed ∧ (act false .completing).stage = .completing := by decide +kernel

theorem witness_RollbackAndMarkActions_execute : rollbackAndMarkActionsExecuteCard.phase = .mounted ∧
    rollbackAndMarkActionsExecuteCard.flights.held = some { rollback := true, tread := 0x100000, flight := 7, src := .cmd 5 } ∧
    rollbackAndMarkActionsExecuteCard.firstOfTread = true ∧ rollbackAndMarkActionsExecuteCard.rollbackOk 7 = true ∧
    rollbackAndMarkActionsExecuteCard.cmdOf 9 = some (.write waiting) := by decide +kernel

theorem witness_RollbackAndMarkActions_issue :
    rollbackAndMarkActionsIssueCard.mayIssue (act true .completing) = true ∧
    rollbackAndMarkActionsIssueCard.rollbackOk 7 = true ∧
    rollbackAndMarkActionsIssueCard.flights.last = some (landed 7) ∧
    ((rollbackAndMarkActionsIssueCard.rollCommands (act true .completing)).placeNew false (newBay .rollback 0 0 0 (.rollback ((rollbackAndMarkActionsIssueCard.rollCommands (act true .completing)).rollbackRec (act true .completing) (landed 7))))).2.isSome = true :=
    by decide +kernel

theorem witness_RollbackAndMarkActions_stale : rollbackAndMarkActionsStaleCard.rollbackOk 7 = false ∧
    rollbackAndMarkActionsStaleCard.mayIssue (act true .completing) = true := by decide +kernel

theorem witness_RollbackAndMarkActions_cutoff :
    rollbackAndMarkActionsIssueCard.flights.acts = [act true .completing] := by decide +kernel

theorem witness_RollbackAndMarkActions_mark :
    rollbackAndMarkActionsMarkCard.flights.marks.find? (fun x : HeldMark => x.tread == mounted.treads.c) = some { seq := 1, tread := 0x100000, value := 5 } ∧
    rollbackAndMarkActionsMarkCard.maint.running = [] ∧
    (mounted.placeNew false (newBay .mark 0 0 0 (.mark 5 0x100000))).2.isSome = true := by decide +kernel

theorem witness_RollbackAndMarkActions_mark_waits :
    let c := withCmd mounted 9 opWrite (.write hoarder)
    (c.placeNew false (newBay .mark 0 0 0 (.mark 5 0x100000))).2 = none ∧ c.windowEnding = false := by decide +kernel

theorem witness_WindowsRun_start : windowsRunStartCard.phase = .mounted ∧ windowsRunStartCard.maint.running = [] ∧
    windowsRunStartCard.flights.held = none ∧
    windowsRunStartCard.maint.held.find? (fun x => x.start == mounted.treads.c) = some (window false 1 0x100000) :=
    by decide +kernel

theorem witness_WindowsRun_end : windowsRunEndCard.maint.running = [window false 1 0x100000] := by decide +kernel

theorem witness_WindowsRun_end_tread :
    [({ window false 1 0x100000 with duration := 0 } : Window)].find? (fun x => x.stop == mounted.treads.c) =
      some { window false 1 0x100000 with duration := 0 } ∧ windowsRunEndCard.windowEnding = false ∧
    windowsRunStartCard.windowEnding = false ∧ windowsRunStartCard.flights.marks = [] := by decide +kernel

theorem witness_WindowsRun_first_over :
    let a : Window := { window false 1 0x100000 with began := 9 }
    let b : Window := window true 0 0x500000
    ({ mounted with maint := { mounted.maint with running := [a, b] } }).firstOver = some b := by decide +kernel

theorem witness_BaysOfActionsLand_landing :
    baysOfActionsLandLandingCard.flights.acts = [{ act false (.issued 16) with src := .sync 1 }] ∧
    baysOfActionsLandLandingCard.straps.role = .solo ∧ baysOfActionsLandLandingCard.twin.waits = [] ∧
    baysOfActionsLandLandingCard.flights.held = none ∧
    baysOfActionsLandLandingCard.views.changes = [{ ord := 0, bay := 3, loc := .at 48, mask := 0xFFFF }] := by decide +kernel

theorem witness_BaysOfActionsLand_rollback :
    let c := { baysOfActionsLandLandingCard with flights := { baysOfActionsLandLandingCard.flights with
      acts := [{ act true (.issued 16) with src := .sync 1 }], last := some (landed 7), before := some (landed 6) } }
    let a := { act true .completing with src := .sync 1 }
    c.flights.due = [] ∧ c.power.hclk = true ∧
    (newBay .rollback 0 0 0 (.rollback { c.rollbackRec a (landed 7) with restored := 6 })).body =
      .rollback { c.rollbackRec a (landed 7) with restored := 6 } ∧ (landed 6).flight = 6 := by decide +kernel

theorem witness_BaysOfActionsLand_several :
    let x : Change := { ord := 0, bay := 3, loc := .at 48, mask := 0xFFFF }
    let y : Change := { ord := 1, bay := 3, loc := .at 64, mask := 0xFFFF }
    let c := { baysOfActionsLandLandingCard with
      views := { baysOfActionsLandLandingCard.views with changes := [y, x], undo := [(3, .none)] } }
    let a := act false (.issued 16)
    c.views.changes = [] ++ y :: [x] ∧ x.ord < y.ord ∧ 0 ≤ y.ord ∧ y.ord ≤ 1 ∧ c.views.undo = [] ++ (3, .none) :: [] ∧
    a.src = .cmd 5 ∧ (acting false (.issued 16)).cmdOf 5 = some .timed := by decide +kernel

theorem witness_BaysOfActionsLand_land_after :
    (withCmd mounted 5 opWrite (.write { waiting with stage := .landing })).cmdOf 5 =
      some (.write { waiting with stage := .landing }) ∧
    waiting.inlineDone = true ∧ ({ waiting with inlineMoves := 1 } : WriteWork).inlineDone = false := by decide +kernel

theorem witness_BaysOfActionsLand_close :
    let a : Action := { act false (.issued 16) with src := .close 5 }
    a.src = .close 5 ∧ (withCmd mounted 5 opClose .close).cmdOf 5 = some .close ∧ mounted.flights.held = none := by
  decide +kernel

theorem witness_DieReports_program : (dieReportsProgramCard.die (dieNo 0 0)).op = some (.program 16) ∧
    KV.find dieReportsProgramCard.media.vest 16 = some (dataBay 1 16) ∧ dieReportsProgramCard.pageCode 16 = none :=
    by decide +kernel

theorem witness_DieReports_read : (dieReportsReadCard.die (dieNo 0 0)).op = some (.read 4 0 false 0xFFFF 0) :=
    by decide +kernel

theorem witness_DieReports_erase : dieReportsEraseCard.serviceErasing = false ∧
    ((dieReportsEraseCard.die (dieNo 0 0)).erase.map DieErase.stage) = some .running := by decide +kernel

theorem witness_DieReports_erase_halls :
    let c (l : List Nat) := { dieReportsEraseCard with halls := { dieReportsEraseCard.halls with
      erases := [(0, { owner := .window, left := l, failed := false })] } }
    (KV.find (c [0]).halls.erases 0).map (fun x => x.left.filter (· != 0)) = some [] ∧
    (KV.find (c [0, 1]).halls.erases 0).map (fun x => x.left.filter (· != 0)) = some [1] := by decide +kernel

theorem witness_DieReports_wait :
    dieReportsWaitCard.firstFor 0 (dieReportsWaitCard.queue 0) = some (.read 4 0 false 0xFFFF 0) := by decide +kernel

theorem witness_DieReports_suspended : dieReportsSuspendedCard.resetting 0 = false ∧
    (dieReportsSuspendedCard.die 0).op = none ∧
    dieReportsSuspendedCard.firstFor 0 (dieReportsSuspendedCard.queue 0) = some (.read 4 0 false 0xFFFF 0) :=
    by decide +kernel

theorem witness_DieReports_queued : dieReportsQueuedCard.backList 0 = [.program 16] ∧
    (dieReportsQueuedCard.queue 0).length < 64 ∧ (dieReportsQueuedCard.die (Desc.program 16).die).op.isSome = true :=
    by decide +kernel

theorem witness_DieReports_queued_late : dieReportsQueuedCard.lateDesc (.program 16) = false := by decide +kernel

theorem witness_DieReports_hung : (dieReportsReadCard.die (dieNo 0 0)).fenced = false ∧
    dieReportsReadCard.resetting 0 = false ∧ (dieReportsReadCard.die (dieNo 0 0)).op.isSome = true :=
    by decide +kernel

theorem witness_DieReports_hung_erase :
    ((dieReportsEraseCard.die (dieNo 0 0)).erase.map DieErase.stage) = some .running ∧
    (dieReportsEraseCard.die (dieNo 0 0)).op = none ∧ dieReportsEraseCard.phase ≠ .absent ∧
    dieReportsEraseCard.power.hclk = true := by decide +kernel

theorem witness_DieReports_hung_quiet : dieReportsReadCard.serviceErasing = false ∧ dieReportsReadCard.halls.jobs = [] ∧
    dieReportsReadCard.writeWorks = [] ∧ dieReportsReadCard.flights.acts = [] ∧ dieReportsReadCard.flights.due = [] ∧
    dieReportsReadCard.media.homeless = [] ∧ (dieReportsReadCard.die (dieNo 0 0)).hangs = 0 := by decide +kernel

theorem witness_DieReports_fenced : 1 ≤ (dieReportsFencedCard.die (dieNo 0 0)).hangs ∧
    (dieReportsFencedCard.die (dieNo 0 0)).op.isSome = true := by decide +kernel

theorem witness_DieReports_resetEnd : (KV.find dieReportsResetEndCard.halls.resets 0).isSome = true :=
    by decide +kernel

theorem witness_WindowWork_erase : windowWorkEraseCard.windowAllows 1 Config.eraseTreads = true ∧
    windowWorkEraseCard.halls.erases = [] ∧ windowWorkEraseCard.eraseOrder = [0] ∧
    windowWorkEraseCard.halls.dies = [] := by decide +kernel

theorem witness_WindowWork_erase_dies : windowWorkEraseCard.halls.dies = [] := by decide +kernel

theorem witness_WindowWork_refresh : windowWorkRefreshCard.windowAllows 4 Config.relocTreads = true ∧
    windowWorkRefreshCard.refreshOrder = [0] ∧ windowWorkRefreshCard.movable 0 = [0] ∧
    windowWorkRefreshCard.unreachable 0 = false := by decide +kernel

theorem witness_WindowWork_refresh_next : windowWorkRefreshCard.eraseFirst = false ∧
    windowWorkRefreshCard.refreshNext = some 0 := by decide +kernel

theorem witness_WindowWork_level : windowWorkLevelCard.windowAllows 2 Config.relocTreads = true ∧
    windowWorkLevelCard.levelWing.2 = some 0 ∧ windowWorkLevelCard.levelWing.1.movable 0 = [0] ∧
    KV.find windowWorkLevelCard.levelWing.1.media.vest 0 = none ∧
    windowWorkLevelCard.levelWing.1.unreachable 0 = false ∧ windowWorkLevelCard.maint.young = none :=
    by decide +kernel

theorem witness_WindowWork_level_turn : windowWorkLevelCard.levelYields = false ∧
    windowWorkLevelCard.youngWing = some 0 ∧ (windowWorkLevelCard.wing 0).cls + 3 ≤ windowWorkLevelCard.topClass := by
  decide +kernel

theorem witness_WindowWork_patrol : windowWorkPatrolCard.windowAllows 3 Config.marginTreads = true ∧
    windowWorkPatrolCard.maint.visit = none ∧ windowWorkPatrolCard.passLeft = [0] ∧
    windowWorkPatrolCard.halls.jobs = [] ∧ windowWorkPatrolCard.writeWorks = [] ∧
    windowWorkPatrolCard.positionsOf 0 = [0] ∧ windowWorkPatrolCard.halls.dies = [] := by decide +kernel

theorem witness_WindowWork_patrolEmpty : windowWorkPatrolEmptyCard.positionsOf 0 = [] ∧
    windowWorkPatrolEmptyCard.passLeft = [0, 1] ∧ windowWorkPatrolEmptyCard.flights.acts = [] := by decide +kernel

theorem witness_WindowWork_patrol_dies : ∀ n, windowWorkPatrolCard.dieShut n = false := fun _ => rfl

theorem witness_AnnealAndThermal_start : annealAndThermalStartCard.windowAllows 6 Config.annealTreads = true ∧
    annealAndThermalStartCard.maint.hottest ≤ 560 ∧
    annealAndThermalStartCard.dueDies.find? annealAndThermalStartCard.mayAnneal = some 35 := by decide +kernel

theorem witness_AnnealAndThermal_turn : annealAndThermalStartCard.annealYields = false := by decide +kernel

theorem witness_AnnealAndThermal_heat : (annealAndThermalHeatCard.die (dieNo 2 3)).heat = .heating :=
    by decide +kernel

theorem witness_AnnealAndThermal_probe :
    (annealAndThermalProbeCard.maint.anneals.find? (fun x => x.die == dieNo 2 3)) = some { die := 35, p0 := 7 } ∧
    (annealAndThermalProbeCard.die (dieNo 2 3)).heat = .cooling := by decide +kernel

theorem witness_AnnealAndThermal_timeout :
    (annealAndThermalHeatCard.maint.anneals.find? (fun x => x.die == dieNo 2 3)) = some { die := 35, p0 := 7 } ∧
    mounted.power.hclk = true := by decide +kernel

theorem witness_AnnealAndThermal_stopped :
    ({ mounted with power := { mounted.power with hclk := false } }).power.hclk = false := by decide +kernel

theorem witness_AnnealAndThermal_stages : (736 : Int) ≤ (736#16).toInt ∧ (656#16).toInt ≤ 656 ∧ 656 < (657#16).toInt ∧
    (735#16).toInt < 736 := by decide +kernel

theorem witness_AnnealAndThermal_cools : (withDie mounted 35 { Die.idle with heat := .hot }).die (dieNo 2 3) =
    { Die.idle with heat := .hot } ∧ (639#16).toInt < 640 := by decide +kernel

theorem witness_FramesWithoutCommand_keep : retrainRuleReadCard.cmdOf 5 ≠ none ∧
    retrainRuleReadCard.portUp .ci = true ∧ retrainRuleReadCard.power.hclk = true := by decide +kernel

theorem witness_FramesWithoutCommand_data : retrainRuleWriteCard.cmdOf 5 = some (.write (opened 65536)) ∧
    (opened 65536).stage = .data := by decide +kernel

theorem witness_FramesWithoutCommand_void :
    let c := withCmd (docked ready) 5 opFormat .dockOp
    ({ c with alcove := { c.alcove with service := some (5, .formatRead) } }).mustVoid 5 = true ∧
    retrainRuleReadCard.mustVoid 5 = false := by decide +kernel

theorem witness_FramesWithoutCommand_refused : mounted.hears .ci = true ∧
    badCause .ci { code := true, bytes := [0xC5, 9] } = some 2 := by decide +kernel

theorem witness_FramesWithoutCommand_causes :
    let good := wireFrame opRead (ci 5 0 1 0 0)
    badCause .ci { code := false, bytes := good.take 15 } = some 3 ∧
    badCause .ci { code := false, bytes := good.take 14 ++ [0, 0] } = some 1 ∧
    badCause .dci { code := false, bytes := wireFrame opAlcoveLoad { dci 5 0 with ext := some [1, 2, 3, 4] } } = none ∧
    badCause .dci { code := false, bytes := (wireFrame opAlcoveLoad { dci 5 0 with ext := some [1, 2, 3, 4] }).take 20 ++ [0, 0, 0, 0] } =
      some 5 ∧
    badCause .ci { code := false, bytes := (let b := (good.take 13 ++ [1]); b ++ leBytes 2 (crc16 b).toNat) } = some 4 := by
  decide +kernel

theorem witness_FramesWithoutCommand_align : frameCheckOrderLengthCard.hears .dci = true := by decide +kernel

theorem witness_FramesWithoutCommand_char : mounted.hears .ci = true := by decide +kernel

theorem witness_TwinRules_hello : twinRulesHelloCard.hearsTwin = true ∧
    (([0x01, 2, 0, 0, 0, 0, 0, 0, 1, 0, 0, 0, 0, 0, 0, 0] : List Byte) ++ leBytes 4 (crc32c ([0x01, 2, 0, 0, 0, 0, 0, 0, 1, 0, 0, 0, 0, 0, 0, 0] : List Byte)).toNat).length = 20 ∧
    twinOk 0x01 20 (([0x01, 2, 0, 0, 0, 0, 0, 0, 1, 0, 0, 0, 0, 0, 0, 0] : List Byte) ++ leBytes 4 (crc32c ([0x01, 2, 0, 0, 0, 0, 0, 0, 1, 0, 0, 0, 0, 0, 0, 0] : List Byte)).toNat) = true ∧
    fieldAt (([0x01, 2, 0, 0, 0, 0, 0, 0, 1, 0, 0, 0, 0, 0, 0, 0] : List Byte) ++ leBytes 4 (crc32c ([0x01, 2, 0, 0, 0, 0, 0, 0, 1, 0, 0, 0, 0, 0, 0, 0] : List Byte)).toNat) 8 4 ≠ twinRulesHelloCard.serialCrc.toNat ∧
    twinRulesHelloCard.twin.waits = [] := by decide +kernel

theorem witness_TwinRules_clash :
    ((([0x01, 1, 0, 0, 0, 0, 0, 0, 1, 0, 0, 0, 0, 0, 0, 0] : List Byte) ++ leBytes 4 (crc32c ([0x01, 1, 0, 0, 0, 0, 0, 0, 1, 0, 0, 0, 0, 0, 0, 0] : List Byte)).toNat).getD 1 0).toNat = 1 ∧
    twinOk 0x01 20 (([0x01, 1, 0, 0, 0, 0, 0, 0, 1, 0, 0, 0, 0, 0, 0, 0] : List Byte) ++ leBytes 4 (crc32c ([0x01, 1, 0, 0, 0, 0, 0, 0, 1, 0, 0, 0, 0, 0, 0, 0] : List Byte)).toNat) = true :=
    by decide +kernel

theorem witness_TwinRules_bad : twinOk 0x01 20 (List.replicate 20 0) = false := by decide +kernel

theorem witness_TwinRules_same_serial :
    (let b : List Byte := [0x01, 2, 0, 0, 0, 0, 0, 0] ++ leBytes 4 twinRulesHelloCard.serialCrc.toNat ++ [0, 0, 0, 0]
     fieldAt (b ++ leBytes 4 (crc32c b).toNat) 8 4 = twinRulesHelloCard.serialCrc.toNat) := by decide +kernel

theorem witness_TwinRules_digest :
    (([0x02, 0, 0, 0, 7, 0, 0, 0, 5, 0, 0, 0, 0, 0, 0, 0, 6, 0, 0, 0] : List Byte) ++ leBytes 4 (crc32c ([0x02, 0, 0, 0, 7, 0, 0, 0, 5, 0, 0, 0, 0, 0, 0, 0, 6, 0, 0, 0] : List Byte)).toNat).length = 24 ∧
    twinOk 0x02 24 (([0x02, 0, 0, 0, 7, 0, 0, 0, 5, 0, 0, 0, 0, 0, 0, 0, 6, 0, 0, 0] : List Byte) ++ leBytes 4 (crc32c ([0x02, 0, 0, 0, 7, 0, 0, 0, 5, 0, 0, 0, 0, 0, 0, 0, 6, 0, 0, 0] : List Byte)).toNat) = true ∧
    ((([0x02, 0, 0, 0, 7, 0, 0, 0, 5, 0, 0, 0, 0, 0, 0, 0, 6, 0, 0, 0] : List Byte) ++ leBytes 4 (crc32c ([0x02, 0, 0, 0, 7, 0, 0, 0, 5, 0, 0, 0, 0, 0, 0, 0, 6, 0, 0, 0] : List Byte)).toNat).getD 1 0).getLsbD 0 = false ∧
    twinRulesDigestCard.twin.burst = some { replay := false, left := none, digests := [] } := by decide +kernel

theorem witness_TwinRules_wait : twinRulesWaitCard.twin.waits = [{ flight := 7, ended := true }] := by decide +kernel

theorem witness_TwinRules_same : twinRulesSameCard.twin.heard.length = 1 := by decide +kernel

theorem witness_TwinRules_differ : twinRulesDifferCard.twin.waits.length = 1 := by decide +kernel

theorem witness_TwinRules_one_burst : twinRulesDifferCard.twin.heard.tail = [] ∧ twinRulesDifferCard.twin.pair ≠ 3 ∧
    ({ twinRulesDifferCard.twin with pair := 3 } : Twin).pair = 3 := by decide +kernel

theorem witness_BalconyPeriod_period : balconyPeriodPeriodCard.drivesBal = true ∧
    balconyPeriodPeriodCard.bal.startDue = true := by decide +kernel

theorem witness_BalconyPeriod_turn :
    let c (n : Nat) := { frameCheckOrderLengthCard with bal := { mounted.bal with startDue := false, slot := some n } }
    (c 1562).slotsOver = true ∧ (c 1562).loadQueued = false ∧ (c 1561).slotsOver = false := by decide +kernel

theorem witness_BalconyPeriod_counter : balconyPeriodCounterCard.bal.slot = some 96 ∧
    balconyPeriodCounterCard.loadQueued = false := by decide +kernel

theorem witness_BalconyPeriod_empty : balconyPeriodEmptyCard.bal.queue = [] := by decide +kernel

theorem witness_BalconyPeriod_queue :
    balconyPeriodQueueCard.bal.queue = [{ type := 0x17, stamp := 0, payload := [] }] ∧
    balconyPeriodQueueCard.loadQueued = false := by decide +kernel

theorem witness_BalconyPeriod_load :
    let c (t : Byte) := { frameCheckOrderLengthCard with bal := { mounted.bal with
      slot := some 40, queue := [{ type := t, stamp := 0, payload := [] }, { type := 1, stamp := 0, payload := [] }] } }
    (c 0x17).loadQueued = true ∧ (c 1).loadQueued = true ∧ (c 1).bal.slot = some 40 ∧
    frameCheckOrderLengthCard.drivesBal = true ∧ frameCheckOrderLengthCard.loadQueued = false := by decide +kernel

/-! One step on a small state; what is expected stands in the spec. -/

theorem test_nor_program_ands : let t := next (.alcoveOperationComplete true) alcoveBytesFrameProgramCard;
    Mem.read t.alcove.memA 62 = 0x0E ∧ Mem.read t.alcove.memA 63 = 0x14 ∧ Mem.read t.alcove.memA 64 = 0xFF :=
    by decide +kernel

theorem test_line_codes : (encodeChar false k28_5).1 = 0b0011111010 ∧ (encodeChar true k28_5).1 = 0b1100000101 ∧
    (encodeChar false k27_7).1 = 0b1101101000 ∧ (encodeChar false k29_7).1 = 0b1011101000 ∧
    (encodeChar false (.data 0)).1 = 0b1001110100 ∧ (encodeChar true (.data 0xEB)).1 = 0b1101001000 := by decide +kernel

set_option maxRecDepth 100000 in
theorem test_line_balance : ∀ rd : Bool, ∀ c ∈ allChars, onesOf (encodeChar rd c).1 =
    (if (encodeChar rd c).2 = rd then 5 else if rd then 4 else 6) := by decide +kernel

theorem test_hello_alone_is_90_characters :
    (Out.twin [twinRulesHelloCard.helloBytes false false]).chars.length = 90 := by decide +kernel

set_option maxRecDepth 100000 in
theorem test_aes256_fips197_c3 :
    aesEncrypt (aesRoundKeys ((List.range 32).map (BitVec.ofNat 8))) ((List.range 16).map (fun i => BitVec.ofNat 8 (0x11 * i))) =
      [0x8e, 0xa2, 0xb7, 0xca, 0x51, 0x67, 0x45, 0xbf, 0xea, 0xfc, 0x49, 0x90, 0x4b, 0x49, 0x60, 0x89] := by
  decide +kernel


set_option maxRecDepth 100000 in
theorem test_one_symbol_corrected :
    let w := rsEncode (List.replicate 514 7)
    rsDecode (w.set 100 9) = some (w, 1) := by decide +kernel

theorem test_seq_field_and_complement : let t := next (.alcoveOperationComplete true) alcoveBytesFrameSeqCard;
    Mem.bytes t.alcove.memB 8 8 = [2,0,0,0,0xFD,0xFF,0xFF,0xFF] := by decide +kernel

theorem test_soft_start_clears : let t := next (.softStartEnd) supplyUpAndDownUpCard; t.phase = .poweredUnclocked ∧
    t.treads.c = 0 ∧ t.power.strapSources = true ∧ t.power.softStarting = false ∧ t.counter 5 = 0 ∧ t.bal.seq = 0 ∧
    t.ports.tags = [] ∧ t.views.map = [] ∧ t.link.mode = .down ∧ t.media.cells = [] ∧ t.power.hclk = true :=
    by decide +kernel

theorem test_pdc_break_keeps_media : let t := next (.pdcBreak) oneBay; t.phase = .absent ∧ t.power.lnd = false ∧
    t.link.mode = .down ∧ t.ports.tags = [] ∧ t.views.valid = false ∧ t.views.map = [] ∧ t.alcove.conf = none ∧
    t.losses.store = [] ∧ t.out = oneBay.out ∧ t.media.cells = oneBay.media.cells ∧ t.power.broken = true ∧
    t.power.pdcLow = false := by decide +kernel

theorem test_slot_address_123 :
    let t := next (.strapReadPassEnd (let l (n : Nat) := List.replicate 8 n; (⟨l 300, l 10, l 300, l 500, l 800, l 10, l 500⟩ : StrapPass))) stablePassLatchesCard;
    t.phase = .loading ∧ t.straps.reading = none ∧ t.straps.slot = 0x123 ∧ t.straps.group = 1 ∧
    t.alcove.trying = some (Card.reset.alcove.first, false) ∧ t.straps.vals.adl.level = 3 := by decide +kernel

theorem test_unstable_line_reads_fff :
    let t := next (.strapReadPassEnd (let l (n : Nat) := List.replicate 8 n; (⟨l 300, l 10, [300, 30000, 300, 300, 300, 300, 300, 300], l 500, l 800, l 10, l 500⟩ : StrapPass))) strapReadPassesUnstableCard;
    t.straps.slot = 0xFFF ∧ t.straps.group = 15 ∧ t.straps.vals.adh.level = 15 ∧ t.straps.vals.adh.unstable = true ∧
    t.straps.vals.adl = StrapSet.unread.adl := by decide +kernel

theorem test_second_bad_slot_faults : let t := next (.alcoveCopyComplete) loaderOutcomesSecondCard; t.phase = .fault ∧
    t.link.mode = .training := by decide +kernel

theorem test_preset_above_cap_refused : let t := next (.setPreset 3 1 2) trainingRequestsCapCard;
    t.link.reqResult = .refused ∧ t.link.preset1 = 0 := by decide +kernel

theorem test_ready_on_four_lanes : let t := next (.ready 3 4) readyRuleFitCard; t.link.mode = .accepted 4 ∧
    t.link.lanes = 4 ∧ t.link.reqResult = .accepted ∧ t.link.txMarker = 1 ∧
    t.out = [.marker 4 0, .training 4 false] := by decide +kernel

theorem test_lane_two_trained : let t := next (.laneTrained 2 0) training; t.link.trained = 4 ∧
    KV.find t.link.margins 2 = some 1 ∧ t.link.mode = .training ∧ t.out = [] := by decide +kernel

theorem test_marker_timeout_retrains : let t := next (.h2cMarkerTimeout) trainingLanesMarkerCard;
    t.link.mode = .training ∧ t.link.retrainReq = true ∧ t.out = [.training 4 true] := by decide +kernel

theorem test_retrain_cuts_read : let t := next (.hostRetrain) retrainRuleReadCard;
    t.tagEntry 5 = some (entry .ci opRead (.completed stLaneCheck (info3 0 5 0))) := by decide +kernel

theorem test_bad_data_frame_lane_bit :
    let t := next (.dataFrame (noise 2)) (withCmd mounted 0 opWrite (.write (opened 65536)));
    ((t.openXfer 0).map (fun p => (p.2.failed, p.2.cause))) = some (4, some 2) := by decide +kernel

set_option maxRecDepth 100000 in
theorem test_trailer_count_differs :
    let t := next (.trailerFrame (trailerWord { itsTrailer with count := 2 })) (trailerRulesCard false);
    t.tagEntry 5 = some (entry .ci opWrite (.completed stLaneCheck (info3 1 3 0))) := by decide +kernel

theorem test_no_trailer_timeout : let t := next (.trailerTimeout 5) retrainRuleWriteCard;
    t.tagEntry 5 = some (entry .ci opWrite (.completed stLaneCheck (info3 15 6 0))) := by decide +kernel

theorem test_read_before_mount : let t := next (.read (ci 5 0 1 0 0)) ready;
    t.tagEntry 5 = some (entryOf opRead (ci 5 0 1 0 0) (.completed stNotMounted 0)) := by decide +kernel

theorem test_read_unused_field : let t := next (.read (ci 5 0 1 9 0)) mounted;
    t.tagEntry 5 = some (entryOf opRead (ci 5 0 1 9 0) (.completed stProtocol 0)) := by decide +kernel

theorem test_write_641_sectors : let t := next (.write (ci 5 0 641 0 0)) mounted;
    t.tagEntry 5 = some (entryOf opWrite (ci 5 0 641 0 0) (.completed stRange 0)) := by decide +kernel

theorem test_discard_past_the_end : let t := next (.discardH (ci 5 3523215360 1 0 0)) mounted;
    t.tagEntry 5 = some (entryOf opDiscardH (ci 5 3523215360 1 0 0) (.completed stRange 0)) := by decide +kernel

theorem test_read_unmapped_zeros : let t := next (.read (ci 5 16 1 0 1)) mounted;
    t.tagEntry 5 = some (entryOf opRead (ci 5 16 1 0 1) (.completed stOk 0)) ∧ KV.getD t.bal.counts 1 0 = 4096 :=
    by decide +kernel

theorem test_verify_two_unmapped_bays : let t := next (.verify (ci 5 16 17 0 1)) mounted;
    t.tagEntry 5 = some (entryOf opVerify (ci 5 16 17 0 1) (.completed stOk 0)) ∧
    t.out = [mounted.respNow .ci 0 5 stOk 0 false, .c2h { tag := 5, issue := false, lanes := 4, seed := 0, bytes := [3, 3] }] :=
    by decide +kernel

theorem test_stream_segment_interim : let t := next (.streamSegmentStart 5) streamRuleMoreCard; t.out.length = 2 ∧
    t.out.head? = some (mounted.respNow .ci 1 5 stOk 2 false) ∧
    ((t.cmdOf 5).map (fun k => match k with | .stream w => (w.next, w.stop, w.sent, w.cur.sector, w.cur.count) | _ => (0,0,0,0,0))) = some (30, 40, 3, 30, 10) :=
    by decide +kernel

theorem test_stream_ends_at_lost_bay : let t := next (.streamSegmentStart 5) streamRuleLostCard;
    t.tagEntry 5 = some (entry .ci opStream (.completed stLost (info3 6 0 0))) := by decide +kernel

theorem test_stop_ends_stream : let t := next (.stop (ci 6 0 0 5 0)) streamRuleMoreCard;
    t.tagEntry 6 = some (entryOf opStop (ci 6 0 0 5 0) (.completed stOk (info3 1 0 0))) ∧
    t.tagEntry 5 = some (entry .ci opStream (.completed stOk (info3 2 0 0))) ∧ t.out.length = 2 := by decide +kernel

theorem test_write_unaligned_credits_two : let t := next (.write (ci 5 8 16 0 0)) mounted;
    ((t.cmdOf 5).map (fun k => match k with | .write w => (w.sector, w.count, w.credit, w.ord) | _ => (0,0,0,0))) = some (8, 16, 2, 0) ∧
    ((t.cmdOf 5).map (fun k => match k with | .write w => (w.stage == .waitGo, w.discard, w.applied, w.landAfter) | _ => (false,false,false,none))) = some (true, false, false, none) ∧
    t.media.cells = [] := by decide +kernel

theorem test_go_opens_transfer : let t := next (.writeGo 5) writeRuleGoCard;
    t.out = [mounted.respNow .ci 2 5 stOk 0 false] ∧
    ((t.openXfer 5).map (fun p => (p.2.bytes, p.2.frames, p.2.failed, p.1.credit))) = some (65536, [], 0, 1) :=
    by decide +kernel

theorem test_discard_h_keeps_flash : let t := next (.discardH (ci 5 0 16 0 0)) oneBay;
    t.tagEntry 5 = some (entryOf opDiscardH (ci 5 0 16 0 0) (.completed stOk 0)) ∧ t.media = oneBay.media ∧
    t.resolve true 0 = .zeroed ∧ t.resolve false 0 = .zeroed := by decide +kernel

theorem test_land_1024_late : let t := next (.land (ci 5 0xFFC00 0 8 0)) frameCheckOrderLengthCard;
    t.power.lnd = true ∧ t.flights.held = none ∧ t.flights.openOrd = 1 ∧
    t.out = frameCheckOrderLengthCard.noticeNow ntSyncLate (info3 1024 4 8) ∧ t.out.length = 2 ∧
    t.flights.acts.map (fun a => (a.rollback, a.flight, a.late, a.closed)) = [(false, 8, 1024, 0)] :=
    by decide +kernel

theorem test_land_1025_late : let t := next (.land (ci 5 0xFFBFF 0 8 0)) mounted;
    t.tagEntry 5 = some (entryOf opLand (ci 5 0xFFBFF 0 8 0) (.completed stTreadPast 0)) := by decide +kernel

theorem test_land_past_2_24 : let t := next (.land (ci 5 0x1100001 0 8 0)) mounted;
    t.tagEntry 5 = some (entryOf opLand (ci 5 0x1100001 0 8 0) (.completed stRange 0)) := by decide +kernel

theorem test_quiet_overlap : let t := next (.quiet (ci 5 0x100020 0 64 0)) timedCommandsOverlapCard;
    t.tagEntry 5 = some (entryOf opQuiet (ci 5 0x100020 0 64 0) (.completed stProtocol 0)) ∧
    t.maint.held.length = 1 := by decide +kernel

theorem test_mount_without_profile : let t := next (.mount (ci 5 0 0 0 0)) mountRuleNoneCard;
    t.tagEntry 5 = some (entryOf opMount (ci 5 0 0 0 0) (.completed stNotReady 1)) ∧ t.phase = .readyUnmounted :=
    by decide +kernel

theorem test_close_discards : let t := next (.close (ci 5 0 0 0 1)) oneBay; t.phase = .closed ∧
    t.tagEntry 5 = some (entryOf opClose (ci 5 0 0 0 1) (.completed stOk (info3 2 0 0))) ∧
    t.views.selfRefresh = true ∧ (t.entry 0).working = (t.entry 0).landed ∧ t.maint.held = [] := by decide +kernel

theorem test_force_close_aborts : let t := next (.forceClose (dci 6 0)) closeRulesForceCard;
    t.phase = .readyUnmounted ∧ t.tagEntry 6 = some (entryOf opForceClose (dci 6 0) (.completed stOk 0)) ∧
    t.tagEntry 5 = none ∧ t.views.map = [] ∧ t.views.valid = false ∧ t.media.cells = oneBay.media.cells ∧
    t.out.length = 2 := by decide +kernel

theorem test_page_over_dci_in_eight : let t := next (.inquire (dci 5 1)) frameCheckOrderLengthCard;
    t.tagEntry 5 = some (entryOf opInquire (dci 5 1) (.completed stOk (info3 7 8 0))) ∧ t.out.length = 8 ∧
    (t.out.reverse.map (fun o => match o with | .ext r _ => (r.kind.toNat, r.seq.toNat, r.info == info3 r.seq.toNat 8 0) | _ => (9,9,false))) = [(1,0,true),(1,1,true),(1,2,true),(1,3,true),(1,4,true),(1,5,true),(1,6,true),(0,7,true)] :=
    by decide +kernel

theorem test_alcove_load_programs_other_slot :
    let t := next (.alcoveLoad ({ dci 5 0 with sector := 0x10000, ext := some [1, 2, 3, 4] } : Frame)) dockCommandsSanitizeCard;
    t.alcove.ops = [.programBytes .b 0x10000 [1, 2, 3, 4]] ∧ t.phase = .readyUnmounted ∧
    t.alcove.service = some (5, .load .b 0x10000 [1, 2, 3, 4]) := by decide +kernel

theorem test_check_tread_two_behind : let t := next (.syncCheckTread (msg 0x100002 0)) frameCheckOrderLengthCard;
    t.treads.checkDiff = -2 ∧ t.treads.c = mounted.treads.c ∧
    t.out = frameCheckOrderLengthCard.noticeNow ntTreadSlip 0xFFFFFE := by decide +kernel

theorem test_service_of_63_treads : let t := next (.syncService (msg 0x100010 0x100003E)) mounted;
    t.maint.held = [] := by decide +kernel

theorem test_ninth_mark : let t := next (.syncMark (msg 0x100010 9)) syncEffectsNinthCard;
    t.flights.marks.length = 8 := by decide +kernel

theorem test_last_stop_bit_completes_message :
    let bs := syncBytes syncTypeMark (msg 0x100010 9)
    let rx : SyRx := { idle := 0, char := some { cycle := 150, fromIdle := false, bits := bs.getD 17 0 }, msg := some (bs.take 17), since := 150 }
    let t := next (.badSyncMessage [true]) { mounted with treads := { mounted.treads with rx := rx } };
    t.treads.taking = some (256, bs) ∧ t.treads.rx.msg = none ∧ t.flights.marks = [] := by decide +kernel

theorem test_take_point :
    let bs := syncBytes syncTypeMark (msg 0x100010 9)
    let c := { mounted with treads := { mounted.treads with taking := some (2, bs) } }
    let t := next (.badSyncMessage [true, true]) c;
    t.flights.marks = [{ seq := 1, tread := 0x100010, value := 9 }] ∧ t.treads.taking = none ∧
    (next (.badSyncMessage [true]) c).flights.marks = [] := by decide +kernel

theorem test_landing_bay_281251_cycles : let t := next (.landingBayIssue 281251) landingActionsIssueCard;
    t = landingActionsIssueCard := by decide +kernel

theorem test_rollback_executes : let t := next (.rollbackExecute) rollbackAndMarkActionsExecuteCard;
    t.flights.held = none ∧ t.flights.openOrd = 1 ∧ t.flights.acts = [{ act true .completing with closed := 0 }] ∧
    t.tagEntry 9 = some (entry .ci opWrite (.completed stRolledBack 0)) := by decide +kernel

theorem test_window_starts : let t := next (.windowStart) windowsRunStartCard;
    t.maint.running = [window false 1 0x100000] ∧ t.maint.held = [] ∧ t.flagQ = false := by decide +kernel

theorem test_program_puts_bay : let t := next (.programComplete 0 0 ⟨true, 3, false⟩) dieReportsProgramCard;
    KV.find t.media.cells 16 = some (.bay (dataBay 1 16)) ∧ KV.getD t.bal.counts 16 0 = 1 := by decide +kernel

theorem test_waiting_read_suspends_erase : let t := next (.exclusiveReadWaitExpiry 0 0) dieReportsWaitCard;
    ((t.die 0).erase.map DieErase.stage) = some .suspending := by decide +kernel

theorem test_second_hang_fences : let t := next (.descriptorHung 0 0) dieReportsFencedCard; (t.die 0).hangs = 2 ∧
    (t.die 0).fenced = true ∧ t.out = dieReportsFencedCard.noticeNow ntHallFenced 0 := by decide +kernel

theorem test_patrol_reads_one_wing : let t := next (.patrolVisit) windowWorkPatrolCard;
    t.maint.visit = some (0, 1, false) ∧
    t.halls.jobs.map (fun x => (x.2.key, x.2.purpose == .patrol, x.2.stage == .strict)) = [(0, true, true)] :=
    by decide +kernel

theorem test_anneal_highest_class : let t := next (.annealStart 12) annealAndThermalStartCard;
    t.maint.anneals = [{ die := 35, p0 := 7 }] ∧ (t.die 35).heat = .heating := by decide +kernel

theorem test_stage_two_at_92 : let t := next (.thermalStageChange { hall := 2, die := 3, temp := 736 } [{ hall := 2, die := 4, temp := 700 }] 100) mounted; t.maint.stage = 2 ∧
    t.maint.h = true ∧ t.maint.controller = 100 := by decide +kernel

theorem test_refused_frame_counts :
    let t := next (.refusedFrame .ci { code := true, bytes := [0xC5, 9] }) mounted;
    t.out = [mounted.respNow .ci 1 9 stBadFrame (info3 2 0xC5 0) false] ∧ KV.getD t.bal.counts 4 0 = 1 :=
    by decide +kernel

theorem test_hello_of_same_role :
    let t := next (.twinHello (([0x01, 1, 0, 0, 0, 0, 0, 0, 1, 0, 0, 0, 0, 0, 0, 0] : List Byte) ++ leBytes 4 (crc32c ([0x01, 1, 0, 0, 0, 0, 0, 0, 1, 0, 0, 0, 0, 0, 0, 0] : List Byte)).toNat)) twinRulesHelloCard;
    t.twin.linkUp = false ∧ KV.getD t.bal.counts 88 0 = 1 := by decide +kernel

theorem test_twin_wait_expires : let t := next (.twinWaitExpiry) twinRulesWaitCard; t.twin.waits = [] ∧
    t.twin.linkUp = false ∧ t.twin.replayDue = true ∧ t.twin.pair = 2 ∧ t.out = [] := by decide +kernel

theorem test_last_slot_drains_queue : let t := next (.balconySlot) balconyPeriodQueueCard; t.bal.slot = some 1562 ∧
    t.bal.queue = [] ∧ t.out = [.balcony 0 { type := 0x17, stamp := 0, payload := [] }] := by decide +kernel

theorem witness_StepKeepsInvariant : mounted.keep.ok ∧
    step { st mounted with pending := [.treadTick] } = .next (st (next .treadTick mounted)) :=
  ⟨by refine ⟨?_, ?_, ?_, ?_, ?_, ?_, ?_⟩ <;> decide +kernel, rfl⟩

theorem witness_StateChangesOnlyByTable : ∃ t, exec .softStartEnd (st stateChangesOnlyByTableCard) = .next t :=
  ⟨_, rfl⟩

theorem witness_GalleryPlaces_data : dataHalls 383 [3, 4] ≠ [] := by decide

theorem witness_GalleryPlaces_free : ∃ h, h < 16 ∧ h ∉ ([3, 4] : List Nat) := ⟨0, by decide⟩

/-! Ill-formed terms, one for each check. -/

theorem test_wf_pass : WellFormed (.strapReadPassEnd ⟨[1], [], [], [], [], [], []⟩) = false := by decide

theorem test_wf_word : WellFormed (.dataFrame { lane := 0, syms := List.replicate 543 0 }) = false := by decide +kernel

theorem test_wf_ext_port : WellFormed (.read { ci 5 0 1 0 0 with ext := some [1, 2, 3, 4] }) = false := by decide

theorem test_wf_ext_length : WellFormed (.alcoveLoad { dci 5 0 with ext := some [1, 2, 3, 4, 5] }) = false := by decide

theorem test_wf_ext_empty : WellFormed (.unlistedOpcode 0x7F { dci 5 0 with ext := some [] }) = false := by decide

theorem test_wf_scan : WellFormed (.mountComplete ⟨false, [268369920], [], []⟩) = false := by decide +kernel

theorem test_wf_erase : WellFormed (.eraseComplete (.bulk [⟨0, 0, 2784⟩])) = false := by decide +kernel

theorem test_wf_hello : WellFormed (.twinHello (List.replicate 19 0)) = false := by decide

theorem test_wf_digest : WellFormed (.twinDigest (List.replicate 25 0)) = false := by decide

/-! Reclaim's turn, on a card with few erased wings. -/

/-- `n` opened wings after the closed wing 0. -/
def crowd (n : Nat) : KV Wing :=
  (0, { Wing.fresh 0 with state := .closed, closeSeq := 1 }) ::
    (List.range n).map (fun w => (w + 1, { Wing.fresh 0 with state := .opened }))

/-- Reclaim's turn: wing 0 closed and `n` wings opened, a window for reclaim under way. -/
def reclaimCard (n : Nat) : Card :=
  inWindow { oneBay with media := { oneBay.media with wings := crowd n } } 1

theorem crowd_filter (n : Nat) (p : Nat × Wing → Bool)
    (h : ∀ k, p (k + 1, { Wing.fresh 0 with state := .opened }) = false) :
    (crowd n).filter p = [(0, { Wing.fresh 0 with state := .closed, closeSeq := 1 })].filter p := by
  have : ((List.range n).map (fun w => (w + 1, { Wing.fresh 0 with state := .opened }))).filter p = [] := by
    simp [h]
  simp only [crowd, List.filter_cons, this, List.filter_nil]

theorem crowd_used (n : Nat) : (reclaimCard n).countWings (fun w => w.state != .free) = n + 1 := by
  have : ((List.range n).map (fun w => (w + 1, { Wing.fresh 0 with state := .opened }))).filter
      (fun x : Nat × Wing => x.2.state != .free) =
      (List.range n).map (fun w => (w + 1, { Wing.fresh 0 with state := .opened })) := by
    simp
  show ((crowd n).filter _).length = _
  simp only [crowd, List.filter_cons]
  rw [this]
  simp

theorem crowd_free (n : Nat) : (reclaimCard n).freeErased + (reclaimCard n).waitingErase ≤ 43680 - (n + 1) := by
  have hw : (reclaimCard n).waitingErase = 0 := by
    show ((crowd n).filter _).length = 0
    rw [crowd_filter _ _ (fun k => rfl)]; rfl
  have hn : Config.wings = 43680 := rfl
  simp only [Card.freeErased, crowd_used, hw]
  omega

theorem crowd_victim (n : Nat) : (reclaimCard n).chooseVictim = some 0 := by
  have hc : (reclaimCard n).candidates = [0] := by
    show ((crowd n).filter _).map _ = _
    rw [crowd_filter _ _ (fun k => rfl)]; rfl
  have hs : ((reclaimCard n).wing 0).short = false := rfl
  have h0 : ((reclaimCard n).score 0).1 ≠ 0 := by
    show (5759 - 1) * (2 ^ 20 + _) ≠ 0
    omega
  simp [Card.chooseVictim, hc, hs, h0, bestOf]

theorem witness_WindowWork_reclaim_turn : (reclaimCard 43500).reclaimYields = false := by decide +kernel

theorem witness_WindowWork_reclaim : (reclaimCard 43500).windowAllows 0 Config.relocTreads = true ∧
    (reclaimCard 43500).freeErased + (reclaimCard 43500).waitingErase < 192 ∧
    (reclaimCard 43500).maint.emptying = none ∧ (reclaimCard 43500).chooseVictim = some 0 ∧
    (reclaimCard 43500).movable 0 = [0] ∧ KV.find (reclaimCard 43500).media.vest 0 = none ∧
    (reclaimCard 43500).unreachable 0 = false :=
  ⟨by decide +kernel, Nat.lt_of_le_of_lt (crowd_free 43500) (by decide), by decide +kernel, crowd_victim 43500,
    by decide +kernel, by decide +kernel, by decide +kernel⟩

end Sys2Proof.Tests
end

/-! The strap family: the decoding table of R108, and the pass of a strap read that finds its contacts stable. -/

namespace Sys2Proof.Machine

open Sys2Proof

/-! The decoding table (R108). -/

/-- The thresholds of R108's table in tenths of a millivolt, lowest first. -/
def thresholdTable : List Nat :=
  [200, 490, 728, 1057, 1495, 2067, 2824, 3811, 5087, 6790, 9047, 12055, 16073, 21437, 27000]

/-- The number of the leading thresholds of `ts` that a voltage has reached. -/
def reached : List Nat → Nat → Nat
  | [], _ => 0
  | t :: ts, v => if v < t then 0 else reached ts v + 1

theorem reached_mono (ts : List Nat) {v w : Nat} (h : v ≤ w) : reached ts v ≤ reached ts w := by
  induction ts with
  | nil => exact Nat.le_refl 0
  | cons t ts ih =>
    simp only [reached]
    split_ifs <;> omega

/-- A strap's level is the number of the table's thresholds that its voltage has reached. -/
theorem strapLevel_toNat (v : Nat) : (strapLevel v).toNat = reached thresholdTable v := by
  simp only [strapLevel, thresholdTable, reached, apply_ite BitVec.toNat, ite_add]
  rfl

theorem strapLevel_mono {v w : Nat} (h : v ≤ w) : (strapLevel v).toNat ≤ (strapLevel w).toNat := by
  rw [strapLevel_toNat, strapLevel_toNat]
  exact reached_mono thresholdTable h

/-- Settles O12: the table is evaluated at each boundary; the order follows as a level counts the thresholds reached. -/
theorem strapThresholds : Obligations.StrapThresholds := by
  unfold Obligations.StrapThresholds
  exact ⟨by decide, fun _ _ h => strapLevel_mono h⟩

/-! A pass that finds contacts stable (R113, R126, R127, R601). -/

/-- Of a set with one contact replaced, that contact reads as replaced and every other as it was. -/
theorem StrapSet.get_put (g : StrapSet) (i j : StrapId) (v : StrapVal) :
    (g.put i v).get j = if j = i then v else g.get j := by
  cases i <;> cases j <;> rfl

/-- What a pass latches of a contact that decodes stably as level `l`. -/
def stableVal (p : StrapPass) (l : StrapId → BitVec 4) (i : StrapId) : StrapVal :=
  { level := l i, mv := strapVolts (passOf p i), unstable := false }

/-- A set with the contacts of `is` replaced by what a stable pass latches of them. -/
def StrapSet.putStable (g : StrapSet) (p : StrapPass) (l : StrapId → BitVec 4) (is : List StrapId) : StrapSet :=
  is.foldl (fun g i => g.put i (stableVal p l i)) g

theorem StrapSet.putStable_get (p : StrapPass) (l : StrapId → BitVec 4) (is : List StrapId) (g : StrapSet)
    (j : StrapId) :
    (g.putStable p l is).get j = if j ∈ is then stableVal p l j else g.get j := by
  induction is generalizing g with
  | nil => rfl
  | cons i is ih =>
    have first : g.putStable p l (i :: is) = (g.put i (stableVal p l i)).putStable p l is := rfl
    rw [first, ih, StrapSet.get_put]
    by_cases hj : j = i
    · subst hj; simp
    · simp [hj]

/-- A pass over all seven contacts leaves nothing of what was got before. -/
theorem StrapSet.putStable_allStraps_get (g : StrapSet) (p : StrapPass) (l : StrapId → BitVec 4) (i : StrapId) :
    (g.putStable p l allStraps).get i = stableVal p l i := by
  have covered : i ∈ allStraps := by cases i <;> decide
  rw [StrapSet.putStable_get, if_pos covered]

/-- A pass over one contact that is stable takes its value and reads it no more (R113). -/
theorem passContact_stable {p : StrapPass} {l : StrapId → BitVec 4} {i : StrapId} (r : StrapReading)
    (h : strapDecode (passOf p i) = some (l i)) :
    passContact p r i =
      { r with got := r.got.put i (stableVal p l i), todo := r.todo.filter (fun x => x != i) } := by
  simp only [passContact, h, stableVal]

/-- After a pass over contacts that are all stable, each has its value and none of them is left to read. -/
theorem foldl_passContact_stable {p : StrapPass} {l : StrapId → BitVec 4} (is : List StrapId) (r : StrapReading)
    (h : ∀ i ∈ is, strapDecode (passOf p i) = some (l i)) :
    is.foldl (passContact p) r =
      { r with got := r.got.putStable p l is, todo := r.todo.filter (fun x => decide (x ∉ is)) } := by
  induction is generalizing r with
  | nil => simp [StrapSet.putStable]
  | cons i is ih =>
    rw [List.foldl_cons, passContact_stable r (h i List.mem_cons_self),
      ih _ fun j hj => h j (List.mem_cons_of_mem i hj)]
    have left : (r.todo.filter fun x => x != i).filter (fun x => decide (x ∉ is)) =
        r.todo.filter fun x => decide (x ∉ i :: is) := by
      rw [List.filter_filter]
      exact List.filter_congr fun x _ => Bool.eq_iff_iff.mpr (by simp [and_comm])
    rw [left]
    rfl

/-- A pass that finds every contact it covers stable ends the read (R113, R601). -/
theorem Card.strapPass_stable {c : Card} {p : StrapPass} {r : StrapReading} {l : StrapId → BitVec 4}
    (hr : c.straps.reading = some r) (hc : c.power.hclk = true)
    (h : ∀ i ∈ r.todo, strapDecode (passOf p i) = some (l i)) :
    c.strapPass p = c.endRead r.kind (r.got.putStable p l r.todo) := by
  have none_left : (r.todo.filter fun x => decide (x ∉ r.todo)) = [] := by simp
  simp only [Card.strapPass, hr, hc, foldl_passContact_stable r.todo r h, none_left, List.isEmpty_nil, if_true]

/-- R126: with stable address contacts the slot address is ADH × 256 + ADM × 16 + ADL. -/
theorem slotOf_toNat {v : StrapSet} (h : addrUnstable v = false) :
    (slotOf v).toNat = v.adh.level.toNat * 256 + v.adm.level.toNat * 16 + v.adl.level.toNat := by
  have hadh := v.adh.level.isLt
  have hadm := v.adm.level.isLt
  have hadl := v.adl.level.isLt
  simp only [slotOf, h, Bool.false_eq_true, if_false, BitVec.toNat_ofNat]
  omega

/-- R127: the group, bits 11 to 8 of the slot address, is then the level of ADH. -/
theorem groupOf_eq_adh {v : StrapSet} (h : addrUnstable v = false) : groupOf v = v.adh.level := by
  have hadh := v.adh.level.isLt
  have hadm := v.adm.level.isLt
  have hadl := v.adl.level.isLt
  apply BitVec.eq_of_toNat_eq
  rw [groupOf, BitVec.toNat_ofNat, slotOf_toNat h]
  omega

/-- Latching moves the straps and the Balcony alone. -/
theorem Card.latch_frame (c : Card) (k : ReadKind) (v : StrapSet) :
    (c.latch k v).phase = c.phase ∧ (c.latch k v).alcove = c.alcove := by
  simp [Card.latch]

/-- What the power-up read latches: every contact, and from them the slot address, the group, TWN and LNS (R117). -/
theorem Card.latch_powerUp_straps (c : Card) (v : StrapSet) :
    (c.latch .powerUp v).straps = { c.straps with
      vals := v, lastRead := some .powerUp, reading := none, slot := slotOf v, group := groupOf v,
      twn := v.twn.level, lns := v.lns.level } := by
  simp [Card.latch]

/-- The loader starts on a POWERED-UNCLOCKED card with the first alcove (R139). -/
theorem Card.startLoading_loads {c : Card} (h : c.phase = .poweredUnclocked) :
    c.startLoading.phase = .loading ∧ c.startLoading.straps = c.straps ∧
      c.startLoading.alcove = { c.alcove with trying := some (c.alcove.first, false) } := by
  simp [Card.startLoading, h]

/-- The power-up read of a POWERED-UNCLOCKED card ends in LOADING with its values latched. -/
theorem Card.endRead_powerUp {c : Card} (v : StrapSet) (h : c.phase = .poweredUnclocked) :
    (c.endRead .powerUp v).phase = .loading ∧ (c.endRead .powerUp v).straps = (c.latch .powerUp v).straps ∧
      (c.endRead .powerUp v).alcove = { c.alcove with trying := some (c.alcove.first, false) } := by
  obtain ⟨hphase, halcove⟩ := c.latch_frame .powerUp v
  obtain ⟨loading, straps, alcove⟩ := Card.startLoading_loads (hphase.trans h)
  exact ⟨loading, straps, by rw [← halcove]; exact alcove⟩

/-- Events entering the trace queue leave the state, the straps and the alcoves alone. -/
theorem Card.enterEvents_frame (c : Card) (n : Nat) :
    (c.enterEvents n).phase = c.phase ∧ (c.enterEvents n).straps = c.straps ∧
      (c.enterEvents n).alcove = c.alcove := by
  have h := c.enterEvents_rest n
  exact ⟨congrArg Rest.phase h, congrArg Rest.straps h, congrArg Rest.alcove h⟩

/-- Settles O14: every contact covered is stable, so the read ends with each contact's level, the slot address and the
group follow from the three address levels, and the loader starts. -/
theorem stablePassLatches : Obligations.StablePassLatches := by
  unfold Obligations.StablePassLatches
  intro s p n g l hr hphase hclk h
  let v := g.putStable p l allStraps
  have latched (i : StrapId) : v.get i = stableVal p l i := g.putStable_allStraps_get p l i
  have hadh : v.adh = stableVal p l .adh := latched .adh
  have hadm : v.adm = stableVal p l .adm := latched .adm
  have hadl : v.adl = stableVal p l .adl := latched .adl
  have stable : addrUnstable v = false := by simp [addrUnstable, hadh, hadm, hadl, stableVal]
  have ends : s.card.strapPass p = s.card.endRead .powerUp v := Card.strapPass_stable hr hclk fun i _ => h i
  obtain ⟨loading, straps, alcove⟩ := Card.endRead_powerUp v hphase
  obtain ⟨ephase, estraps, ealcove⟩ := (s.card.endRead .powerUp v).enterEvents_frame s.card.bal.queue.length
  refine ⟨{ s with card := (s.card.endRead .powerUp v).enterEvents s.card.bal.queue.length },
    ?_, ephase.trans loading, ?_⟩
  · rw [← ends]; rfl
  · simp only [estraps, ealcove, straps, alcove, Card.latch_powerUp_straps, latched, slotOf_toNat stable,
      groupOf_eq_adh stable, hadh, hadm, hadl]
    simp [stableVal]

end Sys2Proof.Machine

/-! The card's state (R136, R139): what each operation that may change it does to it, and the rows of the table it
follows. -/

namespace Sys2Proof.Machine

open Sys2Proof

/-! One row of the table. -/

/-- The card `d` is in the state `c` was in, or it has gone from the state `p` to the state `q`. -/
def Turns (p q : Phase) (c d : Card) : Prop := d.keep.phase = c.keep.phase ∨ c.keep.phase = p ∧ d.keep.phase = q

/-- The card has stayed in its state. -/
theorem Turns.stays {p q : Phase} {c d : Card} (h : d.keep.phase = c.keep.phase) : Turns p q c d := .inl h

/-- The card has taken the row. -/
theorem Turns.moves {p q : Phase} {c d : Card} (hp : c.keep.phase = p) (hq : d.keep.phase = q) : Turns p q c d :=
  .inr ⟨hp, hq⟩

/-- Two pieces of work that each stay or take the row do so together. -/
theorem Turns.trans {p q : Phase} {c d e : Card} (h : Turns p q c d) (h' : Turns p q d e) : Turns p q c e := by
  rcases h' with stay | ⟨back, there⟩
  · rcases h with stay' | ⟨here, there⟩
    · exact .stays (stay.trans stay')
    · exact .moves here (stay.trans there)
  · rcases h with stay' | ⟨here, -⟩
    · exact .moves (stay'.symm.trans back) there
    · exact .moves here there

/-- Work that leaves the state alone may come before. -/
theorem Turns.after {p q : Phase} {c d e : Card} (h : Turns p q d e) (hd : d.keep.phase = c.keep.phase) :
    Turns p q c e := Turns.trans (.stays hd) h

/-- Work that leaves the state alone may follow. -/
theorem Turns.before {p q : Phase} {c d e : Card} (h : Turns p q c d) (he : e.keep.phase = d.keep.phase) :
    Turns p q c e := h.trans (.stays he)

theorem Turns.foldl {α : Type} {p q : Phase} (f : Card → α → Card) (h : ∀ c x, Turns p q c (f c x)) (l : List α)
    (c : Card) : Turns p q c (l.foldl f c) := by
  induction l generalizing c with
  | nil => exact .stays rfl
  | cons a r ih => exact (h c a).trans (ih _)

/-! Power-up and loading (R110, R549, R602). -/

theorem Card.softStartEnd_turns (c : Card) : Turns .absent .poweredUnclocked c c.softStartEnd := by
  unfold Card.softStartEnd
  split
  · next h => exact .moves h.1 (by simp)
  · exact .stays rfl

theorem Card.startLoading_turns (c : Card) : Turns .poweredUnclocked .loading c c.startLoading := by
  unfold Card.startLoading
  split
  · exact .stays rfl
  · next h => exact .moves (not_not.mp h) (by simp)

/-- LOADING ends in LINK-TRAINING or in FAULT. -/
theorem Card.copyComplete_turns (c : Card) :
    Turns .loading .linkTraining c c.copyComplete ∨ Turns .loading .fault c c.copyComplete := by
  unfold Card.copyComplete
  split
  · next h =>
    split
    · dsimp only
      split
      · split
        · exact .inl (.moves h.1 (by simp))
        · exact .inr (.moves h.1 (by simp [Card.loadFault]))
      · split
        · exact .inr (.moves h.1 (by simp [Card.loadFault]))
        · exact .inl (.stays (by simp [Keep.parts]))
    · exact .inl (.stays rfl)
  · exact .inl (.stays rfl)

theorem Card.firstMarker_turns (c : Card) : Turns .linkTraining .readyUnmounted c c.firstMarker := by
  unfold Card.firstMarker
  split
  · split
    · dsimp only
      split
      · next h => exact .moves h (by simp)
      · exact .stays (by simp [Keep.parts])
    · exact .stays rfl
  · exact .stays rfl

/-! Loss of the clock. -/

theorem Card.loseMap_phase (c : Card) : c.loseMap.keep.phase = .readyUnmounted := by
  simp [Card.loseMap]

/-- The absence detector takes a card out of MOUNTING or MOUNTED alone (R35). -/
theorem Card.absenceTrip_turns (c : Card) :
    Turns .mounting .readyUnmounted c c.absenceTrip ∨ Turns .mounted .readyUnmounted c c.absenceTrip := by
  unfold Card.absenceTrip
  split
  · exact .inl (.stays rfl)
  · dsimp only
    split
    · next h =>
      simp only [Keep.parts, Card.cutAnneals_keep, Card.setPower_keeps] at h
      rcases h with mounted | mounting
      · exact .inr (.moves mounted (Card.loseMap_phase _))
      · exact .inl (.moves mounting (Card.loseMap_phase _))
    · exact .inl (.stays (by simp))

/-! Dock operations take the card out of CLOSED (R139, R166). -/

theorem Card.leaveClosed_turns (c : Card) : Turns .closed .readyUnmounted c c.leaveClosed := by
  unfold Card.leaveClosed
  split
  · next h => exact .moves h (by simp)
  · exact .stays rfl

theorem Card.formatGo_turns (c : Card) (t : Tag) : Turns .closed .readyUnmounted c (c.formatGo t) := by
  unfold Card.formatGo
  split
  · exact c.leaveClosed_turns.before (by simp)
  · exact .stays (by simp)

theorem Card.doSanitize_turns (c : Card) (f : Frame) : Turns .closed .readyUnmounted c (c.doSanitize f) := by
  unfold Card.doSanitize
  split
  · exact c.leaveClosed_turns.before (by simp)
  · exact .stays (by simp)

theorem Card.doLoad_turns (c : Card) (f : Frame) : Turns .closed .readyUnmounted c (c.doLoad f) := by
  unfold Card.doLoad
  dsimp only
  split
  · exact c.leaveClosed_turns.before (by simp)
  · exact .stays (by simp)

theorem Card.swapNow_turns (c : Card) (t : Tag) : Turns .closed .readyUnmounted c (c.swapNow t) := by
  have accepted := (c.setService none).leaveClosed_turns.after (c := c) (by simp)
  unfold Card.swapNow
  dsimp only
  split
  · split
    · exact .stays (by simp)
    · split
      · exact accepted.before (by simp)
      · split
        · exact .stays (by simp)
        · split
          · split
            · exact accepted.before (by simp [Keep.parts])
            · exact .stays (by simp)
          · exact accepted.before (by simp)
  · exact .stays (by simp)

theorem Card.doSwap_turns (c : Card) (f : Frame) : Turns .closed .readyUnmounted c (c.doSwap f) := by
  unfold Card.doSwap
  dsimp only
  split
  · exact (Card.swapNow_turns _ _).after (by simp)
  · exact .stays (by simp)

/-- Of the dock commands at work, an ALCOVE SWAP that waited alone may change the state (R543). -/
theorem Card.serviceStep_turns (c : Card) : Turns .closed .readyUnmounted c c.serviceStep := by
  by_cases waits : ∃ t, c.alcove.service = some (t, .swapCheck)
  · obtain ⟨t, ht⟩ := waits
    unfold Card.serviceStep
    simp only [ht]
    split
    · exact .stays rfl
    · exact c.swapNow_turns t
  · exact .stays (c.serviceStep_stays (not_exists.mp waits)).1

theorem Card.alcoveComplete_turns (c : Card) (ok : Bool) : Turns .closed .readyUnmounted c (c.alcoveComplete ok) := by
  unfold Card.alcoveComplete
  split
  · exact .stays rfl
  · split
    · exact .stays rfl
    · dsimp only
      split
      · exact .stays (by simp)
      · exact (Card.serviceStep_turns _).after (by simp [Keep.parts])

/-- A strap read's end: after the power-up read the loader starts, after FORMAT's the command is accepted. -/
theorem Card.endRead_turns (c : Card) (k : ReadKind) (v : StrapSet) :
    Turns .poweredUnclocked .loading c (c.endRead k v) ∨ Turns .closed .readyUnmounted c (c.endRead k v) := by
  have latched : (c.latch k v).keep.phase = c.keep.phase := by simp
  cases k with
  | powerUp => exact .inl ((Card.startLoading_turns _).after latched)
  | mount => exact .inl (.stays (by simp [Card.endRead]))
  | format =>
    unfold Card.endRead
    dsimp only
    split
    · exact .inr ((Card.formatGo_turns _ _).after latched)
    · exact .inl (.stays latched)

theorem Card.strapPass_turns (c : Card) (p : StrapPass) :
    Turns .poweredUnclocked .loading c (c.strapPass p) ∨ Turns .closed .readyUnmounted c (c.strapPass p) := by
  unfold Card.strapPass
  split
  · split
    · dsimp only
      split
      · exact c.endRead_turns _ _
      · exact .inl (.stays rfl)
    · exact .inl (.stays rfl)
  · exact .inl (.stays rfl)

/-! CLOSE (R160): it ends at once, or with the landing it made. -/

theorem Card.enterClosed_turns {c : Card} (hm : c.keep.phase = .mounted) (t : Tag) (how : Nat) :
    Turns .mounted .closed c (c.enterClosed t how) :=
  .moves hm (by simp [Card.enterClosed])

theorem Card.landingResponse_turns {c : Card} (hm : c.keep.phase = .mounted) (a : Action) (ok : Bool) :
    Turns .mounted .closed c (c.landingResponse a ok) := by
  unfold Card.landingResponse
  split
  · exact .stays rfl
  · exact .stays (by simp)
  · exact .stays (by simp)
  · split
    · exact Card.enterClosed_turns hm _ _
    · exact .stays (by simp)

theorem Card.landed_turns {c : Card} (hm : c.keep.phase = .mounted) (a : Action) (b : Bay) :
    Turns .mounted .closed c (c.landed a b) := by
  unfold Card.landed
  split
  · dsimp only
    refine Turns.before ?_ (congrArg Keep.phase (Card.stepActs_keep _))
    split
    · exact (Card.landingResponse_turns (by simpa [Keep.parts] using hm) _ _).after (by simp [Keep.parts])
    · refine Turns.before ?_ (congrArg Keep.phase (Card.twinEnd_keep _ _ _))
      exact (Card.landingResponse_turns (by simpa [Keep.parts] using hm) _ _).after (by simp [Keep.parts])
  · exact .stays rfl

/-- The card holds landings and rollbacks only while MOUNTED (R143). -/
theorem Card.actAt_mounted {c : Card} {k : Nat} {a : Action} (h : c.actAt k = some a) : c.keep.phase = .mounted := by
  unfold Card.actAt at h
  split at h
  · assumption
  · cases h

theorem Card.programmed_turns (c : Card) (k : Nat) (b : Bay) : Turns .mounted .closed c (c.programmed k b) := by
  unfold Card.programmed
  dsimp only
  refine Turns.before ?_ (congrArg Keep.phase (Card.advanceGallery_keep _ _ _))
  split
  · next a ha =>
    split
    · exact .stays (by rw [Card.rolledBack_keep]; split <;> simp)
    · exact (Card.landed_turns (Card.actAt_mounted ha) a b).after (by split <;> simp)
  · exact .stays (by split <;> simp)

theorem Card.programEnd_turns (c : Card) (k : Nat) (b : Bay) (r : ProgReport) :
    Turns .mounted .closed c (c.programEnd k b r) := by
  unfold Card.programEnd
  dsimp only
  split
  · exact .stays (by simp)
  · cases r.ok with
    | false => exact .stays (by simp)
    | true =>
      simp only [Bool.not_true, Bool.false_eq_true, if_false, if_true]
      split
      · exact .stays (by simp)
      · exact (Card.programmed_turns _ _ _).after (by simp)

theorem Card.programTaken_turns (c : Card) (h d : Nat) (r : ProgReport) :
    Turns .mounted .closed c (c.programTaken h d r) := by
  unfold Card.programTaken
  dsimp only
  split
  · split
    · refine Turns.before ?_ (congrArg Keep.phase (Card.nextOn_keep _ _))
      exact (Card.programEnd_turns _ _ _ _).after (by simp)
    · exact .stays (by simp)
  · exact .stays rfl

theorem Card.programComplete_turns (c : Card) (h d : Nat) (r : ProgReport) :
    Turns .mounted .closed c (c.programComplete h d r) := by
  unfold Card.programComplete Card.dieReport
  split
  · exact .stays (by simp)
  · split
    · exact c.programTaken_turns h d r
    · split
      · exact .stays (by simp)
      · exact .stays rfl

theorem Card.takeLate_turns (c : Card) (n : Nat) : Turns .mounted .closed c (c.takeLate n) := by
  unfold Card.takeLate
  split
  · exact .stays rfl
  · dsimp only
    split
    · exact (Card.programTaken_turns _ _ _ _).after (by simp)
    · exact .stays (by simp)
    · exact .stays (by simp)
    · exact .stays (by simp)

theorem Card.takeAllLate_turns (c : Card) : Turns .mounted .closed c c.takeAllLate :=
  (Turns.foldl Card.takeLate Card.takeLate_turns _ c).before (congrArg Keep.phase (Card.pumpAll_keep _))

/-- HCLK's return changes the state where a die had ended a CLOSE's landing bay meanwhile. -/
theorem Card.hclkReturn_turns (c : Card) : Turns .mounted .closed c c.hclkReturn := by
  unfold Card.hclkReturn
  split
  · exact .stays rfl
  · dsimp only
    split
    · exact .stays (by simp)
    · exact (Card.takeAllLate_turns _).after (by simp [Keep.parts])

theorem Card.doClose_turns {c : Card} (hs : c.keep.phase = .mounted ∨ c.keep.phase = .closed) (f : Frame) :
    Turns .mounted .closed c (c.doClose f) := by
  unfold Card.doClose
  split
  · exact .stays (by simp)
  · next hn =>
    have hm : c.keep.phase = .mounted := hs.resolve_right hn
    split
    · exact .stays (by simp)
    · split
      · exact (Card.enterClosed_turns (by simp [hm]) _ _).after (by simp)
      · split
        · exact (Card.enterClosed_turns (by simp [hm]) _ _).after (by simp)
        · split
          · exact .stays (by simp)
          · exact .stays (by simp)

/-! MOUNT and FORCE CLOSE (R150, R167). -/

/-- MOUNT begins in whichever state it is served. -/
theorem Card.doMount_turns (c : Card) (f : Frame) : Turns c.keep.phase .mounting c (c.doMount f) := by
  unfold Card.doMount
  split
  · exact .stays (by simp)
  · exact .moves rfl (by simp [Card.beginMount])

theorem Card.endMount_phase (c : Card) (t : Tag) (e : TagEntry) (fast : Bool) (u : Nat) :
    (c.endMount t e fast u).keep.phase = .mounted := by
  simp [Card.endMount]

theorem Card.mountComplete_turns (c : Card) (r : ScanReport) : Turns .mounting .mounted c (c.mountComplete r) := by
  unfold Card.mountComplete
  split
  · next h =>
    split
    · split
      · exact .moves h.1 (Card.endMount_phase _ _ _ _ _)
      · split
        · exact .stays rfl
        · exact .moves h.1 (Card.endMount_phase _ _ _ _ _)
    · exact .stays rfl
  · exact .stays rfl

/-- FORCE CLOSE ends in READY-UNMOUNTED from wherever it is served. -/
theorem Card.doForceClose_phase (c : Card) (f : Frame) : (c.doForceClose f).keep.phase = .readyUnmounted := by
  unfold Card.doForceClose
  split
  · next h => simpa [Keep.parts] using h
  · simp [Card.forceClose]

/-! The table as a whole. -/

/-- By the table of R139 a card in state `p` may be in state `q` after the event. -/
def tableAllows (i : Instr) (p q : Phase) : Prop := q = p ∨ turns i p q = true

theorem tableAllows_refl (i : Instr) (p : Phase) : tableAllows i p p := .inl rfl

theorem Turns.allowed {i : Instr} {p q : Phase} {c d : Card} (h : Turns p q c d) (row : turns i p q = true) :
    tableAllows i c.keep.phase d.keep.phase := by
  rcases h with stay | ⟨here, there⟩
  · exact .inl stay
  · rw [here, there]
    exact .inr row

/-! Frames: a command's chapter is reached in the states that serve it (R142, R245). -/

theorem Card.begin_allowed {i : Instr} (c : Card) (op : Byte) (f : Frame) (k : Cmd)
    (body : Card → Card) (hs : c.step7 op f = none)
    (hb : ∀ d : Card, d.step7 op f = none → tableAllows i d.keep.phase (body d).keep.phase) :
    tableAllows i c.keep.phase (c.begin op f k body).keep.phase := by
  have same : (c.taken op f k).keep.phase = c.keep.phase := by simp
  unfold Card.begin
  dsimp only
  split
  · exact same ▸ hb _ (by simpa [Card.step7] using hs)
  · simpa using tableAllows_refl _ _

theorem Card.newCommand_allowed {i : Instr} (c : Card) (op : Byte) (f : Frame) (k : Cmd)
    (body : Card → Card) (hb : ∀ d : Card, d.step7 op f = none → tableAllows i d.keep.phase (body d).keep.phase) :
    tableAllows i c.keep.phase (c.newCommand op f k body).keep.phase := by
  have same : (c.countTaken f.port).keep.phase = c.keep.phase := by simp
  unfold Card.newCommand
  dsimp only
  split
  · simpa using tableAllows_refl _ _
  · split
    · simpa using tableAllows_refl _ _
    · split
      · simpa using tableAllows_refl _ _
      · next served => exact same ▸ Card.begin_allowed _ op f k body served hb

/-- A frame stays within the table where its command's chapter does so in the states that serve the command. -/
theorem Card.receive_allowed {i : Instr} (c : Card) (op : Byte) (f : Frame) (k : Cmd)
    (body : Card → Card) (hb : ∀ d : Card, d.step7 op f = none → tableAllows i d.keep.phase (body d).keep.phase) :
    tableAllows i c.keep.phase (c.receive op f k body).keep.phase := by
  unfold Card.receive
  split
  · exact tableAllows_refl _ _
  · split
    · simpa using tableAllows_refl _ _
    · split
      · exact c.newCommand_allowed op f k body hb
      · split
        · simpa using tableAllows_refl _ _
        · split
          · split
            · simpa using tableAllows_refl _ _
            · simpa using tableAllows_refl _ _
          · exact c.newCommand_allowed op f k body hb

/-- Step 7 lets a command other than INQUIRE through only in a state that serves it. -/
theorem Card.step7_served {c : Card} {op : Byte} {f : Frame} (hi : op ≠ opInquire) (h : c.step7 op f = none) :
    stateAnswer c.keep.phase op f.arg.toNat = none := by
  simp only [Card.step7, hi, false_and, if_false] at h
  split at h
  · cases h
  · exact h

theorem served_mount {p : Phase} {n : Nat} (h : stateAnswer p opMount n = none) :
    p = .readyUnmounted ∨ p = .closed := by
  cases p <;> simp +decide [stateAnswer] at h ⊢

theorem served_close {p : Phase} {n : Nat} (h : stateAnswer p opClose n = none) : p = .mounted ∨ p = .closed := by
  cases p <;> simp +decide [stateAnswer] at h ⊢

theorem served_forceClose {p : Phase} {n : Nat} (h : stateAnswer p opForceClose n = none) :
    p = .readyUnmounted ∨ p = .mounting ∨ p = .mounted ∨ p = .closed := by
  cases p <;> simp +decide [stateAnswer] at h ⊢

/-! The meanings, held to the table. -/

/-- A meaning does to the state what its function of the card does: the trace queue is not its concern. -/
theorem run_allows {i : Instr} (f : Card → Card) {s t : State} (h : run f s = .next t)
    (hf : tableAllows i s.card.keep.phase (f s.card).keep.phase) :
    tableAllows i s.card.keep.phase t.card.keep.phase := by
  obtain rfl := Host.Outcome.next.inj h
  simpa using hf

theorem run_turns {i : Instr} (f : Card → Card) {p q : Phase} {s t : State} (h : run f s = .next t)
    (hf : Turns p q s.card (f s.card)) (row : turns i p q = true) : tableAllows i s.card.keep.phase t.card.keep.phase :=
  run_allows f h (hf.allowed row)

/-- A command frame does what its chapter does in the states that serve it. -/
theorem run_receive {i : Instr} {op : Byte} {f : Frame} {k : Cmd} {body : Card → Card} {s t : State}
    (h : run (fun c => c.receive op f k body) s = .next t)
    (hb : ∀ d : Card, d.step7 op f = none → tableAllows i d.keep.phase (body d).keep.phase) :
    tableAllows i s.card.keep.phase t.card.keep.phase :=
  run_allows _ h (s.card.receive_allowed op f k body hb)

theorem run_receive_stays {i : Instr} {op : Byte} {f : Frame} {k : Cmd} {body : Card → Card} {s t : State}
    (h : run (fun c => c.receive op f k body) s = .next t) (hb : ∀ d : Card, (body d).keep.phase = d.keep.phase) :
    tableAllows i s.card.keep.phase t.card.keep.phase :=
  run_receive h fun d _ => .inl (hb d)

/-- A row's message on SYNC leaves the state alone where its action does; so does the message taken before it. -/
theorem run_syncRow_stays {i : Instr} {type : Byte} {m : SyncMsg} {act : Card → Card} {s t : State}
    (h : run (fun c => c.syncRow type m act) s = .next t) (ha : ∀ d : Card, (act d).keep.phase = d.keep.phase) :
    tableAllows i s.card.keep.phase t.card.keep.phase :=
  run_allows _ h (.inl (Card.syncRow_of Keep.phase _ _ _ _ (by simp) ha))

/-- A training request leaves the state alone where what it asks for does (R607). -/
theorem Card.request_phase (c : Card) (seq : BitVec 4) (body : Card → Card × Bool)
    (hb : (body c).1.keep.phase = c.keep.phase) : (c.request seq body).keep.phase = c.keep.phase := by
  unfold Card.request
  split
  · exact hb
  · rfl

theorem run_request_stays {i : Instr} {seq : BitVec 4} {body : Card → Card × Bool} {s t : State}
    (h : run (fun c => c.request seq body) s = .next t) (hb : ∀ d : Card, (body d).1.keep.phase = d.keep.phase) :
    tableAllows i s.card.keep.phase t.card.keep.phase :=
  run_allows _ h (.inl (Card.request_phase _ _ _ (hb _)))

theorem execMount_allows {f : Frame} {s t : State} (h : execMount f s = .next t) :
    tableAllows (.mount f) s.card.keep.phase t.card.keep.phase := by
  refine run_receive h fun d hs => (d.doMount_turns f).allowed ?_
  rcases served_mount (Card.step7_served (by decide) hs) with e | e <;> rw [e] <;> rfl

theorem execClose_allows {f : Frame} {s t : State} (h : execClose f s = .next t) :
    tableAllows (.close f) s.card.keep.phase t.card.keep.phase :=
  run_receive h fun _ hs => (Card.doClose_turns (served_close (Card.step7_served (by decide) hs)) f).allowed rfl

theorem execForceClose_allows {f : Frame} {s t : State} (h : execForceClose f s = .next t) :
    tableAllows (.forceClose f) s.card.keep.phase t.card.keep.phase := by
  refine run_receive h fun d hs => ?_
  rw [d.doForceClose_phase f]
  rcases served_forceClose (Card.step7_served (by decide) hs) with e | e | e | e <;> rw [e]
  · exact tableAllows_refl _ _
  all_goals exact .inr rfl

/-- The table has ABSENT reached from every other state when power goes (R60, R77). -/
theorem tableAllows_absent {i : Instr} (hi : i = .pdcBreak ∨ i = .vmUndervoltageTrip) (p : Phase) :
    tableAllows i p .absent := by
  by_cases hp : p = .absent
  · exact .inl hp.symm
  · rcases hi with rfl | rfl <;> exact .inr (by simp [turns, hp])

/-- Every command leaves the card in a state the table allows. -/
theorem exec_allows {i : Instr} {s t : State} (h : exec i s = .next t) :
    tableAllows i s.card.keep.phase t.card.keep.phase := by
  cases i with
  -- the events of the table
  | softStartEnd => exact run_turns Card.softStartEnd h s.card.softStartEnd_turns rfl
  | strapReadPassEnd p =>
    exact run_allows (·.strapPass p) h ((s.card.strapPass_turns p).elim (·.allowed rfl) (·.allowed rfl))
  | alcoveCopyComplete =>
    exact run_allows Card.copyComplete h (s.card.copyComplete_turns.elim (·.allowed rfl) (·.allowed rfl))
  | firstH2cMarker => exact run_turns Card.firstMarker h s.card.firstMarker_turns rfl
  | mount f => exact execMount_allows h
  | mountComplete r => exact run_turns (·.mountComplete r) h (s.card.mountComplete_turns r) rfl
  | close f => exact execClose_allows h
  | programComplete hall die r =>
    exact run_turns (·.programComplete hall.toNat die.toNat r) h (s.card.programComplete_turns _ _ r) rfl
  | hclkReturn => exact run_turns Card.hclkReturn h s.card.hclkReturn_turns rfl
  | hclkAbsenceDetectorTrip =>
    exact run_allows Card.absenceTrip h (s.card.absenceTrip_turns.elim (·.allowed rfl) (·.allowed rfl))
  | forceClose f => exact execForceClose_allows h
  | sanitize f => exact run_receive h fun d _ => (d.doSanitize_turns f).allowed rfl
  | alcoveLoad f => exact run_receive h fun d _ => (d.doLoad_turns f).allowed rfl
  | alcoveSwap f => exact run_receive h fun d _ => (d.doSwap_turns f).allowed rfl
  | alcoveOperationComplete ok => exact run_turns (·.alcoveComplete ok) h (s.card.alcoveComplete_turns ok) rfl
  | pdcBreak => exact run_allows Card.pdcBreak h (s.card.pdcBreak_keeps.1 ▸ tableAllows_absent (.inl rfl) _)
  | vmUndervoltageTrip => exact run_allows Card.vmTrip h (s.card.vmTrip_keeps.1 ▸ tableAllows_absent (.inr rfl) _)
  -- command frames that leave the state alone
  | read _ | readStream _ | stop _ | verify _ | write _ | discardZ _ | discardH _ | land _ | rollback _ | service _
  | quiet _ | inquire _ | format _ => exact run_receive_stays h (by simp)
  -- messages on SYNC
  | syncSetTread _ | syncCheckTread _ | syncLand _ | syncRollback _ | syncService _ | syncQuiet _ | syncMark _ =>
    exact run_syncRow_stays h (by simp)
  -- a frame of no listed opcode
  | unlistedOpcode op f =>
    cases h
    have same : (s.card.receive op f .timed id).keep.phase = s.card.keep.phase :=
      Card.receive_of Keep.phase _ _ _ _ _ fun _ => rfl
    exact .inl (by split <;> simp [same])
  -- training requests
  | trainingHold seq => exact run_request_stays h fun _ => rfl
  | setPreset seq lane preset => exact run_request_stays h fun _ => by split <;> rfl
  | ready seq laneCode => exact run_request_stays h fun _ => by split <;> simp
  -- three events whose row has a condition of its own
  | reservedTrainingRequest _ _ | descriptorQueued _ | characterOutsideFrame _ =>
    cases h
    exact .inl (by dsimp only; split <;> simp)
  -- every other event is one operation of the model, which leaves the state alone
  | _ =>
    cases h
    exact .inl (by simp)

/-- Settles O5, command by command: an operation that may change the state follows rows of the table, the rest leave the
state alone. -/
theorem stateChangesOnlyByTable : Obligations.StateChangesOnlyByTable := by
  unfold Obligations.StateChangesOnlyByTable
  intro i s t h
  exact exec_allows h

end Sys2Proof.Machine

/-! READY (R206, R207, R223): the lane counts the card accepts, and what a request it acts on leaves. -/

namespace Sys2Proof.Machine

open Sys2Proof

/-! The lane count of a READY (R206). -/

/-- The lane codes of R206 are the counts themselves. -/
theorem laneCount_eq_some_iff {code : BitVec 3} {n : Nat} :
    laneCount code = some n ↔ n = code.toNat ∧ (n = 1 ∨ n = 2 ∨ n = 4) := by
  unfold laneCount
  split_ifs with one two four
  case pos | pos | pos => simp only [Option.some.injEq]; bv_omega
  case neg => simp only [false_iff]; bv_omega

theorem laneMask_getLsbD (n k : Nat) : (laneMask n).getLsbD k = (decide (k < 4) && decide (k < n)) := by
  simp [laneMask, BitVec.getLsbD_ofNat, Nat.testBit_two_pow_sub_one]

/-- No lane below `n` is missing from the mask `m`. -/
theorem laneMask_covered_iff {n : Nat} (hn : n ≤ 4) (m : BitVec 4) :
    laneMask n &&& ~~~m = 0 ↔ ∀ k, k < n → m.getLsbD k = true := by
  constructor
  · intro h k hk
    have bit : (laneMask n &&& ~~~m).getLsbD k = false := by simp [h]
    simpa [laneMask_getLsbD, hk, Nat.lt_of_lt_of_le hk hn] using bit
  · intro h
    refine BitVec.eq_of_getLsbD_eq fun k hk => ?_
    by_cases below : k < n
    · simp [h k below]
    · simp [laneMask_getLsbD, below]

/-- A READY may bring up `n` lanes exactly where R206's condition holds. -/
theorem Card.readyCount_eq_some_iff {c : Card} {code : BitVec 3} {n : Nat} :
    c.readyCount code = some n ↔ n = code.toNat ∧
      (n = 1 ∨ n = 2 ∨ n = 4) ∧ n ≤ c.laneCap ∧ ∀ k, k < n → c.link.trained.getLsbD k = true := by
  rw [← and_assoc, ← laneCount_eq_some_iff]
  unfold Card.readyCount
  cases coded : laneCount code with
  | none => simp
  | some m =>
    have listed : m = 1 ∨ m = 2 ∨ m = 4 := (laneCount_eq_some_iff.mp coded).2
    have four : m ≤ 4 := by omega
    simp only [laneMask_covered_iff four, Option.ite_none_right_eq_some, Option.some.injEq]
    constructor
    · rintro ⟨cond, rfl⟩
      exact ⟨rfl, cond⟩
    · rintro ⟨rfl, cond⟩
      exact ⟨cond, rfl⟩

/-! A request the card acts on (R203, R607). -/

/-- The card does what the request asks for, and notes its sequence and its result. -/
theorem Card.request_taken {c : Card} {seq : BitVec 4} (body : Card → Card × Bool) (train : c.trainable = true)
    (fresh : c.link.reqSeq ≠ some seq) :
    c.request seq body = { (body c).1 with link := { (body c).1.link with
      reqSeq := some seq, reqResult := if (body c).2 then .accepted else .refused } } := by
  unfold Card.request
  rw [if_pos ⟨train, fresh⟩]

/-- Where a step makes no event the trace queue stays. -/
theorem Card.enterEvents_eq_self {c : Card} {n : Nat} (h : c.bal.queue.length ≤ n) : c.enterEvents n = c := by
  unfold Card.enterEvents
  rw [if_pos h]

/-- Events entering the trace queue leave the link and what has been sent alone. -/
theorem Card.enterEvents_link_out (c : Card) (n : Nat) :
    (c.enterEvents n).link = c.link ∧ (c.enterEvents n).out = c.out :=
  ⟨congrArg Rest.link (c.enterEvents_rest n), congrArg Rest.out (c.enterEvents_rest n)⟩

/-! An accepted READY (R184, R207, R223). -/

theorem Card.goReady_link (c : Card) (n : Nat) : (c.goReady n).link =
    { c.link with mode := .accepted n, lanes := n, retrainReq := false, txMarker := 1 } := by
  simp [Card.goReady]

theorem Card.goReady_out (c : Card) (n : Nat) :
    (c.goReady n).out = .marker n 0 :: .training c.laneCap false :: c.out := by
  simp [Card.goReady, Card.send, Card.laneCap]

/-- Settles O19: the lane code is a count the card accepts exactly where R206's condition holds; an accepted READY then
leaves the link and the frames sent as `goReady` does, and a refused one makes no event. -/
theorem readyRule : Obligations.ReadyRule := by
  unfold Obligations.ReadyRule
  intro s seq lc train fresh n fit
  have count {m : Nat} : s.card.readyCount lc = some m ↔ m = n ∧ fit := by
    rw [Card.readyCount_eq_some_iff]
    exact and_congr_right fun e => by subst e; rfl
  refine ⟨fun hfit => ?_, fun hfit => ?_⟩
  · have some_n : s.card.readyCount lc = some n := count.mpr ⟨rfl, hfit⟩
    refine ⟨_, rfl, ?_⟩
    simp [Card.enterEvents_link_out, Card.request_taken _ train fresh, some_n, Card.goReady_link, Card.goReady_out]
  · have none_m : s.card.readyCount lc = none := Option.eq_none_iff_forall_ne_some.mpr fun m h => hfit (count.mp h).2
    simp [exec, execReady, run, Card.request_taken _ train fresh, none_m, Card.enterEvents_eq_self]

end Sys2Proof.Machine

/-! OK-DUPLICATE (R245 step 3, R246): the frame of a completed command, sent again, is answered out of the tag table. -/

namespace Sys2Proof.Machine

open Sys2Proof

/-! Tracing moves the Balcony alone (R578 to R585). -/

/-- The card `d` is the card `c` but for its Balcony. -/
def BalconyOnly (c d : Card) : Prop := ∃ b, d = { c with bal := b }

theorem BalconyOnly.refl (c : Card) : BalconyOnly c c := ⟨c.bal, rfl⟩

theorem BalconyOnly.trans {c d e : Card} (h : BalconyOnly c d) (h' : BalconyOnly d e) : BalconyOnly c e := by
  obtain ⟨_, rfl⟩ := h
  obtain ⟨b, rfl⟩ := h'
  exact ⟨b, rfl⟩

theorem BalconyOnly.foldl {α : Type} (f : Card → α → Card) (h : ∀ c x, BalconyOnly c (f c x)) (l : List α) (c : Card) :
    BalconyOnly c (l.foldl f c) := by
  induction l generalizing c with
  | nil => exact .refl c
  | cons x l ih => exact (h c x).trans (ih _)

theorem Card.bump_balconyOnly (c : Card) (n k : Nat) : BalconyOnly c (c.bump n k) := ⟨_, rfl⟩

theorem Card.ev_balconyOnly (c : Card) (n : Nat) (bs : List Byte) : BalconyOnly c (c.ev n bs) := by
  unfold Card.ev
  split
  · exact ⟨_, rfl⟩
  · exact .refl c

theorem Card.enterEvent_balconyOnly (c : Card) (e : BalRec) : BalconyOnly c (c.enterEvent e) := by
  unfold Card.enterEvent
  split
  · exact ⟨_, rfl⟩
  · split
    · exact ⟨_, rfl⟩
    · exact ⟨_, rfl⟩

theorem Card.enterEvents_balconyOnly (c : Card) (n : Nat) : BalconyOnly c (c.enterEvents n) := by
  unfold Card.enterEvents
  split
  · exact .refl c
  · have cut : BalconyOnly c { c with bal := { c.bal with queue := c.bal.queue.take n } } := ⟨_, rfl⟩
    exact cut.trans (.foldl Card.enterEvent Card.enterEvent_balconyOnly _ _)

theorem Card.traceFinal_balconyOnly (c : Card) (p : Port) (t : Tag) (st : Status) (info : BitVec 24) (z : Bool) :
    BalconyOnly c (c.traceFinal p t st info z) := by
  unfold Card.traceFinal
  split
  · exact (c.bump_balconyOnly 80 1).trans (Card.ev_balconyOnly _ _ _)
  · exact c.ev_balconyOnly _ _

/-! A response is sent (R235, R239, R240). -/

/-- A response on a port that is there moves the ports and the log of what is sent alone. -/
theorem Card.respond_eq {c : Card} {p : Port} (kind : BitVec 2) (code : BitVec 6) (st : Status) (info : BitVec 24)
    (z : Bool) (up : c.portUp p = true) : c.respond p kind code st info z =
      { c with ports := (c.respond p kind code st info z).ports, out := c.respNow p kind code st info z :: c.out } := by
  unfold Card.respond
  rw [if_pos up]
  cases p <;> rfl

/-- A final response, once its events have entered the trace queue, has been sent as the card builds it, and has moved
nothing but its port's sequence and the Balcony. -/
theorem Card.sendFinal_enterEvents {c : Card} {p : Port} (t : Tag) (st : Status) (info : BitVec 24) (z : Bool) (n : Nat)
    (up : c.portUp p = true) : BalconyOnly
      { c with ports := (c.respond p 0 t st info z).ports, out := c.respNow p 0 t st info z :: c.out }
      ((c.sendFinal p t st info z).enterEvents n) :=
  Card.respond_eq 0 t st info z up ▸
    (Card.traceFinal_balconyOnly _ p t st info z).trans (Card.enterEvents_balconyOnly _ n)

/-- A port that receives frames is there to answer on (R54). -/
theorem Card.portUp_of_receives {c : Card} {p : Port} (h : c.receives p = true) : c.portUp p = true := by
  simp only [Card.receives, Bool.and_eq_true] at h
  exact h.1.2

/-! The answer's info bytes (R246). -/

/-- Three bytes put together as info are read back one by one. -/
theorem infoByte_info3 (x y z : Byte) :
    infoByte (info3 x.toNat y.toNat z.toNat) 0 = x ∧ infoByte (info3 x.toNat y.toNat z.toNat) 1 = y ∧
      infoByte (info3 x.toNat y.toNat z.toNat) 2 = z := by
  have hx := x.isLt
  have hy := y.isLt
  have hz := z.isLt
  refine ⟨?_, ?_, ?_⟩ <;> apply BitVec.eq_of_toNat_eq <;>
    simp [infoByte, info3, Nat.shiftRight_eq_div_pow] <;> omega

/-! R245 up to step 3. -/

/-- Every command frame goes through R245 (R308). -/
theorem exec_command {i : Instr} {op : Byte} {f : Frame} (h : commandOf i = some (op, f)) :
    ∃ (k : Cmd) (body : Card → Card), ∀ s, exec i s = run (fun c => c.receive op f k body) s := by
  cases i with
  | unlistedOpcode opcode g =>
    simp only [commandOf, Option.ite_none_left_eq_some, Option.some.injEq, Prod.mk.injEq] at h
    obtain ⟨unlisted, rfl, rfl⟩ := h
    exact ⟨.timed, id, fun s => by simp [exec, execUnlistedOpcode, unlisted]⟩
  | read _ | readStream _ | stop _ | verify _ | write _ | discardZ _ | discardH _ | land _ | rollback _ | service _
  | quiet _ | mount _ | close _ | inquire _ | forceClose _ | format _ | sanitize _ | alcoveLoad _ | alcoveSwap _ =>
    cases h
    exact ⟨_, _, fun _ => rfl⟩
  | _ => cases h

/-- The frame of a completed command, sent again, does nothing but send its answer (R245 step 3, R246). -/
theorem exec_duplicate {i : Instr} {op : Byte} {f : Frame} {s : State} {e : TagEntry} {st : Status} {info : BitVec 24}
    (command : commandOf i = some (op, f)) (hears : s.card.receives f.port = true) (length : lengthOk f = true)
    (entry : s.card.tagEntry f.tag = some e) (completed : e.state = .completed st info) (issue : e.issue = f.issue)
    (same : sameFrame op f e = true) :
    exec i s = run (fun c => c.sendFinal f.port f.tag stDuplicate
      (info3 st.toNat (infoByte info 0).toNat (infoByte info 1).toNat) false) s := by
  obtain ⟨k, body, through⟩ := exec_command command
  simp [through, run, Card.receive, hears, length, entry, completed, issue, same]

/-- Settles O31: the frame reaches R245 step 3, which sends one final response; beside it only the port's sequence and
the trace move. -/
theorem duplicateAnswer : Obligations.DuplicateAnswer := by
  unfold Obligations.DuplicateAnswer
  intro i op f s e st info command hears length entry completed issue same
  let stored := info3 st.toNat (infoByte info 0).toNat (infoByte info 1).toNat
  have answer := exec_duplicate command hears length entry completed issue same
  obtain ⟨b, sent⟩ := Card.sendFinal_enterEvents f.tag stDuplicate stored false s.card.bal.queue.length
    (Card.portUp_of_receives hears)
  rw [run, sent] at answer
  obtain ⟨status, first, second⟩ := infoByte_info3 st (infoByte info 0) (infoByte info 1)
  exact ⟨_, _, answer, rfl, rfl, rfl, rfl, rfl, status, first, second, rfl,
    s.card.respond_tags f.port 0 f.tag stDuplicate stored false⟩

end Sys2Proof.Machine

/-! RANGE and the LANE-CHECK of a link that is training (R221, R260). -/

namespace Sys2Proof.Machine

open Sys2Proof

/-! What the dies execute stays while an ended command's work is dropped (R22). -/

/-- A die executes what is found for it, and nothing where it has no entry. -/
theorem Card.die_op (c : Card) (n : Nat) : (c.die n).op = (KV.find c.halls.dies n).bind Die.op := by
  unfold Card.die KV.getD
  cases KV.find c.halls.dies n <;> rfl

/-- A change of a table's entries that keeps their keys, and `h` of their values, keeps `h` of what a key finds. -/
theorem KV.find_map_bind {α β : Type} (g : Nat × α → Nat × α) (h : α → Option β) (key : ∀ x, (g x).1 = x.1)
    (value : ∀ x, h (g x).2 = h x.2) (m : KV α) (k : Nat) :
    (KV.find (m.map g) k).bind h = (KV.find m k).bind h := by
  induction m with
  | nil => rfl
  | cons x m ih =>
    rw [List.map_cons, KV.find, KV.find, key]
    split
    · exact value x
    · exact ih

/-- What each die executes. -/
def Card.dieOps (c : Card) (n : Nat) : Option Desc := (c.die n).op

theorem Card.dieOps_of_dies {c d : Card} (h : d.halls.dies = c.halls.dies) : d.dieOps = c.dieOps := by
  funext n
  simp only [Card.dieOps, Card.die, h]

@[simp] theorem Card.keepDescs_dies (c : Card) (p : Desc → Bool) : (c.keepDescs p).halls.dies = c.halls.dies :=
  foldl_same (fun c : Card => c.halls.dies) (fun c d => c.complete d .aborted) (by simp) _ _

@[simp] theorem Card.keepJobs_dies (c : Card) (p : Nat × ReadJob → Bool) : (c.keepJobs p).halls.dies = c.halls.dies := by
  simp [Card.keepJobs]

@[simp] theorem Card.endMoves_dies (c : Card) (p : MoveWhy → Bool) : (c.endMoves p).halls.dies = c.halls.dies := by
  simp [Card.endMoves]

@[simp] theorem Card.sweep_dies (c : Card) : c.sweep.halls.dies = c.halls.dies :=
  foldl_same (fun c : Card => c.halls.dies) (fun c (x : Nat × Bay) => c.untake x.1) (by simp [Card.untake]) _ _

/-- A die whose erase changes executes what it did. -/
theorem Card.setDie_erase_dieOps (c : Card) (n : Nat) (e : Option DieErase) :
    (c.setDie n { c.die n with erase := e }).dieOps = c.dieOps := by
  funext m
  simp only [Card.dieOps]
  by_cases h : m = n
  · subst h
    simp [Card.die, Card.setDie, KV.getD]
  · simp [Card.die, Card.setDie, KV.getD, KV.find_put_other _ _ h]

theorem Card.awaitErase_dieOps (c : Card) (w : Nat) : (c.awaitErase w).dieOps = c.dieOps :=
  Card.dieOps_of_dies (by simp)

theorem Card.inlineErased_dieOps (c : Card) (w : Nat) (o : EraseOwner) : (c.inlineErased w o).dieOps = c.dieOps :=
  Card.dieOps_of_dies (by simp)

/-- An erase cut short takes its ERASEs off the dies and no operation that a die executes. -/
theorem Card.cutErase_dieOps (c : Card) (w : Nat) (hs : List Nat) : (c.cutErase w hs).dieOps = c.dieOps := by
  have off (p : Desc → Bool) (l : List Nat) :=
    (foldl_same Card.dieOps (fun (d : Card) h =>
      (d.setDie (dieNo h (dieRow w)) { d.die (dieNo h (dieRow w)) with erase := none }).complete (.erase w h) .aborted)
      (fun d h => (Card.dieOps_of_dies (by simp)).trans (d.setDie_erase_dieOps (dieNo h (dieRow w)) none)) l
      (c.keepDescs p)).trans (Card.dieOps_of_dies (c.keepDescs_dies p))
  unfold Card.cutErase
  split
  · rfl
  · dsimp only
    split
    · rw [Card.inlineErased_dieOps, Card.awaitErase_dieOps]
      exact off _ _
    · exact off _ _

/-- The end of erases hands those on the dies over to a later window (R29). -/
theorem Card.endErases_dieOps (c : Card) (o : EraseOwner) : (c.endErases o).dieOps = c.dieOps := by
  have cut := foldl_same Card.dieOps (fun (c : Card) (x : Nat × WingErase) => c.cutErase x.1 (c.unbegun x.1 x.2))
    (fun d x => d.cutErase_dieOps _ _) (c.halls.erases.filter fun x => x.2.owner == o) c
  rw [← cut]
  funext n
  simp only [Card.dieOps, Card.die_op, Card.endErases]
  apply KV.find_map_bind
  all_goals
    intro x
    split
    · split <;> rfl
    · rfl

theorem Card.dropWork_dieOps (c : Card) (t : Tag) : (c.dropWork t).dieOps = c.dieOps :=
  (Card.dieOps_of_dies (Card.sweep_dies _)).trans <| (Card.endErases_dieOps _ _).trans <|
    Card.dieOps_of_dies (by simp)

/-- A command that ends leaves each die with what it executes (R24). -/
theorem Card.finish_dieOps (c : Card) (t : Tag) (st : Status) (info : BitVec 24) (z : Bool) :
    (c.finish t st info z).dieOps = c.dieOps := by
  unfold Card.finish
  split
  · split
    · exact (Card.dropWork_dieOps _ _).trans (Card.dieOps_of_dies (by simp [Card.putTag]))
    · rfl
  · rfl

/-! A command taken to step 8 that its chapter ends at once (R245 step 8). -/

/-- A frame that R245 takes to step 8 goes on to its command's chapter with its tag outstanding. -/
theorem Card.receive_of_admits {c : Card} {op : Byte} {f : Frame} (k : Cmd) (body : Card → Card)
    (admits : c.admits op f = true) : c.receive op f k body = body (c.accept op f k) := by
  simp only [Card.admits, Bool.and_eq_true, Option.isNone_iff_eq_none] at admits
  obtain ⟨⟨⟨⟨⟨⟨receives, length⟩, opened⟩, isListed⟩, entitle⟩, serves⟩, fields⟩ := admits
  have serves : (c.countTaken f.port).step7 op f = none := by simpa [Card.step7] using serves
  have new : c.newCommand op f k body = body (c.accept op f k) := by
    simp [Card.newCommand, Card.begin, Card.accept, isListed, entitle, serves, fields]
  unfold Card.receive
  unfold Card.tagOpen at opened
  simp only [receives, length, Bool.not_true, Bool.false_eq_true, if_false]
  split
  · exact new
  · next e entry =>
    simp only [entry] at opened
    split
    · next work => simp [work] at opened
    · next st info done =>
      simp only [done, bne_iff_ne] at opened
      rw [if_neg opened, new]

@[simp] theorem Card.accept_link (c : Card) (op : Byte) (f : Frame) (k : Cmd) : (c.accept op f k).link = c.link := by
  simp [Card.accept]

@[simp] theorem Card.accept_capacity (c : Card) (op : Byte) (f : Frame) (k : Cmd) :
    (c.accept op f k).capacity = c.capacity := by
  simp [Card.accept, Card.capacity, Card.profile, Card.record]

@[simp] theorem Card.accept_rangeOk (c : Card) (op : Byte) (f g : Frame) (k : Cmd) :
    (c.accept op f k).rangeOk g = c.rangeOk g := by
  simp [Card.rangeOk, Card.inRange]

theorem Card.accept_dieOps (c : Card) (op : Byte) (f : Frame) (k : Cmd) : (c.accept op f k).dieOps = c.dieOps :=
  Card.dieOps_of_dies (by simp [Card.accept])

/-- A command whose chapter ends it at once is completed with that status and info; no die's operation is touched and
no flash position changes. -/
theorem exec_ends {i : Instr} {op : Byte} {f : Frame} {k : Cmd} {body : Card → Card} {s : State} {st : Status}
    {info : BitVec 24} {z : Bool} (through : exec i s = run (fun c => c.receive op f k body) s)
    (admits : s.card.admits op f = true)
    (answer : body (s.card.accept op f k) = (s.card.accept op f k).finish f.tag st info z) :
    ∃ t, exec i s = .next t ∧ t.card.ended op f st info ∧ (∀ n, (t.card.die n).op = (s.card.die n).op) ∧
      t.card.media.cells = s.card.media.cells := by
  have cells := congrArg Keep.cells ((s.card.accept op f k).finish_keep f.tag st info z)
  have ops := ((s.card.accept op f k).finish_dieOps f.tag st info z).trans (s.card.accept_dieOps op f k)
  have ended := Card.finish_tagEntry _ f.tag st info z ((s.card.countTaken f.port).taken_tagEntry op f k) rfl
  obtain ⟨b, traced⟩ := Card.enterEvents_balconyOnly ((s.card.accept op f k).finish f.tag st info z)
    s.card.bal.queue.length
  rw [through, run, Card.receive_of_admits k body admits, answer, traced]
  refine ⟨_, rfl, ended, congrFun ops, ?_⟩
  simpa [Card.keep, Card.accept] using cells

/-- So its answer is what the tag table shows. -/
theorem exec_ended {i : Instr} {op : Byte} {f : Frame} {k : Cmd} {body : Card → Card} {s : State} {st : Status}
    {info : BitVec 24} {z : Bool} (through : exec i s = run (fun c => c.receive op f k body) s)
    (admits : s.card.admits op f = true)
    (answer : body (s.card.accept op f k) = (s.card.accept op f k).finish f.tag st info z) :
    ∃ t, exec i s = .next t ∧ t.card.ended op f st info :=
  let ⟨t, next, ended, _⟩ := exec_ends through admits answer
  ⟨t, next, ended⟩

/-! RANGE (R260). -/

theorem Card.rangeOk_eq_false_iff {c : Card} {f : Frame} : c.rangeOk f = false ↔
    f.count.toNat = 0 ∨ 640 < f.count.toNat ∨ 16 * c.capacity < f.sector.toNat + f.count.toNat := by
  simp only [Card.rangeOk, Card.inRange, Bool.and_eq_false_iff, decide_eq_false_iff_not]
  omega

section

variable {c : Card} {f : Frame} (out : c.rangeOk f = false)
include out

theorem Card.doRead_range : c.doRead f = c.finish f.tag stRange 0 false := by simp [Card.doRead, out]

theorem Card.doVerify_range : c.doVerify f = c.finish f.tag stRange 0 false := by simp [Card.doVerify, out]

/-- RANGE is the first refusal that R261 lists. -/
theorem Card.writeRefusal_range (op : Byte) : c.writeRefusal op f = some stRange := by simp [Card.writeRefusal, out]

theorem Card.doWrite_range : c.doWrite f = c.finish f.tag stRange 0 false := by
  simp [Card.doWrite, Card.writeRefusal_range out]

theorem Card.doDiscardZ_range : c.doDiscardZ f = c.finish f.tag stRange 0 false := by
  simp [Card.doDiscardZ, Card.writeRefusal_range out]

theorem Card.doDiscardH_range : c.doDiscardH f = c.finish f.tag stRange 0 false := by
  simp [Card.doDiscardH, Card.writeRefusal_range out]

end

/-- The sectors a READ STREAM returns: argument 0 means to the last one of the capacity (R259). -/
def Card.streamTotal (c : Card) (f : Frame) : Nat :=
  if f.arg = 0 then 16 * c.capacity - f.sector.toNat else f.arg.toNat

@[simp] theorem Card.accept_streamTotal (c : Card) (op : Byte) (f g : Frame) (k : Cmd) :
    (c.accept op f k).streamTotal g = c.streamTotal g := by
  simp [Card.streamTotal]

theorem Card.doStream_eq (c : Card) (f : Frame) : c.doStream f =
    if f.sector.toNat < 16 * c.capacity ∧ f.sector.toNat + c.streamTotal f ≤ 16 * c.capacity then
      c.needLanes f.tag (fun c => c.openSegment f.tag
        (.start (f.flags.getLsbD 0) f.sector.toNat (f.sector.toNat + c.streamTotal f)))
    else c.finish f.tag stRange 0 false := by
  unfold Card.doStream Card.inRange
  dsimp only
  rw [← Bool.decide_and]
  simp only [decide_eq_true_eq]
  rfl

theorem Card.doStream_range {c : Card} {f : Frame} (out : 16 * c.capacity ≤ f.sector.toNat ∨
    16 * c.capacity < f.sector.toNat + f.arg.toNat) : c.doStream f = c.finish f.tag stRange 0 false := by
  rw [Card.doStream_eq, if_neg]
  rintro ⟨first, last⟩
  have past : 16 * c.capacity < f.sector.toNat + f.arg.toNat := out.resolve_left (by omega)
  unfold Card.streamTotal at last
  split at last
  · next zero => simp [zero] at past; omega
  · omega

/-! The LANE-CHECK of a link that is training (R221). -/

section

variable {c : Card} {f : Frame} (down : c.link.mode ≠ .up)
include down

theorem Card.needLanes_down (t : Tag) (body : Card → Card) :
    c.needLanes t body = c.finish t stLaneCheck (info3 0 5 0) false := by
  simp [Card.needLanes, Card.linkUp, down, laneCheckInfo]

theorem Card.doRead_down (inside : c.rangeOk f = true) :
    c.doRead f = c.finish f.tag stLaneCheck (info3 0 5 0) false := by
  rw [Card.doRead, if_pos inside, Card.needLanes_down down]

theorem Card.doVerify_down (inside : c.rangeOk f = true) :
    c.doVerify f = c.finish f.tag stLaneCheck (info3 0 5 0) false := by
  rw [Card.doVerify, if_pos inside, Card.needLanes_down down]

theorem Card.doStream_down (nonempty : 1 ≤ c.streamTotal f)
    (inside : f.sector.toNat + c.streamTotal f ≤ 16 * c.capacity) :
    c.doStream f = c.finish f.tag stLaneCheck (info3 0 5 0) false := by
  rw [Card.doStream_eq, if_pos ⟨by omega, inside⟩, Card.needLanes_down down]

theorem Card.doWrite_down (taken : c.writeRefusal opWrite f = none) :
    c.doWrite f = c.finish f.tag stLaneCheck (info3 0 5 0) false := by
  simp only [Card.doWrite, taken, Card.needLanes_down down]

/-- On CI the page waits only while C2H lane 0 is held low (R327). -/
theorem Card.doInquire_down (ci : f.port = .ci) (hold : c.link.hold = false) :
    c.doInquire f = c.finish f.tag stLaneCheck (info3 0 5 0) false := by
  simp [Card.doInquire, ci, hold, Card.needLanes_down down]

end

/-- Settles O33: each chapter ends its command at once, with RANGE before it asks for lanes (log entry 103), and with
LANE-CHECK where it asks for them while the link trains. -/
theorem rangeAndNoLinkAnswers : Obligations.RangeAndNoLinkAnswers := by
  unfold Obligations.RangeAndNoLinkAnswers
  refine ⟨fun s f => ⟨?_, ?_⟩, fun s f down => ?_⟩
  · intro bad i op command admits
    have out : ∀ k, (s.card.accept op f k).rangeOk f = false := fun k => by
      rw [Card.accept_rangeOk]
      exact Card.rangeOk_eq_false_iff.mpr bad
    rcases command with ⟨rfl, rfl⟩ | ⟨rfl, rfl⟩ | ⟨rfl, rfl⟩ | ⟨rfl, rfl⟩ | ⟨rfl, rfl⟩
    · exact exec_ended rfl admits (Card.doRead_range (out _))
    · exact exec_ended rfl admits (Card.doVerify_range (out _))
    · exact exec_ended rfl admits (Card.doWrite_range (out _))
    · exact exec_ended rfl admits (Card.doDiscardZ_range (out _))
    · exact exec_ended rfl admits (Card.doDiscardH_range (out _))
  · intro out admits
    exact exec_ended rfl admits (Card.doStream_range (by simpa using out))
  · have down {op : Byte} {k : Cmd} : (s.card.accept op f k).link.mode ≠ .up := by simpa using down
    refine ⟨fun inside i op command admits => ?_, fun total admits length nonempty last => ?_,
      fun admits taken => exec_ended rfl admits (Card.doWrite_down down taken),
      fun admits ci hold => exec_ended rfl admits (Card.doInquire_down down ci (by simpa using hold))⟩
    · rcases command with ⟨rfl, rfl⟩ | ⟨rfl, rfl⟩
      · exact exec_ends rfl admits (Card.doRead_down down (by simpa using inside))
      · exact exec_ends rfl admits (Card.doVerify_down down (by simpa using inside))
    · change total = s.card.streamTotal f at length
      subst length
      exact exec_ended rfl admits (Card.doStream_down down (by simpa using nonempty) (by simpa using last))

end Sys2Proof.Machine

/-! The order of treads (R310, R342) and of flight numbers (R375). -/

namespace Sys2Proof.Machine

open Sys2Proof

/-- The difference of two words as the spec writes it: (a - b) mod 2^w. -/
theorem toNat_sub_eq_mod {w : Nat} (a b : BitVec w) : (a - b).toNat = (a.toNat + 2 ^ w - b.toNat) % 2 ^ w := by
  have := b.isLt
  rw [BitVec.toNat_sub, show 2 ^ w - b.toNat + a.toNat = a.toNat + 2 ^ w - b.toNat by omega]

/-- The two differences of distinct words add up to 2^w. -/
theorem toNat_sub_comm {w : Nat} {a b : BitVec w} (ne : a ≠ b) : (b - a).toNat = 2 ^ w - (a - b).toNat := by
  have pos : (a - b).toNat ≠ 0 := fun zero =>
    ne (sub_eq_zero.mp (BitVec.eq_of_toNat_eq (by simpa using zero)))
  rw [← neg_sub a b, BitVec.toNat_neg, Nat.mod_eq_of_lt (by omega)]

/-! The comparison of treads (R342). -/

theorem treadNotPast_iff {t c : Tread} : treadNotPast t c = true ↔ treadAhead t c < 2 ^ 47 := by
  simp [treadNotPast, treadAhead]

theorem treadAhead_eq (t c : Tread) : treadAhead t c = (t.toNat + 2 ^ 48 - c.toNat) % 2 ^ 48 :=
  toNat_sub_eq_mod t c

@[simp] theorem treadNotPast_self (c : Tread) : treadNotPast c c = true := by simp [treadNotPast]

/-- A tread past is another than the counter's, so it is behind it by what is left to 2^48. -/
theorem treadAhead_of_past {t c : Tread} (past : treadNotPast t c = false) :
    treadAhead c t = 2 ^ 48 - treadAhead t c :=
  toNat_sub_comm (by rintro rfl; simp at past)

/-! The tread a timed command names (R310). -/

theorem setWidth_signExtend_self (d : BitVec 32) : (d.signExtend 48).setWidth 32 = d := by
  ext i low
  simp [BitVec.getElem_signExtend, low, show i < 48 by omega]

theorem nameTread_low (low : BitVec 32) (c : Tread) : (nameTread low c).setWidth 32 = low := by
  rw [nameTread, BitVec.setWidth_add _ _ (by decide), setWidth_signExtend_self, add_sub_cancel]

/-- A sign-extended word lies from -2^31 to 2^31 - 1. -/
theorem signExtend_add_half_lt (d : BitVec 32) : (d.signExtend 48 + BitVec.ofNat 48 (2 ^ 31)).toNat < 2 ^ 32 := by
  have := d.isLt
  rw [BitVec.toNat_add, BitVec.toNat_signExtend, BitVec.toNat_setWidth, BitVec.toNat_ofNat, BitVec.msb_eq_decide]
  by_cases negative : 2 ^ 31 ≤ d.toNat
  · rw [decide_eq_true negative, if_pos rfl]
    omega
  · rw [decide_eq_false negative, if_neg Bool.false_ne_true]
    omega

theorem nameTread_window (low : BitVec 32) (c : Tread) :
    (nameTread low c - (c - BitVec.ofNat 48 (2 ^ 31))).toNat < 2 ^ 32 := by
  rw [nameTread, add_sub_sub_cancel]
  exact signExtend_add_half_lt _

/-! The comparison of flight numbers (R375). -/

theorem flightAhead_iff {a b : Flight} :
    flightAhead a b = true ↔ 1 ≤ (a - b).toNat ∧ (a - b).toNat ≤ 2 ^ 31 - 1 := by
  simp [flightAhead]

/-- At distance 0 the numbers are equal; 2^31 is its own complement to 2^32. -/
theorem flightAhead_neither {a b : Flight} (d : (a - b).toNat = 0 ∨ (a - b).toNat = 2 ^ 31) :
    flightAhead a b = false ∧ flightAhead b a = false := by
  have back : (b - a).toNat = (a - b).toNat := by
    by_cases same : a = b
    · rw [same]
    · have := toNat_sub_comm same
      have : (b - a).toNat < 2 ^ 32 := (b - a).isLt
      omega
  simp only [← Bool.not_eq_true, flightAhead_iff, back]
  omega

/-- Settles O17: each comparison is of the difference of two words, and that difference is the spec's; a named tread is
the counter plus a signed 32-bit offset. -/
theorem treadAndFlightOrder : Obligations.TreadAndFlightOrder := by
  unfold Obligations.TreadAndFlightOrder
  refine ⟨fun t c => ?_, fun low c => ⟨nameTread_low low c, nameTread_window low c⟩, fun a b => ?_⟩
  · rw [← treadAhead_eq]
    exact ⟨treadNotPast_iff, rfl, treadAhead_of_past⟩
  · rw [← toNat_sub_eq_mod a b]
    exact ⟨flightAhead_iff, flightAhead_neither⟩

end Sys2Proof.Machine

/-! A step and the invariant (R127, R143, R206, R223, R316, R357): what the block does with its queue, and what every command
keeps. -/

namespace Sys2Proof.Machine

open Sys2Proof

/-! The queue (log entries 1 and 3). -/

/-- Settles O1: both clauses are the two cases of the queue. -/
theorem stepRunsFrontCommand : Obligations.StepRunsFrontCommand := by
  unfold Obligations.StepRunsFrontCommand
  refine ⟨fun i s => rfl, fun s empty => ?_⟩
  simp only [step, empty]

/-- Settles O2: every command's meaning is `run` of a function of the card. -/
theorem everyCommandCompletes : Obligations.EveryCommandCompletes := by
  unfold Obligations.EveryCommandCompletes
  intro i s
  cases i <;> exact ⟨_, rfl, rfl⟩

/-- Settles O3: the shipped alcove's bytes are in order, slot and group are 0, there is no lane count yet and nothing is
held. -/
theorem resetHoldsInvariant : Obligations.ResetHoldsInvariant :=
  ⟨by decide +kernel, rfl, rfl, .inl rfl, by decide, by decide, fun _ => ⟨rfl, rfl, rfl⟩⟩

/-! What every command keeps. -/

/-- A meaning keeps the invariant where its function of the card does: the trace queue is not its concern. -/
theorem run_ok (f : Card → Card) {s t : State} (h : run f s = .next t) (hf : (f s.card).keep.ok) : t.card.keep.ok := by
  obtain rfl := Host.Outcome.next.inj h
  simpa using hf

/-- A command frame keeps the invariant where its chapter does in the states that serve it. -/
theorem run_receive_ok {op : Byte} {f : Frame} {k : Cmd} {body : Card → Card} {s t : State}
    (h : run (fun c => c.receive op f k body) s = .next t) (hk : s.card.keep.ok)
    (hb : ∀ d : Card, d.keep.ok → d.step7 op f = none → (body d).keep.ok) : t.card.keep.ok :=
  run_ok _ h (Card.receive_ok _ _ _ _ _ hk hb)

/-- A row's message on SYNC keeps the invariant where its action does. -/
theorem run_syncRow_ok {type : Byte} {m : SyncMsg} {act : Card → Card} {s t : State}
    (h : run (fun c => c.syncRow type m act) s = .next t) (hk : s.card.keep.ok)
    (ha : ∀ d : Card, d.keep.ok → (act d).keep.ok) : t.card.keep.ok :=
  run_ok _ h (Card.syncRow_ok _ _ _ _ hk ha)

/-- A training request keeps the invariant where what it asks for does. -/
theorem run_request_ok {seq : BitVec 4} {body : Card → Card × Bool} {s t : State}
    (h : run (fun c => c.request seq body) s = .next t) (hk : s.card.keep.ok)
    (hb : (body s.card).1.keep.ok) : t.card.keep.ok := by
  refine run_ok _ h ?_
  unfold Card.request
  split
  · exact Keep.ok_of _ _ hb (by simp [Card.keep])
  · exact hk

/-- A preset is no lane count. -/
@[simp] theorem Link.setPreset_lanes (l : Link) (lane : BitVec 2) (p : BitVec 3) : (l.setPreset lane p).lanes = l.lanes := by
  unfold Link.setPreset
  split <;> rfl

/-- The lane counts READY may set (R206). -/
theorem Card.readyCount_cases {c : Card} {code : BitVec 3} {n : Nat} (h : c.readyCount code = some n) :
    n = 1 ∨ n = 2 ∨ n = 4 := by
  obtain ⟨rfl, count, -⟩ := Card.readyCount_eq_some_iff.mp h
  simpa using count

/-- Every command keeps the invariant. -/
theorem exec_ok {i : Instr} {s t : State} (hk : s.card.keep.ok) (h : exec i s = .next t) : t.card.keep.ok := by
  cases i with
  -- command frames whose chapter needs the state that serves them
  | mount f => exact run_receive_ok h hk fun d hd hs => d.doMount_ok f (d.step7_mount f hs) hd
  | service f => exact run_receive_ok h hk fun d hd hs => d.doWindow_ok f false (d.step7_window f _ (.inl rfl) hs) hd
  | quiet f => exact run_receive_ok h hk fun d hd hs => d.doWindow_ok f true (d.step7_window f _ (.inr rfl) hs) hd
  -- the other command frames
  | read _ | readStream _ | stop _ | verify _ | write _ | discardZ _ | discardH _ | land _ | rollback _ | close _
  | inquire _ | forceClose _ | format _ | sanitize _ | alcoveLoad _ | alcoveSwap _ =>
    exact run_receive_ok h hk fun d hd _ => by simp [hd]
  -- messages on SYNC
  | syncSetTread _ | syncCheckTread _ | syncLand _ | syncRollback _ | syncService _ | syncQuiet _ | syncMark _ =>
    exact run_syncRow_ok h hk fun d hd => by simp [hd]
  -- a frame of no listed opcode
  | unlistedOpcode op f =>
    cases h
    have received : (s.card.receive op f .timed id).keep.ok := Card.receive_ok _ _ _ _ _ hk fun _ hd _ => hd
    split <;> simp [hk, received]
  -- training requests
  | trainingHold seq => exact run_request_ok h hk hk
  | setPreset seq lane preset => exact run_request_ok h hk (by split <;> simpa [Card.keep] using hk)
  | ready seq laneCode =>
    refine run_request_ok h hk ?_
    split
    next n count => exact Card.goReady_ok _ _ hk (Card.readyCount_cases count)
    next => exact hk
  -- three events whose row has a condition of its own
  | reservedTrainingRequest _ _ | descriptorQueued _ | characterOutsideFrame _ =>
    cases h
    dsimp only
    split <;> simp [hk]
  -- every other event is one operation of the model
  | _ =>
    cases h
    simp [hk]

/-- Settles O4, command by command; an empty queue idles. -/
theorem stepKeepsInvariant : Obligations.StepKeepsInvariant := by
  unfold Obligations.StepKeepsInvariant
  intro s t hk h
  unfold step at h
  split at h
  · obtain rfl := Host.Outcome.next.inj h
    exact hk
  next i r queued => exact exec_ok (s := { s with pending := r }) hk h

end Sys2Proof.Machine

/-! What moves the state, the tread counter, the lane count, the slot address and the other core fields (R17, R223, R341,
R359): every command's frame. -/

namespace Sys2Proof.Machine

open Sys2Proof

section
variable {β : Type} (g : Keep → β)

/-- A meaning leaves of the core fields what its function of the card leaves. -/
theorem run_of (f : Card → Card) {s t : State} (h : run f s = .next t) (hf : g (f s.card).keep = g s.card.keep) :
    g t.card.keep = g s.card.keep := by
  obtain rfl := Host.Outcome.next.inj h
  simpa using hf

/-- A command frame leaves what its chapter leaves. -/
theorem run_receive_of {op : Byte} {f : Frame} {k : Cmd} {body : Card → Card} {s t : State}
    (h : run (fun c => c.receive op f k body) s = .next t) (hb : ∀ d : Card, g (body d).keep = g d.keep) :
    g t.card.keep = g s.card.keep :=
  run_of g _ h (Card.receive_of g _ _ _ _ _ hb)

/-- A frame of no listed opcode leaves every core field. -/
theorem run_unlisted_of {op : Byte} {f : Frame} {s t : State} (h : execUnlistedOpcode op f s = .next t) :
    g t.card.keep = g s.card.keep := by
  refine run_of g _ h ?_
  split
  · rfl
  · exact Card.receive_of g _ _ _ _ _ fun _ => rfl

/-- With no message's take point to come, a row's message on SYNC leaves what its action leaves (R359). -/
theorem run_syncRow_of {type : Byte} {m : SyncMsg} {act : Card → Card} {s t : State}
    (h : run (fun c => c.syncRow type m act) s = .next t) (first : s.card.treads.taking = none)
    (ha : ∀ d : Card, g (act d).keep = g d.keep) : g t.card.keep = g s.card.keep :=
  run_of g _ h (Card.syncRow_of g _ _ _ _ (by simp [Card.takePending, first]) ha)

/-- A training request leaves what it asks for leaves (R607). -/
theorem run_request_of {seq : BitVec 4} {body : Card → Card × Bool} {s t : State}
    (h : run (fun c => c.request seq body) s = .next t) (hb : g (body s.card).1.keep = g s.card.keep) :
    g t.card.keep = g s.card.keep := by
  refine run_of g _ h ?_
  unfold Card.request
  split
  · simpa [Card.keep] using hb
  · rfl

end

/-- The commands that may move a core field: those of O6's list. A message on SYNC moves none of its own where no other
message's take point is still to come. -/
def leavesCore (i : Instr) (c : Card) : Prop :=
  match i with
  | .softStartEnd | .strapReadPassEnd _ | .alcoveCopyComplete | .pdcBreak | .vmUndervoltageTrip | .hclkStop
  | .hclkAbsenceDetectorTrip | .hclkReturn | .dpresQualified | .dpresOpen | .treadTick | .ready _ _
  | .firstH2cMarker | .write _ | .writeGo _ | .service _ | .quiet _ | .mount _ | .mountComplete _ | .close _
  | .forceClose _ | .sanitize _ | .alcoveLoad _ | .alcoveSwap _ | .syncSetTread _
  | .syncService _ | .syncQuiet _ | .syncMark _ | .badSyncMessage _ | .syncIdleTimeout _ | .markExecute
  | .windowStart | .windowEnd | .programComplete _ _ _ | .eraseComplete _ | .descriptorHung _ _
  | .alcoveOperationComplete _ => False
  | .syncCheckTread _ | .syncLand _ | .syncRollback _ => c.treads.taking = none
  | _ => True

/-- Every other command leaves every core field. -/
theorem exec_keep {i : Instr} {s t : State} (h : exec i s = .next t) (hi : leavesCore i s.card) :
    t.card.keep = s.card.keep := by
  cases i with
  | softStartEnd | strapReadPassEnd _ | alcoveCopyComplete | pdcBreak | vmUndervoltageTrip | hclkStop
  | hclkAbsenceDetectorTrip | hclkReturn | dpresQualified | dpresOpen | treadTick | ready _ _
  | firstH2cMarker | write _ | writeGo _ | service _ | quiet _ | mount _ | mountComplete _ | close _
  | forceClose _ | sanitize _ | alcoveLoad _ | alcoveSwap _ | syncSetTread _
  | syncService _ | syncQuiet _ | syncMark _ | badSyncMessage _ | syncIdleTimeout _ | markExecute
  | windowStart | windowEnd | programComplete _ _ _ | eraseComplete _ | descriptorHung _ _
  | alcoveOperationComplete _ => exact hi.elim
  | syncCheckTread _ | syncLand _ | syncRollback _ => exact run_syncRow_of id h hi (by simp)
  | read _ | readStream _ | stop _ | verify _ | discardZ _ | discardH _ | land _ | rollback _ | inquire _ | format _ =>
    exact run_receive_of id h (by simp)
  | unlistedOpcode op f => exact run_unlisted_of id h
  | trainingHold seq => exact run_request_of id h rfl
  | setPreset seq lane preset => exact run_request_of id h (by split <;> simp [Card.keep])
  | reservedTrainingRequest _ _ | descriptorQueued _ | characterOutsideFrame _ =>
    cases h
    dsimp only
    split <;> simp
  | pdcMate => exact run_of id (fun c => c.setPower { c.power with pdcLow := true }) h rfl
  | _ =>
    cases h
    simp

/-- The tread counter moves by a tick, by the messages that may come in as samples of SY and set it, and at the end of soft
start. -/
theorem exec_tread {i : Instr} {s t : State} (h : exec i s = .next t)
    (hi : match i with
      | .treadTick | .syncSetTread _ | .badSyncMessage _ | .syncIdleTimeout _ | .softStartEnd => False
      | .syncCheckTread _ | .syncLand _ | .syncRollback _ | .syncService _ | .syncQuiet _ | .syncMark _ =>
        s.card.treads.taking = none
      | _ => True) : t.card.keep.tread = s.card.keep.tread := by
  cases i with
  | treadTick | syncSetTread _ | badSyncMessage _ | syncIdleTimeout _ | softStartEnd => exact hi.elim
  | syncService _ | syncQuiet _ | syncMark _ => exact run_syncRow_of Keep.tread h hi (by simp)
  | write _ | service _ | quiet _ | mount _ | close _ | forceClose _ | sanitize _ | alcoveLoad _ | alcoveSwap _ =>
    exact run_receive_of Keep.tread h (by simp)
  | ready seq code => exact run_request_of Keep.tread h (by split <;> simp)
  | strapReadPassEnd _ | alcoveCopyComplete | pdcBreak | vmUndervoltageTrip | hclkStop | hclkAbsenceDetectorTrip
  | hclkReturn | dpresQualified | dpresOpen | firstH2cMarker | writeGo _ | mountComplete _ | markExecute | windowStart
  | windowEnd | programComplete _ _ _ | eraseComplete _ | descriptorHung _ _ | alcoveOperationComplete _ =>
    cases h
    simp
  | syncCheckTread _ | syncLand _ | syncRollback _ => rw [exec_keep h hi]
  | _ => rw [exec_keep h trivial]

/-- The lane count moves by READY, and goes with the power (R223). -/
theorem exec_lanes {i : Instr} {s t : State} (h : exec i s = .next t)
    (hi : match i with | .ready _ _ | .softStartEnd | .pdcBreak | .vmUndervoltageTrip => False | _ => True) :
    t.card.keep.lanes = s.card.keep.lanes := by
  cases i with
  | ready _ _ | softStartEnd | pdcBreak | vmUndervoltageTrip => exact hi.elim
  | syncSetTread _ | syncCheckTread _ | syncLand _ | syncRollback _ | syncService _ | syncQuiet _ | syncMark _ =>
    exact run_of Keep.lanes _ h (Card.syncRow_of Keep.lanes _ _ _ _ (by simp) (by simp))
  | write _ | service _ | quiet _ | mount _ | close _ | forceClose _ | sanitize _ | alcoveLoad _ | alcoveSwap _ =>
    exact run_receive_of Keep.lanes h (by simp)
  | strapReadPassEnd _ | alcoveCopyComplete | hclkStop | hclkAbsenceDetectorTrip
  | hclkReturn | dpresQualified | dpresOpen | treadTick | firstH2cMarker | writeGo _ | mountComplete _ | badSyncMessage _
  | syncIdleTimeout _ | markExecute | windowStart | windowEnd | programComplete _ _ _ | eraseComplete _
  | descriptorHung _ _ | alcoveOperationComplete _ =>
    cases h
    simp
  | _ => rw [exec_keep h trivial]

/-- Slot address and group change at the end of a strap read, and start anew with the power (R115, R127). -/
theorem exec_place {i : Instr} {s t : State} (h : exec i s = .next t)
    (hi : match i with | .strapReadPassEnd _ | .softStartEnd => False | _ => True) :
    t.card.keep.place = s.card.keep.place := by
  cases i with
  | strapReadPassEnd _ | softStartEnd => exact hi.elim
  | syncSetTread _ | syncCheckTread _ | syncLand _ | syncRollback _ | syncService _ | syncQuiet _ | syncMark _ =>
    exact run_of Keep.place _ h (Card.syncRow_of Keep.place _ _ _ _ (by simp) (by simp))
  | write _ | service _ | quiet _ | mount _ | close _ | forceClose _ | sanitize _ | alcoveLoad _ | alcoveSwap _ =>
    exact run_receive_of Keep.place h (by simp)
  | ready seq code => exact run_request_of Keep.place h (by split <;> simp)
  | alcoveCopyComplete | pdcBreak | vmUndervoltageTrip | hclkStop | hclkAbsenceDetectorTrip
  | hclkReturn | dpresQualified | dpresOpen | treadTick | firstH2cMarker | writeGo _ | mountComplete _ | badSyncMessage _
  | syncIdleTimeout _ | markExecute | windowStart | windowEnd | programComplete _ _ _ | eraseComplete _
  | descriptorHung _ _ | alcoveOperationComplete _ =>
    cases h
    simp
  | _ => rw [exec_keep h trivial]

/-- Settles O6: the commands outside the list leave the core fields whole; of those in it each leaves the tread counter, the
lane count, and slot and group, but for the events that the statement names. -/
theorem coreFrames : Obligations.CoreFrames := by
  unfold Obligations.CoreFrames
  refine ⟨fun i s t h hi => exec_keep h ?_, fun i s t h hi => exec_tread h ?_, fun i s t h hi => exec_lanes h ?_,
    fun i s t h hi => Prod.ext_iff.mp (exec_place h ?_)⟩
  all_goals cases i <;> exact hi

end Sys2Proof.Machine

/-! The alcoves' bytes (R543, R545, R558): only the operation at the head of the device's list changes them, within the bytes
it names. -/

namespace Sys2Proof.Machine

open Sys2Proof

/-! The bytes of an alcove. -/

theorem Card.mem_of_bytes {c d : Card} (h : d.keep.bytes = c.keep.bytes) (x : AlcoveId) : d.alcove.mem x = c.alcove.mem x := by
  obtain ⟨a, b⟩ := Prod.ext_iff.mp h
  cases x
  · exact a
  · exact b

@[simp] theorem Alcove.setMem_mem (a : Alcove) (i x : AlcoveId) (m : Mem) :
    (a.setMem i m).mem x = if i = x then m else a.mem x := by
  cases i <;> cases x <;> rfl

@[simp] theorem Alcove.setSlot_mem (a : Alcove) (i x : AlcoveId) (s : Bool) (r : RecSlot) : (a.setSlot i s r).mem x = a.mem x := by
  cases i <;> cases s <;> cases x <;> rfl

@[simp] theorem Alcove.setLedger_mem (a : Alcove) (i x : AlcoveId) (l : KV LedgerCell) : (a.setLedger i l).mem x = a.mem x := by
  cases i <;> cases x <;> rfl

theorem Mem.read_force_out (m : Mem) {a j : Nat} (bs : List (BitVec 8)) (h : j < a ∨ a + bs.length ≤ j) :
    Mem.read (Mem.force m a bs) j = Mem.read m j := by
  induction bs generalizing m a with
  | nil => rfl
  | cons b r ih =>
    rw [List.length_cons] at h
    rw [Mem.force, ih _ (by omega), Mem.read_write_other _ _ (by omega)]

@[simp] theorem seqField_length (s : BitVec 32) : (seqField s).length = 8 := by simp [seqField]

@[simp] theorem cutField_length {l : List Byte} (h : l.length = 8) : (cutField l).length = 8 := by simp [cutField, h]

@[simp] theorem Card.junk_length (c : Card) (n : Nat) : (c.junk n).length = n := by simp [Card.junk]

/-! One operation on the device. -/

/-- Outside the bytes an operation names, done or failed, every byte stays. -/
theorem Card.doAlcove_read (c : Card) {o : AlcoveOp} (ok : Bool) {x : AlcoveId} {a : Nat} (h : o.touches x a = false) :
    Mem.read ((c.doAlcove o ok).alcove.mem x) a = Mem.read (c.alcove.mem x) a := by
  cases o with
  | voidWord i s | eraseSlot i s | eraseHead i s | eraseLedger i => cases ok <;> simp [Card.doAlcove]
  | programRecord i s r | append i n e => simp [Card.doAlcove]
  | eraseSector i off =>
    have out (same : i = x) : ¬ (off ≤ a ∧ a < off + 65536) := by simpa [AlcoveOp.touches, same] using h
    cases ok
    · rfl
    · by_cases same : i = x <;> simp [Card.doAlcove, same, Mem.read_erase, out]
  | programBytes i off bs =>
    have out (same : i = x) : a < off ∨ off + bs.length ≤ a := by
      have : ¬ (off ≤ a ∧ a < off + bs.length) := by simpa [AlcoveOp.touches, same] using h
      omega
    by_cases same : i = x
    · cases ok <;> simp [Card.doAlcove, same, Mem.read_program_out, Mem.read_force_out, out same]
    · cases ok <;> simp [Card.doAlcove, same]
  | programSeq i n =>
    have out (same : i = x) : a < 8 ∨ 16 ≤ a := by
      have : ¬ (8 ≤ a ∧ a < 16) := by simpa [AlcoveOp.touches, same] using h
      omega
    by_cases same : i = x
    · cases ok <;> simp [Card.doAlcove, same, Mem.read_program_out, Mem.read_force_out, out same]
    · cases ok <;> simp [Card.doAlcove, same]

/-- What follows an operation that has come back leaves the bytes as the operation left them. -/
theorem Card.alcoveComplete_mem {c : Card} (ok : Bool) {o : AlcoveOp} {r : List AlcoveOp} (ops : c.alcove.ops = o :: r)
    (hclk : c.power.hclk = true) (x : AlcoveId) : (c.alcoveComplete ok).alcove.mem x = (c.doAlcove o ok).alcove.mem x := by
  refine Card.mem_of_bytes ?_ x
  simp only [Card.alcoveComplete, ops, hclk]
  split
  · contradiction
  · split <;> simp [Keep.parts]

/-- What the dies had finished when the power went is no matter of the alcove device. -/
theorem Card.keepLates_alcove (l : List Nat) (c : Card) : (l.foldl Card.keepLate c).alcove = c.alcove :=
  congrArg Rest.alcove (Rest.foldl _ (by simp) l c)

theorem Card.cutOp_read (c : Card) {o : AlcoveOp} {x : AlcoveId} {a : Nat} (h : o.touches x a = false) :
    Mem.read ((c.cutOp o).alcove.mem x) a = Mem.read (c.alcove.mem x) a := by
  unfold Card.cutOp
  split <;> exact c.doAlcove_read _ h

theorem Card.cutAlcove_read (c : Card) {x : AlcoveId} {a : Nat}
    (h : c.alcove.ops.head?.any (fun o => o.touches x a) = false) :
    Mem.read (c.cutAlcove.alcove.mem x) a = Mem.read (c.alcove.mem x) a := by
  unfold Card.cutAlcove
  split
  next o _ head => exact c.cutOp_read (by simpa [head] using h)
  next => rfl

/-- Of a power loss the bytes keep what cutting the device's operation leaves. -/
theorem Card.powerLoss_bytes (c : Card) :
    c.powerLoss.keep.bytes = ((c.halls.dies.map Prod.fst).foldl Card.keepLate c.dropWrong).cutAlcove.keep.bytes := by
  have e : (((c.halls.dies.map Prod.fst).foldl Card.keepLate c.dropWrong).cutAlcove.dropMap.enter .absent).keep.bytes =
      ((c.halls.dies.map Prod.fst).foldl Card.keepLate c.dropWrong).cutAlcove.keep.bytes := by simp
  unfold Card.powerLoss
  dsimp only
  generalize Card.enter _ .absent = d at e ⊢
  exact e

/-- A power loss cuts the operation at the head of the list; every byte that this one does not name stays (R11, R552). -/
theorem Card.powerLoss_read (c : Card) {x : AlcoveId} {a : Nat}
    (h : c.alcove.ops.head?.any (fun o => o.touches x a) = false) :
    Mem.read (c.powerLoss.alcove.mem x) a = Mem.read (c.alcove.mem x) a := by
  have same : ((c.halls.dies.map Prod.fst).foldl Card.keepLate c.dropWrong).alcove = c.alcove :=
    (Card.keepLates_alcove _ _).trans (congrArg Rest.alcove c.dropWrong_rest)
  rw [Card.mem_of_bytes c.powerLoss_bytes, Card.cutAlcove_read _ (by rwa [same]), same]

theorem Card.alcoveComplete_read (c : Card) (ok : Bool) {x : AlcoveId} {a : Nat}
    (h : c.alcove.ops.head?.any (fun o => o.touches x a) = false) :
    Mem.read ((c.alcoveComplete ok).alcove.mem x) a = Mem.read (c.alcove.mem x) a := by
  cases ops : c.alcove.ops with
  | nil => simp [Card.alcoveComplete, ops]
  | cons o r =>
    cases hclk : c.power.hclk with
    | false => simp [Card.alcoveComplete, ops, hclk]
    | true =>
      rw [Card.alcoveComplete_mem ok ops hclk]
      exact c.doAlcove_read ok (by simpa [ops] using h)

/-- LOADING reads an alcove and writes nothing into it (R542). -/
@[simp] theorem Card.copyComplete_bytes (c : Card) : c.copyComplete.keep.bytes = c.keep.bytes := by
  unfold Card.copyComplete
  dsimp only
  (repeat' split) <;> simp [Keep.parts]

/-! Every command. -/

/-- The alcoves' bytes move with an operation of the device alone. -/
theorem exec_bytes {i : Instr} {s t : State} (h : exec i s = .next t)
    (hi : match i with | .alcoveOperationComplete _ | .pdcBreak | .vmUndervoltageTrip => False | _ => True) :
    t.card.keep.bytes = s.card.keep.bytes := by
  cases i with
  | alcoveOperationComplete _ | pdcBreak | vmUndervoltageTrip => exact hi.elim
  | syncSetTread _ | syncCheckTread _ | syncLand _ | syncRollback _ | syncService _ | syncQuiet _ | syncMark _ =>
    exact run_of Keep.bytes _ h (Card.syncRow_of Keep.bytes _ _ _ _ (by simp) (by simp))
  | write _ | service _ | quiet _ | mount _ | close _ | forceClose _ | sanitize _ | alcoveLoad _ | alcoveSwap _ =>
    exact run_receive_of Keep.bytes h (by simp)
  | ready seq code => exact run_request_of Keep.bytes h (by split <;> simp)
  | softStartEnd | strapReadPassEnd _ | alcoveCopyComplete | hclkStop | hclkAbsenceDetectorTrip
  | hclkReturn | dpresQualified | dpresOpen | treadTick | firstH2cMarker | writeGo _ | mountComplete _ | badSyncMessage _
  | syncIdleTimeout _ | markExecute | windowStart | windowEnd | programComplete _ _ _ | eraseComplete _
  | descriptorHung _ _ =>
    cases h
    simp
  | _ => rw [exec_keep h trivial]

/-- Every command leaves every byte that the operation at the head of the device's list does not name. -/
theorem exec_reads {i : Instr} {s t : State} {x : AlcoveId} {a : Nat} (h : exec i s = .next t)
    (hi : match i with
      | .alcoveOperationComplete _ | .pdcBreak | .vmUndervoltageTrip =>
        s.card.alcove.ops.head?.any (fun o => o.touches x a) = false
      | _ => True) : Mem.read (t.card.alcove.mem x) a = Mem.read (s.card.alcove.mem x) a := by
  cases i with
  | alcoveOperationComplete ok =>
    cases h
    rw [Card.mem_of_bytes (congrArg Keep.bytes (Card.enterEvents_keep _ _))]
    exact s.card.alcoveComplete_read ok hi
  | pdcBreak =>
    cases h
    rw [Card.mem_of_bytes (congrArg Keep.bytes (Card.enterEvents_keep _ _))]
    unfold Card.pdcBreak
    split
    · rfl
    · exact s.card.powerLoss_read hi
  | vmUndervoltageTrip =>
    cases h
    rw [Card.mem_of_bytes (congrArg Keep.bytes (Card.enterEvents_keep _ _))]
    unfold Card.vmTrip
    split
    · rfl
    · exact s.card.powerLoss_read hi
  | _ => rw [Card.mem_of_bytes (exec_bytes h trivial)]

/-- ALCOVE_OPERATION_COMPLETE of an operation the device has done leaves the bytes that operation leaves. -/
theorem exec_alcoveOperationComplete_mem {s : State} {o : AlcoveOp} {r : List AlcoveOp} (ops : s.card.alcove.ops = o :: r)
    (hclk : s.card.power.hclk = true) (ok : Bool) : ∃ t, exec (.alcoveOperationComplete ok) s = .next t ∧
      ∀ x, t.card.alcove.mem x = (s.card.doAlcove o ok).alcove.mem x :=
  ⟨_, rfl, fun x => (Card.mem_of_bytes (congrArg Keep.bytes (Card.enterEvents_keep _ _)) x).trans
    (Card.alcoveComplete_mem ok ops hclk x)⟩

theorem Alcove.mem_wf {a : Alcove} (ha : a.memA.wf = true) (hb : a.memB.wf = true) (x : AlcoveId) : (a.mem x).wf = true := by
  cases x
  · exact ha
  · exact hb

/-- Settles O7: outside what the operation names nothing changes; an operation done erases or ANDs (log entry 12). -/
theorem alcoveBytesFrame : Obligations.AlcoveBytesFrame := by
  unfold Obligations.AlcoveBytesFrame
  refine ⟨fun i s t x a h hi => exec_reads h ?_, fun s r ha hb hclk => ⟨fun x off ops => ?_, fun x off bs ops => ?_,
    fun x n ops => ?_⟩⟩
  · cases i <;> exact hi
  all_goals
    obtain ⟨t, next, mem⟩ := exec_alcoveOperationComplete_mem ops hclk true
    refine ⟨t, next, ?_⟩
    have wf := Alcove.mem_wf ha hb x
  · intro a low high
    simp [mem, Card.doAlcove, Mem.read_erase, low, high, Mem.blank]
  · intro k h
    simp [mem, Card.doAlcove, Mem.read_program_in wf h]
  · intro k h
    simp [mem, Card.doAlcove, Mem.read_program_in wf h]

end Sys2Proof.Machine

/-! A flash position that a command changes though nothing that FlashFrame lists acts on it (R24, R438, R439). -/

namespace Sys2Proof.Machine

open Sys2Proof

theorem Card.enterEvents_cells (c : Card) (n : Nat) : (c.enterEvents n).media.cells = c.media.cells :=
  congrArg Keep.cells (Card.enterEvents_keep c n)

/-- A service window of the erase kind, with the whole of its duration left. -/
def eraseWindow : Window := { seq := 0, quiet := false, kinds := 2, start := 0, duration := 100000, began := 0 }

/-- HCLK is absent. Die 0 has ended a READ meanwhile; a descriptor that can only wait is held back for its hall. Die 1 has ended
an ERASE meanwhile and holds suspended the erase of wing 0, which lies in the die row of die 0. Position 0 is not erased. -/
def otherRowCard : Card :=
  { Card.reset with
    phase := .mounted
    power := { Card.reset.power with hclk := false }
    media := { Card.reset.media with cells := [(0, .torn)] }
    maint := { Card.reset.maint with running := [eraseWindow] }
    halls := { Card.reset.halls with
      back := [(0, [.suspend 1])]
      dies := [(0, { Die.idle with op := some (.read 0 0 false 0 0), late := some (.read ⟨0, 0, false, false⟩) }),
               (1, { Die.idle with erase := some ⟨0, .window, .suspended⟩, late := some (.erase true) })] } }

/-- No die's late report counts as acting on position 0. -/
theorem otherRowCard_untouched : cellTouched otherRowCard .hclkReturn 0 = false := by decide +kernel

/-- Taking die 0's READ pumps die 1, which resumes its erase; its late ERASE then ends that one and clears the page. -/
theorem otherRowCard_cleared : KV.find otherRowCard.hclkReturn.media.cells 0 = none := by decide +kernel

/-- Refutes O8: HCLK_RETURN clears position 0 of `otherRowCard`. The report of an ERASE that die 1 kept is taken for the erase
it held suspended and resumed meanwhile, and that is of a wing of another die row, where `Card.lateTaken` expects no change. -/
theorem not_flashFrame : ¬ Obligations.FlashFrame := by
  unfold Obligations.FlashFrame
  intro frame
  have same := frame .hclkReturn ⟨otherRowCard, []⟩ _ 0 rfl otherRowCard_untouched
  rw [Card.enterEvents_cells, otherRowCard_cleared] at same
  exact absurd same (by decide)

end Sys2Proof.Machine

/-! The supply (R10, R60 to R64, R76 to R79, R99, R136, R139): the end of soft start, a PDC break and an undervoltage trip. -/

namespace Sys2Proof.Machine

open Sys2Proof

/-- A meaning gives the card its function gives, but for the trace queue. -/
theorem run_spec (f : Card → Card) (s : State) : ∃ t, run f s = .next t ∧ ∃ b, t.card = { f s.card with bal := b } :=
  ⟨_, rfl, Card.enterEvents_balconyOnly _ _⟩

/-- A meaning that adds nothing to the trace queue gives just that card. -/
theorem run_untraced {f : Card → Card} {s : State} (h : (f s.card).bal.queue.length ≤ s.card.bal.queue.length) :
    run f s = .next { s with card := f s.card } := by
  rw [run, Card.enterEvents_eq_self h]

/-! The end of soft start. -/

/-- Programs that ran on leave their pages alone changed. -/
@[simp] theorem Card.drainPrograms_rest (c : Card) : c.drainPrograms.rest = c.rest := by
  unfold Card.drainPrograms
  exact Rest.foldl _ (fun d k => by split <;> simp) _ _

theorem Card.drainPrograms_of_none {c : Card} (h : c.runningPrograms = []) : c.drainPrograms = c := by
  simp [Card.drainPrograms, h]

/-- A die that outlasts the power is not fenced (R511). -/
theorem hotDies_unfenced (l : KV Die) (x : Nat × Die) (h : x ∈ hotDies l) : x.2.fenced = false := by
  obtain ⟨y, -, rfl⟩ := List.mem_map.mp h
  rfl

/-- What soft start ends with: all of `afresh`, POWERED-UNCLOCKED, C2H lane 0 held low where HCLK is there. -/
theorem Card.softStartEnd_eq {c : Card} (absent : c.phase = .absent) (soft : c.power.softStarting = true) :
    c.softStartEnd = { c.drainPrograms.afresh with
      phase := .poweredUnclocked
      link := { Card.reset.link with hold := c.power.hclk }
      out := if c.power.hclk then .holdLow :: c.out else c.out } := by
  obtain ⟨_, power, _, _, _, _, _, _, _, _, out⟩ := Rest.mk.inj c.drainPrograms_rest
  have off : c.drainPrograms.afresh.enter .poweredUnclocked = { c.drainPrograms.afresh with phase := .poweredUnclocked } := rfl
  have hclk : c.drainPrograms.afresh.power.hclk = c.power.hclk := by rw [← power]; rfl
  simp only [Card.softStartEnd, absent, soft, and_self, if_true, off, Card.holdUnclocked, hclk]
  cases on : c.power.hclk
  · rw [if_neg (by simp)]
    simp [Card.afresh, out, Card.reset]
  · rw [if_pos ⟨trivial, rfl, rfl⟩]
    simp [Card.startHold, Card.ev, Card.send, Card.afresh, out, Card.reset]

/-- After a power-up every counter but the two temperatures is 0 (R585, R593). -/
theorem Card.softStartEnd_counter {c : Card} (absent : c.phase = .absent) (soft : c.power.softStarting = true) {n : Nat}
    (h89 : n ≠ 89) (h90 : n ≠ 90) : c.softStartEnd.counter n = 0 := by
  have unfenced : c.softStartEnd.fencedDies = 0 := by
    rw [Card.softStartEnd_eq absent soft, Card.fencedDies, List.length_eq_zero_iff, List.filter_eq_nil_iff]
    intro x mem
    simp [hotDies_unfenced _ x mem]
  have nomap (m : Nat) : c.softStartEnd.mapped0 m = 0 := by
    rw [Card.softStartEnd_eq absent soft]
    rfl
  have margin (k : Nat) : c.softStartEnd.marginOf k = 0 := by
    rw [Card.softStartEnd_eq absent soft]
    simp [Card.marginOf, Card.reset]
  have counts : c.softStartEnd.bal.counts = [] := by rw [Card.softStartEnd_eq absent soft]; rfl
  have diff : c.softStartEnd.treads.checkDiff = 0 := by rw [Card.softStartEnd_eq absent soft]; rfl
  simp [Card.counter, h89, h90, unfenced, nomap, margin, counts, diff, KV.getD, KV.find, slipValue]

/-! A loss of power. -/

/-- A page that is not executed is no report. -/
theorem Card.freeDie_late (c : Card) (n m : Nat) : ((c.freeDie n).die m).late = (c.die m).late := by
  by_cases h : m = n
  · subst h
    simp [Card.freeDie, Card.die, Card.setDie, KV.getD]
  · simp [Card.freeDie, Card.die, Card.setDie, KV.getD, KV.find_put_other _ _ h]

theorem Card.dropWrong_late (c : Card) (m : Nat) : (c.dropWrong.die m).late = (c.die m).late := by
  unfold Card.dropWrong
  refine foldl_same (fun d : Card => (d.die m).late) _ (fun d x => ?_) _ c
  split
  · split
    · exact d.freeDie_late _ _
    · rfl
  · rfl

/-- With no report kept, the power's loss leaves nothing of a die's on the media. -/
theorem Card.keepLates_of_none {c : Card} (h : ∀ n, (c.die n).late = none) (l : List Nat) : l.foldl Card.keepLate c = c := by
  induction l with
  | nil => rfl
  | cons n r ih => simpa [Card.keepLate, h n] using ih

@[simp] theorem Card.doAlcove_power (c : Card) (o : AlcoveOp) (ok : Bool) : (c.doAlcove o ok).power = c.power := by
  unfold Card.doAlcove
  dsimp only
  (repeat' split) <;> rfl

@[simp] theorem Card.doAlcove_out (c : Card) (o : AlcoveOp) (ok : Bool) : (c.doAlcove o ok).out = c.out := by
  unfold Card.doAlcove
  dsimp only
  (repeat' split) <;> rfl

@[simp] theorem Card.cutAlcove_power (c : Card) : c.cutAlcove.power = c.power := by
  unfold Card.cutAlcove Card.cutOp
  (repeat' split) <;> simp

@[simp] theorem Card.cutAlcove_out (c : Card) : c.cutAlcove.out = c.out := by
  unfold Card.cutAlcove Card.cutOp
  (repeat' split) <;> simp

/-- The map goes, and with it all that is scheduled; pins and what has been sent stay (R39, R143). -/
theorem Card.dropMap_frame (c : Card) : c.dropMap.phase = c.phase ∧ c.dropMap.power = c.power ∧ c.dropMap.out = c.out ∧
    c.dropMap.views.valid = false ∧ c.dropMap.views.map = [] := by
  obtain ⟨phase, power, _, _, _, _, _, _, out⟩ := Far.mk.inj ((Far.of_rest c.abortErases.abortQueued_rest).trans c.abortErases_far)
  exact ⟨phase, power, out, rfl, rfl⟩

/-- What a loss of power leaves (R10, R62, R64, R139). -/
theorem Card.powerLoss_frame (c : Card) :
    c.powerLoss.phase = .absent ∧
    c.powerLoss.power = { c.power with softStarting := false, hclkTripped := false, strapSources := false, dock := false,
                                       lnd := false } ∧
    c.powerLoss.link = Card.reset.link ∧ c.powerLoss.ports = Card.reset.ports ∧ c.powerLoss.flights = Card.reset.flights ∧
    c.powerLoss.losses = Card.reset.losses ∧ c.powerLoss.views.valid = false ∧ c.powerLoss.views.map = [] ∧
    c.powerLoss.alcove.conf = none ∧ c.powerLoss.out = c.out := by
  obtain ⟨_, power, _, _, _, _, _, _, _, _, out⟩ := Rest.mk.inj
    (Rest.foldl_from Card.keepLate (by simp) (c.halls.dies.map Prod.fst) c c.dropWrong c.dropWrong_rest)
  have lost := Card.dropMap_frame ((c.halls.dies.map Prod.fst).foldl Card.keepLate c.dropWrong).cutAlcove
  rw [Card.cutAlcove_power, Card.cutAlcove_out, power, out] at lost
  obtain ⟨_, power, out, valid, map⟩ := lost
  unfold Card.powerLoss
  dsimp only
  generalize Card.dropMap _ = d at power out valid map
  exact ⟨congrArg Keep.phase (d.enter_eq .absent), by simp [power], rfl, rfl, rfl, rfl, by simp [valid], by simp [map], rfl,
    by simp [out]⟩

/-- With no report kept on a die, a loss of power leaves the media as they are (log entry 86). -/
theorem Card.powerLoss_cells {c : Card} (h : ∀ n, (c.die n).late = none) : c.powerLoss.media.cells = c.media.cells := by
  have late : ∀ n, (c.dropWrong.die n).late = none := fun n => (c.dropWrong_late n).trans (h n)
  have e : (((c.halls.dies.map Prod.fst).foldl Card.keepLate c.dropWrong).cutAlcove.dropMap.enter .absent).keep.cells =
      c.keep.cells := by simp [Card.keepLates_of_none late]
  unfold Card.powerLoss
  dsimp only
  generalize Card.enter _ .absent = d at e ⊢
  exact e

/-- Settles O10: soft start ends in `afresh`; a loss of power of a powered card is `powerLoss`, and of an unpowered one it
moves the pins alone. -/
theorem supplyUpAndDown : Obligations.SupplyUpAndDown := by
  unfold Obligations.SupplyUpAndDown
  refine ⟨fun s absent soft => ?_, fun s i on hi => ?_, fun s absent => ?_⟩
  · have same := Rest.mk.inj s.card.drainPrograms_rest
    obtain ⟨_, power, _, _, _, _, _, _, _, alcove, out⟩ := same
    refine ⟨_, run_untraced (f := Card.softStartEnd) ?_, ?_⟩
    · rw [Card.softStartEnd_eq absent soft]
      exact Nat.zero_le _
    · have counters (n : Nat) : n = 89 ∨ n = 90 ∨ s.card.softStartEnd.counter n = 0 := by
        by_cases h89 : n = 89
        · exact .inl h89
        by_cases h90 : n = 90
        · exact .inr (.inl h90)
        exact .inr (.inr (Card.softStartEnd_counter absent soft h89 h90))
      refine ⟨?_, ?_, ?_, ?_, ?_, counters, ?_⟩
      all_goals
        dsimp only
        rw [Card.softStartEnd_eq absent soft]
      all_goals simp [Card.afresh, Card.reset, power, alcove]
      intro none
      rw [Card.drainPrograms_of_none none]
  · obtain ⟨phase, power, link, ports, flights, losses, valid, map, conf, out⟩ := s.card.powerLoss_frame
    have cells : (∀ n, (s.card.die n).late = none) → s.card.powerLoss.media.cells = s.card.media.cells := Card.powerLoss_cells
    rcases hi with rfl | rfl
    · obtain ⟨t, next, b, ht⟩ := run_spec Card.pdcBreak s
      refine ⟨t, next, ?_⟩
      rw [ht]
      simpa [Card.pdcBreak, Card.powered, Card.setPower, on, phase, power, link, ports, flights, losses, valid, map, conf, out,
        Card.reset] using cells
    · obtain ⟨t, next, b, ht⟩ := run_spec Card.vmTrip s
      refine ⟨t, next, ?_⟩
      rw [ht]
      simpa [Card.vmTrip, Card.setPower, on, phase, power, link, ports, flights, losses, valid, map, conf, out,
        Card.reset] using cells
  · refine ⟨(run_untraced (f := Card.pdcBreak) ?_).trans ?_, (run_untraced (f := Card.vmTrip) ?_).trans ?_⟩
    all_goals simp [Card.pdcBreak, Card.vmTrip, Card.powered, Card.setPower, absent]

end Sys2Proof.Machine

/-! Pin events, the tick, strap reads and the loader (R17, R54 to R82, R99, R110 to R127, R136, R341, R549, R601, R602). -/

namespace Sys2Proof.Machine

open Sys2Proof

/-! Pins (R54 to R82). -/

/-- A meaning that changes the card as given and adds nothing to the trace queue. -/
theorem run_eq {f : Card → Card} {s : State} {d : Card} (h : f s.card = d)
    (q : d.bal.queue.length ≤ s.card.bal.queue.length) : run f s = .next { s with card := d } := by
  subst h
  exact run_untraced q

/-- Settles O9: each event's function, branch by branch. -/
theorem pinEvents : Obligations.PinEvents := by
  unfold Obligations.PinEvents
  refine ⟨fun s => ⟨?_, fun other => ?_, fun unclocked => ?_, fun absent low fine back => ?_, fun not => ?_, fun low => ?_,
    fun back => ?_⟩, fun s => ⟨fun on hclk dock => ?_, ?_⟩⟩
  · exact run_eq (f := fun c => c.setPower { c.power with pdcLow := true }) rfl (Nat.le_refl _)
  · exact run_eq (by simp [Card.hclkStop, Card.setPower, other]) (Nat.le_refl _)
  · exact run_eq (by simp [Card.hclkStop, Card.setPower, unclocked]) (Nat.le_refl _)
  · exact run_eq (by simp [Card.softStartBegin, Card.setPower, absent, low, fine, back]) (Nat.le_refl _)
  · refine run_eq (f := Card.softStartBegin) (if_neg ?_) (Nat.le_refl _)
    rintro ⟨absent, low, fine, back⟩
    rcases not with h | h | h | h <;> simp_all
  · exact run_eq (by simp [Card.vmRestored, Card.setPower, low]) (Nat.le_refl _)
  · exact run_eq (by simp [Card.vmRestored, back]) (Nat.le_refl _)
  · exact run_eq (by simp [Card.dockOn, on, hclk, dock]) (Nat.le_refl _)
  · exact run_eq rfl (Nat.zero_le _)

/-- Settles O16: the two branches of the tick. -/
theorem treadTickCounts : Obligations.TreadTickCounts := by
  unfold Obligations.TreadTickCounts
  refine fun s => ⟨fun on hclk => run_eq (if_pos ⟨on, hclk⟩) (Nat.le_refl _), fun off => run_eq (if_neg ?_) (Nat.le_refl _)⟩
  rintro ⟨on, hclk⟩
  rcases off with absent | stopped
  · exact on absent
  · simp [hclk] at stopped

/-! Strap reads (R110 to R127, R601). -/

/-- A contact that no pass up to the third finds stable is read again (R601). -/
theorem passContact_again {p : StrapPass} {r : StrapReading} {a : StrapId} (unstable : strapDecode (passOf p a) = none)
    (left : r.pass < 3) : passContact p r a = r := by
  simp [passContact, unstable, left]

/-- Of a contact that the last repeat does not find stable level 15 is taken, and marked (R113). -/
theorem passContact_last {p : StrapPass} {r : StrapReading} {a : StrapId} (unstable : strapDecode (passOf p a) = none)
    (last : r.pass = 3) : passContact p r a = { r with
      got := r.got.put a { level := 15, mv := strapVolts (passOf p a), unstable := true }
      todo := r.todo.filter (fun x => x != a) } := by
  simp [passContact, unstable, last]

/-- A set with an unstable address contact has slot address 0xFFF, group 15 (R113, R127). -/
theorem slotOf_unstable {v : StrapSet} (h : addrUnstable v = true) : slotOf v = 0xFFF ∧ groupOf v = 15 := by
  have slot : slotOf v = 0xFFF := by simp [slotOf, h]
  exact ⟨slot, by rw [groupOf, slot]; rfl⟩

/-- A MOUNT read's end latches what it has got (R115, R129). -/
theorem Card.endRead_mount_straps (c : Card) (v : StrapSet) : (c.endRead .mount v).straps.vals = v ∧
    (c.endRead .mount v).straps.slot = slotOf v ∧ (c.endRead .mount v).straps.group = groupOf v := by
  unfold Card.endRead Card.takeMountRead Card.latch
  simp

/-- Settles O13: an unstable address contact stays to be read for three repeats, and then counts as level 15. -/
theorem strapReadPasses : Obligations.StrapReadPasses := by
  unfold Obligations.StrapReadPasses
  refine ⟨fun s unclocked hclk sources free => ?_, fun s p g a address unstable hclk => ⟨fun reading => ?_,
    fun n k left reading => ?_⟩⟩
  · exact run_eq (by simp [Card.startPowerRead, unclocked, hclk, sources, free]) (Nat.le_refl _)
  · obtain ⟨t, next, b, ht⟩ := run_spec (fun c => c.strapPass p) s
    have set : s.card.strapPass p =
        s.card.endRead .mount (g.put a { level := 15, mv := strapVolts (passOf p a), unstable := true }) := by
      simp [Card.strapPass, reading, hclk, passContact_last unstable]
    have marked (m : Nat) : addrUnstable (g.put a { level := 15, mv := m, unstable := true }) = true := by
      rcases address with rfl | rfl | rfl <;> simp [StrapSet.put, addrUnstable]
    obtain ⟨vals, slot, group⟩ := s.card.endRead_mount_straps
      (g.put a { level := 15, mv := strapVolts (passOf p a), unstable := true })
    obtain ⟨all, high⟩ := slotOf_unstable (marked (strapVolts (passOf p a)))
    refine ⟨t, next, ?_⟩
    rw [ht]
    dsimp only
    rw [set, vals, slot, group]
    refine ⟨all, high, by simp [StrapSet.get_put], by simp [StrapSet.get_put], fun b other => ?_⟩
    simp [StrapSet.get_put, other]
  · have stays : s.card.strapPass p = { s.card with straps := { s.card.straps with
        reading := some { kind := k, pass := n + 1, todo := [a], got := g } } } := by
      simp [Card.strapPass, reading, hclk, passContact_again unstable, left]
    exact run_eq (f := fun c => c.strapPass p) stays (Nat.le_refl _)

/-! The loader (R549, R602). -/

/-- With the end of LOADING the resync pattern and training frames go out, and the hold is over (R136, R215). -/
theorem Card.firstTraining_frame (c : Card) : c.firstTraining.phase = c.phase ∧ c.firstTraining.alcove = c.alcove ∧
    c.firstTraining.straps = c.straps ∧ c.firstTraining.link.mode = .training ∧ c.firstTraining.link.trained = 0 ∧
    c.firstTraining.link.hold = false ∧ c.firstTraining.out = .training c.laneCap false :: .resync :: c.out := by
  obtain ⟨b, h⟩ := Card.ev_balconyOnly (({ c with link := { c.link with hold := false } } : Card).send .resync) 11 [0x00]
  unfold Card.firstTraining
  dsimp only
  rw [h]
  exact ⟨rfl, rfl, rfl, rfl, rfl, rfl, rfl⟩

theorem Card.laneCap_of_straps {a b : Card} (h : a.straps = b.straps) : a.laneCap = b.laneCap := by
  unfold Card.laneCap
  rw [h]

theorem Card.loadFault_frame (c : Card) : c.loadFault.phase = .fault ∧ c.loadFault.alcove = c.alcove ∧
    c.loadFault.link.mode = .training := by
  unfold Card.loadFault
  obtain ⟨phase, alcove, -, mode, -⟩ := (c.enter .fault).firstTraining_frame
  refine ⟨phase.trans ?_, alcove.trans ?_, mode⟩
  · exact congrArg Keep.phase (c.enter_eq .fault)
  · simp

/-- The card with alcove `x` in use and its record `f` taken (R549). -/
def Card.loadedFrom (c : Card) (x : AlcoveId) (f : Conf) : Card := { c with alcove := { c.alcove with
  inUse := some x, seqInUse := BitVec.ofNat 32 ((c.alcove.mem x).field 8 4),
  version := BitVec.ofNat 32 ((c.alcove.mem x).field 40 4), chip := (c.alcove.mem x).sections,
  trying := none, conf := some f } }

theorem Card.copyComplete_loadable {c : Card} {x : AlcoveId} {second : Bool} {f : Conf} (loading : c.phase = .loading)
    (hclk : c.power.hclk = true) (trying : c.alcove.trying = some (x, second)) (good : (c.alcove.mem x).loadable = true)
    (conf : c.alcove.loadConf = some f) :
    c.copyComplete = ((c.loadedFrom x f).enter .linkTraining).firstTraining := by
  simp [Card.copyComplete, Card.loadedFrom, loading, hclk, trying, good, conf]

/-- Settles O15: the branches of ALCOVE_COPY_COMPLETE. -/
theorem loaderOutcomes : Obligations.LoaderOutcomes := by
  unfold Obligations.LoaderOutcomes
  intro s x second loading hclk trying
  obtain ⟨t, next, b, ht⟩ := run_spec Card.copyComplete s
  refine ⟨t, next, ?_⟩
  rw [ht]
  refine ⟨fun good f conf => ?_, fun good none => ?_, fun bad first => ?_, fun bad last => ?_⟩
  · rw [Card.copyComplete_loadable loading hclk trying good conf]
    obtain ⟨phase, alcove, straps, mode, trained, hold, out⟩ :=
      Card.firstTraining_frame ((s.card.loadedFrom x f).enter .linkTraining)
    simp at phase alcove straps out
    refine ⟨phase, ?_, ?_, mode, trained, hold, ?_⟩
    · exact congrArg Alcove.inUse alcove
    · exact congrArg Alcove.conf alcove
    · rw [Card.laneCap_of_straps (b := (s.card.loadedFrom x f).enter .linkTraining) (by simpa using straps)]
      exact out
  · simp [Card.copyComplete, loading, hclk, trying, good, none, Card.loadFault_frame]
  · simp [Card.copyComplete, loading, hclk, trying, bad, first]
  · simp [Card.copyComplete, loading, hclk, trying, bad, last, Card.loadFault_frame]

end Sys2Proof.Machine

/-! Training, markers, idle frames and retrains (R174 to R223, R606, R607). -/

namespace Sys2Proof.Machine

open Sys2Proof

/-! The counters. -/

/-- A counter's value (R585). -/
def Card.count (c : Card) (n : Nat) : Nat := KV.getD c.bal.counts n 0

theorem Card.count_bump_same (c : Card) {n : Nat} (k : Nat) (h : 1 < n) :
    (c.bump n k).count n = (c.count n + k) % 2 ^ 32 := by
  have wide : ¬ n ≤ 1 := Nat.not_le.mpr h
  simp [Card.count, Card.bump, KV.getD, KV.find_put_same, wide]

theorem Card.count_bump_other (c : Card) {n j : Nat} (k : Nat) (h : j ≠ n) : (c.bump n k).count j = c.count j := by
  simp [Card.count, Card.bump, KV.getD, KV.find_put_other _ _ h]

/-- An event on its way to the trace queue counts at most as dropped (R579). -/
theorem Card.count_enterEvent (c : Card) (e : BalRec) {n : Nat} (h : n ≠ 15) : (c.enterEvent e).count n = c.count n := by
  unfold Card.enterEvent
  dsimp only
  split
  · rfl
  · split
    · rfl
    · exact Card.count_bump_other _ 1 h

theorem Card.count_enterEvents (c : Card) (k : Nat) {n : Nat} (h : n ≠ 15) : (c.enterEvents k).count n = c.count n := by
  unfold Card.enterEvents
  split
  · rfl
  · exact foldl_same (fun d => Card.count d n) _ (fun d e => d.count_enterEvent e h) _ _

/-! Training (R203 to R210, R607). -/

theorem Link.setPreset_preset_same (l : Link) (lane : BitVec 2) (p : BitVec 3) : (l.setPreset lane p).preset lane = p := by
  unfold Link.setPreset Link.preset
  split <;> simp_all

theorem Link.setPreset_preset_other (l : Link) {lane k : BitVec 2} (p : BitVec 3) (h : k ≠ lane) :
    (l.setPreset lane p).preset k = l.preset k := by
  have apart : k.toNat ≠ lane.toNat := fun e => h (BitVec.eq_of_toNat_eq e)
  have low : lane.toNat < 4 := lane.isLt
  have low' : k.toNat < 4 := k.isLt
  unfold Link.setPreset Link.preset
  generalize lane.toNat = a at *
  generalize k.toNat = b at *
  interval_cases a <;> interval_cases b <;> simp at apart ⊢

theorem Link.setPreset_training (l : Link) (lane : BitVec 2) (p : BitVec 3) :
    (l.setPreset lane p).mode = l.mode ∧ (l.setPreset lane p).trained = l.trained := by
  unfold Link.setPreset
  split <;> exact ⟨rfl, rfl⟩

/-- A repeat is ignored (R203). -/
theorem Card.request_repeat {c : Card} {seq : BitVec 4} (body : Card → Card × Bool) (again : c.link.reqSeq = some seq) :
    c.request seq body = c := by
  simp [Card.request, again]

theorem run_request_repeat {s : State} {seq : BitVec 4} (body : Card → Card × Bool) (again : s.card.link.reqSeq = some seq) :
    run (fun c => c.request seq body) s = .next s :=
  run_eq (f := fun c => c.request seq body) (d := s.card) (Card.request_repeat body again) (Nat.le_refl _)

/-- A new request that leaves the card itself alone is reported as it was judged (R205, R607). -/
theorem run_request_judged {s : State} {seq : BitVec 4} {body : Card → Card × Bool} {r : ReqResult} {ok : Bool}
    (train : s.card.trainable = true) (fresh : s.card.link.reqSeq ≠ some seq) (judged : body s.card = (s.card, ok))
    (said : (if ok then ReqResult.accepted else .refused) = r) :
    run (fun c => c.request seq body) s = .next { s with card := { s.card with
      link := { s.card.link with reqSeq := some seq, reqResult := r } } } := by
  refine run_eq (f := fun c => c.request seq body) ?_ (Nat.le_refl _)
  dsimp only
  rw [Card.request_taken body train fresh, judged, ← said]

/-- Settles O18: the request's last sequence decides, and then what each request does. -/
theorem trainingRequests : Obligations.TrainingRequests := by
  unfold Obligations.TrainingRequests
  intro s seq code lane p lc
  refine ⟨fun again => ⟨run_request_repeat _ again, run_request_repeat _ again, run_request_repeat _ again, ?_⟩,
    fun train fresh => ⟨run_request_judged train fresh rfl rfl, fun reserved => ?_,
      fun above => run_request_judged train fresh (if_neg (Nat.not_lt.mpr above)) rfl, fun below => ?_⟩⟩
  · refine run_eq (f := fun c => if code.toNat < 3 then c else c.request seq (fun c => (c, false))) (d := s.card) ?_
      (Nat.le_refl _)
    split
    · rfl
    · exact Card.request_repeat _ again
  · have same : (fun c : Card => if code.toNat < 3 then c else c.request seq (fun c => (c, false))) =
        fun c => c.request seq (fun c => (c, false)) := by simp [Nat.not_lt.mpr reserved]
    change run (fun c : Card => if code.toNat < 3 then c else c.request seq (fun c => (c, false))) s = _
    rw [same]
    exact run_request_judged train fresh rfl rfl
  · obtain ⟨t, next, b, ht⟩ := run_spec (fun c => c.request seq (fun c =>
      if lane.toNat < c.laneCap then ({ c with link := c.link.setPreset lane p }, true) else (c, false))) s
    refine ⟨t, next, ?_⟩
    obtain ⟨mode, trained⟩ := s.card.link.setPreset_training lane p
    rw [ht]
    dsimp only
    rw [Card.request_taken _ train fresh, if_pos below]
    exact ⟨s.card.link.setPreset_preset_same lane p, fun k h => s.card.link.setPreset_preset_other p h, rfl, rfl, mode, trained⟩

/-- The LANE-CHECKs owed are sent and the link is otherwise left alone (R38). -/
theorem Card.payOwed_link (c : Card) : c.payOwed.link = { c.link with owed := [] } := by
  unfold Card.payOwed
  have acts (d : Card) : d.stepActs.link = d.link := congrArg Far.link d.stepActs_far
  have finishes (xs : List OwedCheck) (d : Card) : (xs.foldl (fun c x =>
      c.finish x.tag stLaneCheck (laneCheckInfo x.mask x.cause.toNat) x.z) d).link = d.link :=
    foldl_same Card.link _ (fun d x => by simp) xs d
  have stops (d : Card) : d.answerStops.link = d.link := by
    unfold Card.answerStops
    exact foldl_same Card.link _ (fun d t => by simp) _ d
  rw [acts, stops, finishes]

/-- Settles O20: LANE_TRAINED and FIRST_H2C_MARKER. -/
theorem trainingLanes : Obligations.TrainingLanes := by
  unfold Obligations.TrainingLanes
  refine ⟨fun s lane m train => ?_, fun s n accepted hclk => ?_⟩
  · have trained : s.card.laneTrained lane m = { s.card with link := { s.card.link with
        margins := KV.put s.card.link.margins lane.toNat (if m = 0 then 1 else m),
        trained := s.card.link.trained ||| (1#4 <<< lane.toNat) } } := if_pos train
    exact ⟨_, run_eq trained (Nat.le_refl _), rfl, KV.find_put_same _ _ _, rfl, rfl⟩
  · obtain ⟨t, next, b, ht⟩ := run_spec Card.firstMarker s
    refine ⟨t, next, ?_⟩
    rw [ht]
    have pays (c : Card) : c.payOwed.phase = c.phase := congrArg Keep.phase c.payOwed_keep
    simp only [Card.firstMarker, accepted, hclk, if_true, pays, Card.payOwed_link]
    split
    · simp
    · simp

/-- Settles O21: the branch H2C_MARKER_TIMEOUT takes. -/
theorem markerTimeoutRetrains : Obligations.MarkerTimeoutRetrains := by
  unfold Obligations.MarkerTimeoutRetrains
  intro s n accepted hclk
  exact run_eq (by simp [Card.markerTimeout, accepted, hclk, Card.send, Card.laneCap]) (Nat.le_refl _)

/-! Markers, the hold and idle frames (R174 to R185, R211 to R216). -/

/-- What a run leaves is the meaning's card but for the Balcony and the trace, and BC-15 aside its counters are those. -/
theorem run_counts (f : Card → Card) (s : State) :
    ∃ t, run f s = .next t ∧ (∃ b, t.card = { f s.card with bal := b }) ∧ ∀ n, n ≠ 15 → t.card.count n = (f s.card).count n :=
  ⟨_, rfl, Card.enterEvents_balconyOnly _ _, fun _ h => Card.count_enterEvents _ _ h⟩

theorem BalconyOnly.eq {c d : Card} (h : BalconyOnly c d) : d = { c with bal := d.bal } := by
  obtain ⟨b, rfl⟩ := h
  rfl

/-- A codeword on a lane: what its receiver keeps (R174, R177, R182). -/
def Link.received (l : Link) (k : Nat) (x : RxFrame) : Link :=
  { l with
    lastBad := if x.bad then l.lastBad ||| (1#4 <<< k) else l.lastBad &&& ~~~(1#4 <<< k)
    badWords := if x.bad then KV.put l.badWords k (KV.getD l.badWords k 0 + 1) else l.badWords
    rxScramble := KV.put l.rxScramble k x.next }

/-- The counter a codeword on lane `k` counts in (BC-64 to BC-75). -/
def wordCounter (k : Nat) (bad idle : Bool) : Nat := if bad then (if idle then 72 else 68) + k else 64 + k

theorem Card.laneDecode_eq (c : Card) (lane : BitVec 2) (x : RxFrame) (idle : Bool) : c.laneDecode lane x idle =
    (({ c with link := c.link.received lane.toNat x } : Card).bump (wordCounter lane.toNat x.bad idle)
      (if x.bad then 1 else x.corrected), x.bad || c.link.lastBad.getLsbD lane.toNat) := by
  unfold Card.laneDecode wordCounter Link.received
  cases x.bad <;> rfl

theorem Card.startHold_eq (c : Card) (hostTrains : Bool) : ∃ b, c.startHold hostTrains = { c with
    link := { c.link with hold := true, holdDue := false, hostTrains := hostTrains }, out := .holdLow :: c.out, bal := b } := by
  obtain ⟨b, h⟩ := Card.ev_balconyOnly ({ c with link := { c.link with
    hold := true, holdDue := false, hostTrains := hostTrains }, out := .holdLow :: c.out } : Card) 11 [0x01]
  exact ⟨b, h⟩

/-- Settles O23: the four functions on the path each statement takes. -/
theorem markersHoldAndIdle : Obligations.MarkersHoldAndIdle := by
  unfold Obligations.MarkersHoldAndIdle
  refine ⟨fun s sends => run_eq (if_pos sends) (Nat.le_refl _), fun s lane mark m hears => run_eq (if_pos hears) (Nat.le_refl _),
    fun s due holds free mode hclk => ?_, fun s w hears => ?_⟩
  · obtain ⟨t, next, b, ht⟩ := run_spec Card.holdBegin s
    refine ⟨t, next, ?_⟩
    have begins : s.card.holdBegin = s.card.startHold (s.card.link.hostTrains || s.card.link.mode != .up) :=
      if_pos ⟨due, holds, by simp [free], mode, hclk⟩
    obtain ⟨b', hb⟩ := s.card.startHold_eq (s.card.link.hostTrains || s.card.link.mode != .up)
    rw [ht, begins, hb]
  · intro x k bit n
    have lane : k < 4 := w.lane.isLt
    obtain ⟨t, next, ⟨b, ht⟩, counts⟩ := run_counts (fun c => c.idleFrame w) s
    have set : s.card.idleFrame w = ({ s.card with link := s.card.link.received k x } : Card).bump (wordCounter k x.bad true)
        (if x.bad then 1 else x.corrected) := by
      unfold Card.idleFrame
      rw [if_pos hears, Card.laneDecode_eq]
    refine ⟨t, next, ?_, ?_⟩
    · rw [ht]
      dsimp only
      rw [set]
      rfl
    · have high : 63 < wordCounter k x.bad true := by
        cases x.bad
        · show 63 < 64 + k
          omega
        · show 63 < 72 + k
          omega
      have := counts (wordCounter k x.bad true) (by omega)
      rw [set, Card.count_bump_same _ _ (by omega)] at this
      exact this

end Sys2Proof.Machine

/-! What taking positions and issuing programs leaves alone: the tags too, and of the flights everything but how far the bays
of their actions are (R380, R386). -/

namespace Sys2Proof.Machine

open Sys2Proof

/-- An action without how far its bay is. -/
def Action.unstaged (a : Action) : Action := { a with stage := .waiting }

/-- What such work leaves alone. -/
structure Near where
  far : Far
  ports : Ports
  flights : Flights

/-- That part of a card. -/
def Card.near (c : Card) : Near :=
  { far := c.far, ports := c.ports, flights := { c.flights with acts := c.flights.acts.map Action.unstaged } }

theorem Near.of_rest {c d : Card} (h : d.rest = c.rest) : d.near = c.near := by
  have ports : d.ports = c.ports := congrArg Rest.ports h
  have flights : d.flights = c.flights := congrArg Rest.flights h
  simp only [Card.near, Far.of_rest h, ports, flights]

/-- Work on the media, the queues, the maintenance and the Balcony is such work. -/
theorem Near.congr {c d : Card} (ph : d.phase = c.phase) (pw : d.power = c.power) (st : d.straps = c.straps)
    (tr : d.treads = c.treads) (lk : d.link = c.link) (po : d.ports = c.ports) (fl : d.flights = c.flights)
    (vi : d.views = c.views) (tw : d.twin = c.twin) (al : d.alcove = c.alcove) (ou : d.out = c.out) : d.near = c.near :=
  Near.of_rest (by simp only [Card.rest, ph, pw, st, tr, lk, po, fl, vi, tw, al, ou])

@[simp] theorem Near.of_mk (c : Card) (me : Media) (ha : Halls) (ma : Maint) (lo : Losses) (ba : Balcony) (fr : Nat) :
    Card.near ⟨c.phase, c.power, c.straps, c.treads, c.link, c.ports, c.flights, c.views, me, ha, ma, lo, c.twin, c.alcove, ba,
      c.out, fr⟩ = c.near := rfl

theorem Near.foldl {α : Type} (f : Card → α → Card) (h : ∀ c x, (f c x).near = c.near) (l : List α) (c : Card) :
    (l.foldl f c).near = c.near := foldl_same Card.near f h l c

@[simp] theorem Card.ev_near (c : Card) (n : Nat) (bs : List Byte) : (c.ev n bs).near = c.near := Near.of_rest (c.ev_rest n bs)

@[simp] theorem Card.noteIssued_near (c : Card) (a : Action) (k cycles : Nat) : (c.noteIssued a k cycles).near = c.near := by
  have staged (x : Action) : (if x.closed = a.closed then { x with stage := .issued k } else x).unstaged = x.unstaged := by
    split <;> rfl
  have same : (c.flights.acts.map (fun x => if x.closed = a.closed then { x with stage := .issued k } else x)).map
      Action.unstaged = c.flights.acts.map Action.unstaged := by
    rw [List.map_map]
    exact List.map_congr_left fun x _ => staged x
  have acts : ({ c with flights := { c.flights with acts := c.flights.acts.map (fun x =>
      if x.closed = a.closed then { x with stage := .issued k } else x) } } : Card).near = c.near := by
    simp only [Card.near, same]
    rfl
  unfold Card.noteIssued
  dsimp only
  split
  · exact acts
  · rw [Card.ev_near, acts]

@[simp] theorem Card.noteActs_near (c : Card) : c.noteActs.near = c.near := by
  refine Near.foldl _ (fun c a => ?_) _ _
  (repeat' split) <;> simp

@[simp] theorem Card.startGallery_near (c : Card) (w : Nat) (g : Gallery) : (c.startGallery w g).near = c.near := by
  unfold Card.startGallery
  rw [Card.noteActs_near]
  exact Near.foldl _ (fun c h => Near.of_rest (Card.issueProgram_rest c _)) _ _

@[simp] theorem Card.release_near (c : Card) (ks : List Nat) : (c.release ks).near = c.near := Near.of_rest (c.release_rest ks)
@[simp] theorem Card.setOpen_near (c : Card) (o : OpenWing) : (c.setOpen o).near = c.near := Near.of_rest (c.setOpen_rest o)
@[simp] theorem Card.closeWing_near (c : Card) (w : Nat) : (c.closeWing w).near = c.near := Near.of_rest (c.closeWing_rest w)

@[simp] theorem Card.leaveGallery_near (c : Card) (w : Nat) : (c.leaveGallery w).near = c.near := by
  unfold Card.leaveGallery
  dsimp only
  (repeat' split) <;> simp

@[simp] theorem Card.leaveBare_near (c : Card) (w cause : Nat) : (c.leaveBare w cause).near = c.near := by
  unfold Card.leaveBare
  dsimp only
  split
  · rfl
  · rw [Card.leaveGallery_near]
    rfl

@[simp] theorem Card.tryParity_near (c : Card) (w : Nat) : (c.tryParity w).near = c.near := by
  have own (g h k b) : (c.addOwn w g h k b).near = c.near := Near.of_rest (c.addOwn_rest w g h k b)
  unfold Card.tryParity
  dsimp only
  (repeat' split) <;> simp [own]

@[simp] theorem Card.fillTo_near (c : Card) (w n : Nat) : (c.fillTo w n).near = c.near := by
  unfold Card.fillTo
  split
  · rfl
  · rw [Card.tryParity_near]
    exact Near.foldl _ (fun c x => Near.of_rest (c.fillGallery_rest w _)) _ _

@[simp] theorem Card.continueWing_near (c : Card) (w : Nat) : (c.continueWing w).near = c.near := by
  have jobs (l : List Nat) (g : Nat → Nat) (d : Card) :
      (l.foldl (fun c h => c.startJob (g h) .completion false) d).near = d.near :=
    Near.foldl _ (fun c h => Near.of_rest (c.startJob_rest _ _ _)) _ _
  unfold Card.continueWing Card.fillWing
  dsimp only
  (repeat' split) <;> simp [jobs]

@[simp] theorem Card.prepare_near (c : Card) (user : Bool) (n : Nat) : (c.prepare user n).near = c.near := by
  have opens (d : Card) : (d.ensureOpen user).near = d.near := Near.of_rest (d.ensureOpen_rest user)
  induction n generalizing c with
  | zero => rfl
  | succ k ih =>
    unfold Card.prepare
    dsimp only
    (repeat' split) <;> simp [ih, opens]

/-- Taking a position for a bay (R430). -/
@[simp] theorem Card.place_near (c : Card) (user fresh : Bool) (b : Bay) : (c.place user fresh b).1.near = c.near := by
  have key (d : Card) (w : Nat) (b : Bay) (h : d.near = c.near) :
      (match ({ d with media := { d.media with lastWing := some w } } : Card).assignIn w b with
        | (c, some k) => (c.draw user b.kind k, some k)
        | (c, none) => ((c, none) : Card × Option Nat)).1.near = c.near := by
    have taken := Near.of_rest (({ d with media := { d.media with lastWing := some w } } : Card).assignIn_rest w b)
    have same : (({ d with media := { d.media with lastWing := some w } } : Card).assignIn w b).1.near = c.near :=
      taken.trans h
    split
    · next e =>
      rw [e] at same
      exact (Near.of_rest (Card.draw_rest _ _ _ _)).trans same
    · next e =>
      rw [e] at same
      exact same
  unfold Card.place
  dsimp only
  split
  · rfl
  · split
    · exact c.prepare_near user 4
    · cases fresh
      · exact key _ _ _ (c.prepare_near user 4)
      · exact key _ _ _ ((Near.of_rest ((c.prepare user 4).stampBay_rest b)).trans (c.prepare_near user 4))

theorem Card.placeNew_near (c : Card) (user : Bool) (b : Bay) : (c.placeNew user b).1.near = c.near :=
  c.place_near user true b

theorem Card.placeAll_near {u : Bool} {bs : List Bay} {c d : Card} {ks : List Nat} (h : c.placeAll u bs = some (d, ks)) :
    d.near = c.near := by
  induction bs generalizing c d ks with
  | nil =>
    simp only [Card.placeAll, Option.some.injEq, Prod.mk.injEq] at h
    rw [← h.1]
  | cons b r ih =>
    unfold Card.placeAll at h
    split at h
    · cases h
    · next x k e =>
      split at h
      · next y ks' e' =>
        simp only [Option.some.injEq, Prod.mk.injEq] at h
        rw [← h.1, ih e', ← c.placeNew_near u b, e]
      · cases h

/-- A MARK takes a position or goes on waiting; the rest stays (R357, R430). -/
theorem Card.placeMark_ports (c : Card) (x : HeldMark × Nat) : (c.placeMark x).ports = c.ports ∧
    (c.flights.acts = [] → (c.placeMark x).flights.acts = []) := by
  have same := c.placeNew_near false (newBay .mark 0 0 x.2 (.mark x.1.value x.1.tread))
  unfold Card.placeMark
  split
  · next d k e =>
    rw [e] at same
    exact ⟨congrArg Near.ports same, fun none => by
      have := congrArg (fun n : Near => n.flights.acts) same
      simpa [Card.near, none] using this⟩
  · exact ⟨rfl, id⟩

theorem Card.placeDue_ports (c : Card) : c.placeDue.ports = c.ports ∧
    (c.flights.acts = [] → c.placeDue.flights.acts = []) := by
  have marks (l : List (HeldMark × Nat)) (d : Card) : (l.foldl Card.placeMark d).ports = d.ports ∧
      (d.flights.acts = [] → (l.foldl Card.placeMark d).flights.acts = []) := by
    induction l generalizing d with
    | nil => exact ⟨rfl, id⟩
    | cons x r ih =>
      obtain ⟨ports, acts⟩ := d.placeMark_ports x
      exact ⟨(ih _).1.trans ports, fun none => (ih _).2 (acts none)⟩
  unfold Card.placeDue
  split
  · exact ⟨rfl, id⟩
  · exact marks _ _

/-- With no action in progress there is none to take further: the tags and the actions stay (R386). -/
theorem Card.stepActs_ports {c : Card} (none : c.flights.acts = []) :
    c.stepActs.ports = c.ports ∧ c.stepActs.flights.acts = [] := by
  obtain ⟨ports, acts⟩ := c.placeDue_ports
  unfold Card.stepActs
  simp [acts none, ports]

end Sys2Proof.Machine

/-! Ending a command: its response, its entry, and the entries of the others (R22, R239, R240, R244). -/

namespace Sys2Proof.Machine

open Sys2Proof

/-- An entry as it was, a WRITE's but for the wings its inline reclaim still has to erase. -/
def EntryStays (a b : Option TagEntry) : Prop :=
  b = a ∨ ∃ e w l, a = some e ∧ e.state = .outstanding (.write w) ∧
    b = some { e with state := .outstanding (.write { w with inlineErases := l }) }

theorem EntryStays.refl (a : Option TagEntry) : EntryStays a a := .inl rfl

theorem EntryStays.trans {a b d : Option TagEntry} (h : EntryStays a b) (k : EntryStays b d) : EntryStays a d := by
  rcases h with rfl | ⟨e, w, l, ha, hw, rfl⟩
  · exact k
  · rcases k with rfl | ⟨e', w', l', hb, hw', rfl⟩
    · exact .inr ⟨e, w, l, ha, hw, rfl⟩
    · obtain rfl := Option.some.inj hb
      simp only [TagState.outstanding.injEq, Cmd.write.injEq] at hw'
      subst hw'
      exact .inr ⟨e, w, l', ha, hw, rfl⟩

theorem EntryStays.of_ports {c d : Card} (h : d.ports = c.ports) (t : Tag) : EntryStays (c.tagEntry t) (d.tagEntry t) :=
  .inl (by simp only [Card.tagEntry, h])

theorem EntryStays.foldl {α : Type} (f : Card → α → Card) (t : Tag)
    (h : ∀ c x, EntryStays (c.tagEntry t) ((f c x).tagEntry t)) (l : List α) (c : Card) :
    EntryStays (c.tagEntry t) ((l.foldl f c).tagEntry t) := by
  induction l generalizing c with
  | nil => exact .refl _
  | cons a r ih => exact (h c a).trans (ih _)

/-- Of an entry that stays: a command that is not a WRITE's is the same. -/
theorem EntryStays.cmdOf {c d : Card} {t : Tag} (h : EntryStays (c.tagEntry t) (d.tagEntry t)) :
    ((∀ w, c.cmdOf t ≠ some (.write w)) → d.tagEntry t = c.tagEntry t) ∧
    ∀ w, c.cmdOf t = some (.write w) → ∃ l, d.cmdOf t = some (.write { w with inlineErases := l }) := by
  rcases h with h | ⟨e, w, l, he, hw, h⟩
  · exact ⟨fun _ => h, fun w hw => ⟨w.inlineErases, by simpa only [Card.cmdOf, h] using hw⟩⟩
  · have was : c.cmdOf t = some (.write w) := by simp [Card.cmdOf, he, hw]
    refine ⟨fun no => absurd was (no w), fun v hv => ⟨l, ?_⟩⟩
    obtain rfl : w = v := by simpa [was] using hv
    simp [Card.cmdOf, h]

theorem Card.inlineErased_stays (c : Card) (w : Nat) (o : EraseOwner) (t : Tag) :
    EntryStays (c.tagEntry t) ((c.inlineErased w o).tagEntry t) := by
  unfold Card.inlineErased
  split
  · next u =>
    split
    · next k hk =>
      by_cases same : t = u
      · subst same
        obtain ⟨e, he, hs⟩ : ∃ e, c.tagEntry t = some e ∧ e.state = .outstanding (.write k) := by
          unfold Card.cmdOf at hk
          split at hk
          · next e he =>
            split at hk
            · next x hs => exact ⟨e, he, by simpa [hs] using hk⟩
            · cases hk
          · cases hk
        exact .inr ⟨e, k, k.inlineErases.filter (· != w), he, hs, by simp [Card.setCmd, he, hs]⟩
      · refine .inl ?_
        unfold Card.setCmd
        (repeat' split) <;> simp [Card.putTag_tagEntry_other _ _ same]
    · exact .refl _
  · exact .refl _

theorem Card.cutErase_stays (c : Card) (w : Nat) (hs : List Nat) (t : Tag) :
    EntryStays (c.tagEntry t) ((c.cutErase w hs).tagEntry t) := by
  unfold Card.cutErase
  split
  · exact .refl _
  · dsimp only
    have off (d : Card) := foldl_same Card.ports (fun (c : Card) h =>
      (c.setDie (dieNo h (dieRow w)) { c.die (dieNo h (dieRow w)) with erase := none }).complete (.erase w h) .aborted)
      (by intros; simp) (hs.filter (fun h => d.holdsErase (dieNo h (dieRow w)) w)) d
    split
    · exact (EntryStays.of_ports (by simp [off]) t).trans (Card.inlineErased_stays _ _ _ _)
    · exact .of_ports (by simp [off]) t

theorem Card.dropWork_stays (c : Card) (t u : Tag) : EntryStays (c.tagEntry u) ((c.dropWork t).tagEntry u) := by
  have erases (d : Card) : EntryStays (d.tagEntry u) ((d.endErases (.inline t)).tagEntry u) :=
    EntryStays.foldl _ u (fun c x => c.cutErase_stays _ _ u) _ d
  have before : EntryStays (c.tagEntry u) (((c.keepJobs (fun x => x.2.purpose.tag != some t)).endMoves
      (fun y => y == .inline t)).tagEntry u) := .of_ports (by simp) u
  have after (d : Card) : EntryStays (d.tagEntry u) (d.sweep.tagEntry u) := .of_ports (by simp) u
  exact before.trans ((erases _).trans (after _))

/-- A command's end leaves the entries of the others (R22, R244). -/
theorem Card.finish_stays (c : Card) {t u : Tag} (st : Status) (info : BitVec 24) (z : Bool) (other : u ≠ t) :
    EntryStays (c.tagEntry u) ((c.finish t st info z).tagEntry u) := by
  unfold Card.finish
  split
  · next e _ =>
    split
    · refine EntryStays.trans (.inl ?_) (Card.dropWork_stays _ t u)
      rw [Card.putTag_tagEntry_other _ _ other]
      simp [Card.tagEntry]
    · exact .refl _
  · exact .refl _

theorem Far.out_eq {c d : Card} (h : d.far = c.far) : d.out = c.out := congrArg Far.out h

/-- The ports but for the tags: the sequences of the responses among them (R235). -/
def Card.lines (c : Card) : Ports := { c.ports with tags := [] }

theorem Card.putTag_lines (c : Card) (t : Tag) (e : TagEntry) : (c.putTag t e).lines = c.lines := rfl

theorem Card.lines_of_ports {c d : Card} (h : d.ports = c.ports) : d.lines = c.lines := by
  simp only [Card.lines, h]

theorem Card.setCmd_lines (c : Card) (t : Tag) (k : Cmd) : (c.setCmd t k).lines = c.lines := by
  unfold Card.setCmd
  (repeat' split) <;> rfl

theorem Card.inlineErased_lines (c : Card) (w : Nat) (o : EraseOwner) : (c.inlineErased w o).lines = c.lines := by
  unfold Card.inlineErased
  (repeat' split) <;> first | rfl | exact Card.setCmd_lines _ _ _

theorem Card.cutErase_lines (c : Card) (w : Nat) (hs : List Nat) : (c.cutErase w hs).lines = c.lines := by
  unfold Card.cutErase
  split
  · rfl
  · dsimp only
    have off (d : Card) := foldl_same Card.ports (fun (c : Card) h =>
      (c.setDie (dieNo h (dieRow w)) { c.die (dieNo h (dieRow w)) with erase := none }).complete (.erase w h) .aborted)
      (by intros; simp) (hs.filter (fun h => d.holdsErase (dieNo h (dieRow w)) w)) d
    split
    · rw [Card.inlineErased_lines]
      exact Card.lines_of_ports (by simp [off])
    · exact Card.lines_of_ports (by simp [off])

theorem Card.dropWork_lines (c : Card) (t : Tag) : (c.dropWork t).lines = c.lines := by
  have erases (d : Card) : (d.endErases (.inline t)).lines = d.lines :=
    foldl_same Card.lines _ (fun c x => c.cutErase_lines _ _) _ d
  have before : ((c.keepJobs (fun x => x.2.purpose.tag != some t)).endMoves (fun y => y == .inline t)).lines = c.lines :=
    Card.lines_of_ports (by simp)
  have after (d : Card) : d.sweep.lines = d.lines := Card.lines_of_ports (by simp)
  exact (after _).trans ((erases _).trans before)

/-- The final response of an outstanding command (R239, R240). -/
theorem Card.finish_sends {c : Card} {t : Tag} {e : TagEntry} {k : Cmd} (st : Status) (info : BitVec 24) (z : Bool)
    (entry : c.tagEntry t = some e) (outstanding : e.state = .outstanding k) :
    (c.finish t st info z).out = (c.sendFinal e.port t st info z).out ∧
      (c.finish t st info z).lines = (c.sendFinal e.port t st info z).lines := by
  unfold Card.finish
  simp only [entry, outstanding]
  exact ⟨Far.out_eq (Card.dropWork_far _ t), Card.dropWork_lines _ t⟩

theorem Card.finish_none {c : Card} {t : Tag} (st : Status) (info : BitVec 24) (z : Bool) (none : c.cmdOf t = none) :
    c.finish t st info z = c := by
  unfold Card.finish
  split
  · next e he =>
    split
    · next k hk => simp [Card.cmdOf, he, hk] at none
    · rfl
  · rfl

theorem Card.sendFinal_eq {c : Card} {p : Port} (t : Tag) (st : Status) (info : BitVec 24) (z : Bool)
    (up : c.portUp p = true) : ∃ b, c.sendFinal p t st info z = { c with
      ports := (c.respond p 0 t st info z).ports, out := c.respNow p 0 t st info z :: c.out, bal := b } := by
  obtain ⟨b, h⟩ := Card.traceFinal_balconyOnly (c.respond p 0 t st info z) p t st info z
  refine ⟨b, h.trans ?_⟩
  rw [Card.respond_eq 0 t st info z up]

theorem Card.respond_lines {c : Card} {p : Port} (kind : BitVec 2) (code : BitVec 6) (st : Status) (info : BitVec 24)
    (z : Bool) (up : c.portUp p = true) : (c.respond p kind code st info z).ports = { c.ports with
      seqCo := if p = .ci then c.ports.seqCo + 1 else c.ports.seqCo
      seqDco := if p = .dci then c.ports.seqDco + 1 else c.ports.seqDco } := by
  unfold Card.respond
  rw [if_pos up]
  cases p <;> rfl

/-- Settles O32: the response, the entry and the others' entries, each by its lemma. -/
theorem oneFinalResponse : Obligations.OneFinalResponse := by
  unfold Obligations.OneFinalResponse
  refine fun c g st info z => ⟨fun e k entry out up => ?_, fun none => c.finish_none st info z none⟩
  obtain ⟨sent, lines⟩ := c.finish_sends st info z entry out
  obtain ⟨b, final⟩ := c.sendFinal_eq g st info z up
  have ports := c.respond_lines 0 g st info z up
  rw [final] at sent lines
  have co := congrArg Ports.seqCo lines
  have dco := congrArg Ports.seqDco lines
  simp only [Card.lines, ports] at co dco
  exact ⟨sent, c.finish_tagEntry g st info z entry out, co, dco, fun h other => (c.finish_stays st info z other).cmdOf⟩

end Sys2Proof.Machine

/-! Retrains and H2C transfers (R178, R188 to R199, R216 to R222). -/

namespace Sys2Proof.Machine

open Sys2Proof

/-! The retrain (R217 to R222). -/

theorem Far.link_eq {c d : Card} (h : d.far = c.far) : d.link = c.link := congrArg Far.link h

theorem Far.phase_eq {c d : Card} (h : d.far = c.far) : d.phase = c.phase := congrArg Far.phase h

/-- Training frames on the card whose retrain is counted and traced. -/
def Card.retrains (c : Card) (cause : Byte) (lanes : BitVec 4) (request : Bool) : Card :=
  ((c.bump 81 1).ev 10 [cause, lanes.setWidth 8]).enterTraining request

theorem Card.retrains_frame (c : Card) (cause : Byte) (lanes : BitVec 4) (request : Bool) :
    (c.retrains cause lanes request).phase = c.phase ∧ (c.retrains cause lanes request).ports = c.ports ∧
    (c.retrains cause lanes request).flights = c.flights ∧ (c.retrains cause lanes request).power = c.power ∧
    (c.retrains cause lanes request).link.lanes = c.link.lanes ∧ (c.retrains cause lanes request).link.mode = .training ∧
    (c.retrains cause lanes request).link.trained = 0 ∧ (c.retrains cause lanes request).link.retrainReq = request ∧
    (c.retrains cause lanes request).out = .training c.laneCap request :: c.out := by
  obtain ⟨b, h⟩ := (c.bump 81 1).ev_balconyOnly 10 [cause, lanes.setWidth 8]
  unfold Card.retrains
  rw [h]
  exact ⟨rfl, rfl, rfl, rfl, rfl, rfl, rfl, rfl, rfl⟩

theorem Card.cuts_of_ports {c d : Card} (ports : d.ports = c.ports) (lanes : d.link.lanes = c.link.lanes) :
    d.cuts = c.cuts := by
  have tags : d.outstanding = c.outstanding := by simp only [Card.outstanding, ports]
  have cmds (t : Tag) : d.cmdOf t = c.cmdOf t := Card.cmdOf_of_tags (by rw [ports]) t
  have cut (k : Cmd) : d.cutOf k = c.cutOf k := by
    unfold Card.cutOf Card.writeCut Card.lanesInUse
    simp only [lanes]
  unfold Card.cuts
  simp only [tags, cmds, cut]

theorem Card.beginRetrain_eq (c : Card) (cause : Byte) (lanes : BitVec 4) (request : Bool) :
    c.beginRetrain cause lanes request = (c.cuts.foldl Card.cutNow (c.retrains cause lanes request)).stepActs := by
  obtain ⟨b, h⟩ := (c.bump 81 1).ev_balconyOnly 10 [cause, lanes.setWidth 8]
  have same : ((c.bump 81 1).ev 10 [cause, lanes.setWidth 8]).cuts = c.cuts := by
    rw [h]
    exact Card.cuts_of_ports rfl rfl
  unfold Card.beginRetrain Card.retrains
  dsimp only
  rw [same]

/-- Where no transfer is to be ended the retrain is training frames alone. -/
theorem Card.beginRetrain_free {c : Card} (free : c.cuts = []) (cause : Byte) (lanes : BitVec 4) (request : Bool) :
    let d := c.beginRetrain cause lanes request
    d.link.mode = .training ∧ d.link.trained = 0 ∧ d.link.retrainReq = request ∧ d.link.lanes = c.link.lanes ∧
      d.phase = c.phase ∧ d.out = .training c.laneCap request :: c.out := by
  obtain ⟨phase, -, -, -, same, mode, trained, req, out⟩ := c.retrains_frame cause lanes request
  have far : (c.beginRetrain cause lanes request).far = (c.retrains cause lanes request).far := by
    rw [Card.beginRetrain_eq, free]
    exact Card.stepActs_far _
  dsimp only
  rw [Far.link_eq far, Far.phase_eq far, Far.out_eq far]
  exact ⟨mode, trained, req, same, phase, out⟩

/-- With no action in progress a cut leaves the tags to its command's end (R220, R296). -/
theorem Card.cutWrite_ports {c : Card} (t : Tag) (k : Option Cmd) (none : c.flights.acts = []) :
    (c.cutWrite t k).ports = c.ports ∧ (c.cutWrite t k).flights.acts = [] := by
  have landing (d : Card) (h : d.flights.acts = []) : d.cutLanding t = d := by simp [Card.cutLanding, h]
  unfold Card.cutWrite
  split
  · next w =>
    dsimp only
    split
    · rw [landing ((c.disown w).withdraw w) none]
      exact ⟨rfl, none⟩
    · exact ⟨rfl, none⟩
  · exact ⟨rfl, none⟩

theorem Card.finish_flights (c : Card) (t : Tag) (st : Status) (info : BitVec 24) (z : Bool) :
    (c.finish t st info z).flights = c.flights := by simp

theorem Card.cutNow_stays {c : Card} {x : OwedCheck} (none : c.flights.acts = []) :
    (c.cutNow x).flights.acts = [] ∧ (∀ g, g ≠ x.tag → EntryStays (c.tagEntry g) ((c.cutNow x).tagEntry g)) ∧
    ∀ e k, c.tagEntry x.tag = some e → e.state = .outstanding k → (c.cutNow x).tagEntry x.tag =
      some { e with state := .completed stLaneCheck (laneCheckInfo x.mask x.cause.toNat) } := by
  have acts : (c.finish x.tag stLaneCheck (laneCheckInfo x.mask x.cause.toNat) x.z).flights.acts = [] := by
    rw [Card.finish_flights, none]
  obtain ⟨ports, left⟩ := Card.cutWrite_ports x.tag (c.cmdOf x.tag) acts
  have entry (g : Tag) : (c.cutNow x).tagEntry g =
      (c.finish x.tag stLaneCheck (laneCheckInfo x.mask x.cause.toNat) x.z).tagEntry g := by
    unfold Card.cutNow Card.tagEntry
    dsimp only
    rw [ports]
  refine ⟨left, fun g other => ?_, fun e k he hk => ?_⟩
  · rw [entry]
    exact c.finish_stays _ _ _ other
  · rw [entry]
    exact c.finish_tagEntry _ _ _ _ he hk

/-- A WRITE's, or any outstanding command's, entry that stays is outstanding still. -/
theorem EntryStays.outstanding {a b : Option TagEntry} {e : TagEntry} {k : Cmd} (h : EntryStays a b) (ha : a = some e)
    (hk : e.state = .outstanding k) : ∃ k', b = some { e with state := .outstanding k' } := by
  rcases h with rfl | ⟨e', w, l, he, -, rfl⟩
  · exact ⟨k, by rw [ha, ← hk]⟩
  · obtain rfl : e' = e := Option.some.inj (he.symm.trans ha)
    exact ⟨_, rfl⟩

theorem EntryStays.completed {a b : Option TagEntry} {e : TagEntry} {st : Status} {info : BitVec 24} (h : EntryStays a b)
    (ha : a = some { e with state := .completed st info }) : b = some { e with state := .completed st info } := by
  rcases h with rfl | ⟨e', w, l, he, hw, -⟩
  · exact ha
  · obtain rfl := Option.some.inj (ha.symm.trans he)
    cases hw

/-- Cut after cut, each command named ends once, as the first cut says (R220). -/
theorem Card.cutNows_tagEntry {g : Tag} {e : TagEntry} {x : OwedCheck} (xs : List OwedCheck)
    (same : ∀ y, y ∈ xs → y.tag = g → y = x) (c : Card) (none : c.flights.acts = []) :
    let after := some { e with state := .completed stLaneCheck (laneCheckInfo x.mask x.cause.toNat) }
    (c.tagEntry g = after → (xs.foldl Card.cutNow c).tagEntry g = after) ∧
    ∀ k, c.tagEntry g = some { e with state := .outstanding k } → (∃ y, y ∈ xs ∧ y.tag = g) →
      (xs.foldl Card.cutNow c).tagEntry g = after := by
  intro after
  induction xs generalizing c with
  | nil => exact ⟨id, fun k _ ⟨y, hy, _⟩ => by cases hy⟩
  | cons y ys ih =>
    obtain ⟨left, others, own⟩ := Card.cutNow_stays (x := y) none
    obtain ⟨done, todo⟩ := ih (fun z hz => same z (List.mem_cons_of_mem _ hz)) (c.cutNow y) left
    refine ⟨fun h => done ?_, fun k h named => ?_⟩
    · by_cases own : y.tag = g
      · have idle : c.cmdOf y.tag = .none := by simp [Card.cmdOf, own, h, after]
        have ports := (Card.cutWrite_ports y.tag (c.cmdOf y.tag) none).1
        unfold Card.cutNow Card.tagEntry
        dsimp only
        rw [Card.finish_none _ _ _ idle, ports]
        exact h
      · exact (others g (Ne.symm own)).completed h
    · by_cases own' : y.tag = g
      · subst own'
        obtain rfl := same y List.mem_cons_self rfl
        exact done (own { e with state := .outstanding k } k h rfl)
      · obtain ⟨k', hk'⟩ := (others g (Ne.symm own')).outstanding h rfl
        obtain ⟨z, hz, named⟩ := named
        rcases List.mem_cons.mp hz with rfl | hz
        · exact absurd named own'
        · exact todo k' hk' ⟨z, hz, named⟩

theorem KV.mem_of_find {α : Type} {m : KV α} {k : Nat} {v : α} (h : KV.find m k = some v) : (k, v) ∈ m := by
  induction m with
  | nil => cases h
  | cons a r ih =>
    unfold KV.find at h
    split at h
    · next same =>
      obtain ⟨j, w⟩ := a
      simp only [Option.some.injEq] at h same
      subst h same
      exact List.mem_cons_self
    · exact List.mem_cons_of_mem _ (ih h)

/-- A tag with a command outstanding is among those outstanding. -/
theorem Card.mem_outstanding {c : Card} {g : Tag} {e : TagEntry} {k : Cmd} (entry : c.tagEntry g = some e)
    (out : e.state = .outstanding k) : g ∈ c.outstanding := by
  refine List.mem_filterMap.mpr ⟨(g.toNat, e), KV.mem_of_find entry, ?_⟩
  simp [out]

/-- The cut of an outstanding command is among the cuts, and is its tag's only one (R220). -/
theorem Card.mem_cuts {c : Card} {g : Tag} {e : TagEntry} {k : Cmd} {x : BitVec 4 × Byte × Bool}
    (entry : c.tagEntry g = some e) (out : e.state = .outstanding k) (cut : c.cutOf k = some x) :
    { tag := g, mask := x.1, cause := x.2.1, z := x.2.2 } ∈ c.cuts ∧
      ∀ y, y ∈ c.cuts → y.tag = g → y = { tag := g, mask := x.1, cause := x.2.1, z := x.2.2 } := by
  have cmd : c.cmdOf g = some k := by simp [Card.cmdOf, entry, out]
  refine ⟨List.mem_filterMap.mpr ⟨g, Card.mem_outstanding entry out, by simp [cmd, cut]⟩, fun y hy same => ?_⟩
  obtain ⟨t, -, ht⟩ := List.mem_filterMap.mp hy
  split at ht
  · next j hj =>
    obtain ⟨z, hz, rfl⟩ := Option.map_eq_some_iff.mp ht
    obtain rfl : t = g := same
    obtain rfl : k = j := Option.some.inj (cmd.symm.trans hj)
    obtain rfl := Option.some.inj (cut.symm.trans hz)
    rfl
  · cases ht

/-- What a retrain leaves of a command that it ends (R198, R220, R221). -/
theorem Card.beginRetrain_tagEntry {c : Card} (cause : Byte) (lanes : BitVec 4) (request : Bool) (none : c.flights.acts = [])
    {g : Tag} {e : TagEntry} {k : Cmd} {x : BitVec 4 × Byte × Bool} (entry : c.tagEntry g = some e)
    (out : e.state = .outstanding k) (cut : c.cutOf k = some x) :
    (c.beginRetrain cause lanes request).tagEntry g =
      some { e with state := .completed stLaneCheck (laneCheckInfo x.1 x.2.1.toNat) } := by
  obtain ⟨named, only⟩ := Card.mem_cuts entry out cut
  obtain ⟨-, ports, flights, -⟩ := c.retrains_frame cause lanes request
  have none' : (c.retrains cause lanes request).flights.acts = [] := by rw [flights, none]
  have entry' : (c.retrains cause lanes request).tagEntry g = some { e with state := .outstanding k } := by
    rw [Card.tagEntry, ports, ← out]
    exact entry
  have ended := (Card.cutNows_tagEntry (e := e) c.cuts only _ none').2 k entry' ⟨_, named, rfl⟩
  have acts (xs : List OwedCheck) (d : Card) (h : d.flights.acts = []) : (xs.foldl Card.cutNow d).flights.acts = [] := by
    induction xs generalizing d with
    | nil => exact h
    | cons y ys ih => exact ih _ (Card.cutNow_stays h).1
  rw [Card.beginRetrain_eq, Card.tagEntry, (Card.stepActs_ports (acts c.cuts _ none')).1]
  exact ended

/-- Settles O22: the retrain's branches, and the cut of each kind of command. -/
theorem retrainRule : Obligations.RetrainRule := by
  unfold Obligations.RetrainRule
  refine ⟨fun s k m up hclk => ⟨fun free cuts acts => ⟨?_, fun lanes => ?_⟩, fun hold => ⟨?_, fun lanes => ?_⟩, fun none => ?_⟩,
    fun s up hclk free acts => ?_⟩
  · obtain ⟨t, next, b, ht⟩ := run_spec Card.hostRetrain s
    refine ⟨t, next, ?_⟩
    have set : s.card.hostRetrain = s.card.beginRetrain 0x01 0 false := by
      simp [Card.hostRetrain, Card.linkUp, up, hclk, free]
    rw [ht, set]
    exact Card.beginRetrain_free cuts 0x01 0 false
  · obtain ⟨t, next, b, ht⟩ := run_spec (fun c => c.cardRetrain k m) s
    refine ⟨t, next, ?_⟩
    have set : s.card.cardRetrain k m = s.card.beginRetrain (retrainCode k) (s.card.retrainLanes k m) true := by
      simp [Card.cardRetrain, Card.linkUp, up, hclk, free]
      exact fun h => absurd h lanes
    rw [ht]
    dsimp only
    rw [set]
    exact Card.beginRetrain_free cuts _ _ true
  · exact run_eq (by simp [Card.hostRetrain, Card.linkUp, up, hclk, hold, Card.holdRetrain]) (Nat.le_refl _)
  · have set : s.card.cardRetrain k m = s.card.holdRetrain (retrainCode k) (s.card.retrainLanes k m) true := by
      simp [Card.cardRetrain, Card.linkUp, up, hclk, hold]
      exact fun h => absurd h lanes
    exact run_eq (f := fun c => c.cardRetrain k m) (set.trans (by simp [Card.holdRetrain])) (Nat.le_refl _)
  · exact run_eq (f := fun c => c.cardRetrain k m) (d := s.card) (by simp [Card.cardRetrain, none]) (Nat.le_refl _)
  · obtain ⟨t, next, b, ht⟩ := run_spec Card.hostRetrain s
    refine ⟨t, next, fun g e k entry out => ?_⟩
    have set : s.card.hostRetrain = s.card.beginRetrain 0x01 0 false := by
      simp [Card.hostRetrain, Card.linkUp, up, hclk, free]
    have ends {x : BitVec 4 × Byte × Bool} (cut : s.card.cutOf k = some x) : t.card.tagEntry g =
        some { e with state := .completed stLaneCheck (laneCheckInfo x.1 x.2.1.toNat) } := by
      rw [ht, set]
      exact Card.beginRetrain_tagEntry 0x01 0 false acts entry out cut
    refine ⟨fun ⟨w, hw⟩ => ?_, fun w hw => ?_, fun w x hw keeps stage xfer good => ?_⟩
    · rcases hw with rfl | rfl <;> exact ends rfl
    · subst hw
      have cut : s.card.cutOf (.stream w) = some (if w.sent = 0 then 0 else s.card.lanesInUse, 0x05, w.zeros) := rfl
      have zero : (if w.sent = 0 then (0 : BitVec 4) else s.card.lanesInUse).toNat =
          if w.sent = 0 then 0 else (laneMask s.card.link.lanes).toNat := by
        split <;> rfl
      have five : (0x05 : Byte).toNat = 5 := rfl
      rw [ends cut, laneCheckInfo, zero, five]
    · subst hw
      have cut : s.card.cutOf (.write w) = some (s.card.lanesInUse, 0x05, false) := by
        simp [Card.cutOf, keeps, stage, Card.writeCut, xfer, good]
      have five : (0x05 : Byte).toNat = 5 := rfl
      rw [ends cut, laneCheckInfo, five, Card.lanesInUse]

/-! H2C transfers (R178, R188 to R199). -/

theorem Card.openXfer_eq_some {c : Card} {t : Tag} {w : WriteWork} {x : Xfer} :
    c.openXfer t = some (w, x) ↔ c.cmdOf t = some (.write w) ∧ w.stage = .data ∧ w.xfer = some x := by
  constructor
  · intro h
    unfold Card.openXfer at h
    split at h
    · next v hv =>
      split at h
      · next y hs hy =>
        obtain ⟨rfl, rfl⟩ := Prod.mk.inj (Option.some.inj h)
        exact ⟨hv, hs, hy⟩
      · cases h
    · cases h
  · rintro ⟨hv, hs, hy⟩
    simp [Card.openXfer, hv, hs, hy]

/-- Writing a WRITE's work with its transfer open leaves that transfer open (R191). -/
theorem Card.openXfer_setWrite {c : Card} {t : Tag} {w : WriteWork} {x : Xfer} (y : Xfer) (h : c.openXfer t = some (w, x)) :
    (c.setWrite t { w with xfer := some y }).openXfer t = some ({ w with xfer := some y }, y) := by
  obtain ⟨cmd, stage, -⟩ := Card.openXfer_eq_some.mp h
  exact Card.openXfer_eq_some.mpr ⟨c.setCmd_cmdOf t (.write { w with xfer := some y }) cmd, stage, rfl⟩

theorem Card.openXfer_of_ports {c d : Card} (h : d.ports = c.ports) (t : Tag) : d.openXfer t = c.openXfer t := by
  have cmd : d.cmdOf t = c.cmdOf t := Card.cmdOf_of_tags (by rw [h]) t
  simp only [Card.openXfer, cmd]

/-- A lane that fails once the transfer's frames are otherwise well received (R195, R198). -/
theorem Xfer.take_frames (x : Xfer) (k : Nat) (f : RxFrame) :
    (x.take k f).frames = x.frames ++ [{ lane := k, index := f.index, payload := f.payload }] ∧
    (x.take k f).trailers = x.trailers ∧ (KV.find x.trailers k = none → (x.take k f).failed = x.failed) ∧
    ((KV.find x.trailers k).isSome = true → (x.take k f).failed = x.failed ||| (1#4 <<< k)) := by
  unfold Xfer.take Xfer.fail
  dsimp only
  cases h : KV.find x.trailers k <;> simp

theorem getLsbD_or_bit (m : BitVec 4) {k : Nat} (h : k < 4) : (m ||| (1#4 <<< k)).getLsbD k = true := by
  simp [h]

/-- The card with a codeword through a lane's receiver, and counted (R174, R177, R182). -/
def Card.afterWord (c : Card) (w : LaneWord) (idle : Bool) : Card :=
  ({ c with link := c.link.received w.lane.toNat (c.decodeWord w) } : Card).bump
    (wordCounter w.lane.toNat (c.decodeWord w).bad idle) (if (c.decodeWord w).bad then 1 else (c.decodeWord w).corrected)

/-- The frame counts as failed: it is uncorrectable or follows an uncorrectable codeword (R178). -/
def Card.illWord (c : Card) (w : LaneWord) : Bool := (c.decodeWord w).bad || c.link.lastBad.getLsbD w.lane.toNat

theorem Card.laneDecode_afterWord (c : Card) (w : LaneWord) (idle : Bool) :
    c.laneDecode w.lane (c.decodeWord w) idle = (c.afterWord w idle, c.illWord w) := c.laneDecode_eq w.lane _ idle

theorem Card.afterWord_ports (c : Card) (w : LaneWord) (idle : Bool) : (c.afterWord w idle).ports = c.ports := rfl

/-- The low counters are not those of codewords. -/
theorem Card.afterWord_count (c : Card) (w : LaneWord) (idle : Bool) {n : Nat} (h : n < 64) :
    (c.afterWord w idle).count n = c.count n := by
  have apart : n ≠ wordCounter w.lane.toNat (c.decodeWord w).bad idle := by
    unfold wordCounter
    (repeat' split) <;> omega
  exact Card.count_bump_other _ _ apart

theorem Card.dataFrame_stray {c : Card} {w : LaneWord} (hears : c.hearsWord w .data = true)
    (none : c.openXfer (c.decodeWord w).tag = none) : c.dataFrame w = (c.afterWord w false).bump 6 1 := by
  unfold Card.dataFrame
  simp only [hears, Bool.not_true, Bool.false_eq_true, if_false, Card.laneDecode_afterWord,
    Card.openXfer_of_ports (c.afterWord_ports w false), none]

theorem Card.dataFrame_open {c : Card} {w : LaneWord} {k : WriteWork} {x : Xfer} (hears : c.hearsWord w .data = true)
    (opened : c.openXfer (c.decodeWord w).tag = some (k, x)) :
    c.dataFrame w = (c.afterWord w false).setWrite (c.decodeWord w).tag { k with
      xfer := some (if c.illWord w then x.fail w.lane.toNat 0x02 else x.take w.lane.toNat (c.decodeWord w)) } := by
  unfold Card.dataFrame
  simp only [hears, Bool.not_true, Bool.false_eq_true, if_false, Card.laneDecode_afterWord,
    Card.openXfer_of_ports (c.afterWord_ports w false), opened]

/-- Settles O24: the frame's tag, and then what its lane's receiver makes of it. -/
theorem dataFrameRule : Obligations.DataFrameRule := by
  unfold Obligations.DataFrameRule
  intro s w hears f lane ill
  obtain ⟨t, next, ⟨b, ht⟩, counts⟩ := run_counts (fun c => c.dataFrame w) s
  refine ⟨t, next, fun none => ⟨?_, ?_⟩, fun k x opened => ?_⟩
  · rw [ht]
    dsimp only
    rw [Card.dataFrame_stray hears none]
    rfl
  · have stray := counts 6 (by decide)
    rw [Card.dataFrame_stray hears none, Card.count_bump_same _ _ (by decide), Card.afterWord_count _ _ _ (by decide)] at stray
    exact stray
  · obtain ⟨frames, trailers, before, after⟩ := x.take_frames lane f
    have low : lane < 4 := w.lane.isLt
    have open' : (s.card.afterWord w false).openXfer f.tag = some (k, x) := by
      rw [Card.openXfer_of_ports (s.card.afterWord_ports w false)]
      exact opened
    have same : t.card.ports = (s.card.dataFrame w).ports := by rw [ht]
    refine ⟨if ill then x.fail lane 0x02 else x.take lane f, ?_, ?_, fun good => ?_, fun bad => ?_⟩
    · rw [Card.openXfer_of_ports same, Card.dataFrame_open hears opened]
      exact Card.openXfer_setWrite _ open'
    · split
      · rfl
      · exact trailers
    · simp only [good, Bool.false_eq_true, if_false]
      exact ⟨frames, before, fun late => by rw [after late, getLsbD_or_bit _ low]⟩
    · simp only [bad, if_true]
      exact ⟨rfl, rfl, rfl⟩

end Sys2Proof.Machine

/-! Trailers and the end of an H2C transfer (R188, R193 to R199, R289). -/

namespace Sys2Proof.Machine

open Sys2Proof

theorem Card.finish_completes {c : Card} {t : Tag} {e : TagEntry} {k : Cmd} (st : Status) (info : BitVec 24) (z : Bool)
    (entry : c.tagEntry t = some e) (cmd : c.cmdOf t = some k) :
    (c.finish t st info z).tagEntry t = some { e with state := .completed st info } := by
  cases out : e.state with
  | outstanding j => exact c.finish_tagEntry t st info z entry out
  | completed a b => simp [Card.cmdOf, entry, out] at cmd

/-- What a trailer makes of its lane: failed as received, as checked, or neither (R195, R198). -/
def Xfer.trailed (x : Xfer) (n k : Nat) (issue ill : Bool) (t : Trailer) : Xfer :=
  let y := { x with trailers := KV.put x.trailers k t }
  if ill then y.fail k 0x02
  else match x.check n k issue t with
    | some cause => y.fail k cause
    | none => y

/-- The last lane's trailer ends the transfer (R195). -/
theorem Card.trailerFrame_last {c : Card} {v : LaneWord} {w : WriteWork} {x : Xfer} {e : TagEntry}
    (hears : c.hearsWord v .trailer = true) (opened : c.openXfer (c.decodeWord v).tag = some (w, x))
    (entry : c.tagEntry (c.decodeWord v).tag = some e)
    (others : ∀ i, i < c.link.lanes → i ≠ v.lane.toNat → (KV.find x.trailers i).isSome = true) :
    c.trailerFrame v = (c.afterWord v false).endXfer (c.decodeWord v).tag w
      (x.trailed c.link.lanes v.lane.toNat e.issue (c.illWord v) (trailerOf (c.decodeWord v).payload)) := by
  have entry' : (c.afterWord v false).tagEntry (c.decodeWord v).tag = some e := entry
  have lanes : (c.afterWord v false).link.lanes = c.link.lanes := rfl
  have opened' := (Card.openXfer_of_ports (c.afterWord_ports v false) _).trans opened
  have check : ({ x with trailers := KV.put x.trailers v.lane.toNat (trailerOf (c.decodeWord v).payload) } : Xfer).check
      c.link.lanes v.lane.toNat e.issue (trailerOf (c.decodeWord v).payload) =
      x.check c.link.lanes v.lane.toNat e.issue (trailerOf (c.decodeWord v).payload) := rfl
  have trailers : (x.trailed c.link.lanes v.lane.toNat e.issue (c.illWord v) (trailerOf (c.decodeWord v).payload)).trailers =
      KV.put x.trailers v.lane.toNat (trailerOf (c.decodeWord v).payload) := by
    unfold Xfer.trailed Xfer.fail
    dsimp only
    (repeat' split) <;> rfl
  have all : (List.range c.link.lanes).all (fun i => (KV.find (x.trailed c.link.lanes v.lane.toNat e.issue (c.illWord v)
      (trailerOf (c.decodeWord v).payload)).trailers i).isSome) = true := by
    rw [List.all_eq_true]
    intro i hi
    rw [trailers]
    by_cases own : i = v.lane.toNat
    · rw [own, KV.find_put_same]
      rfl
    · rw [KV.find_put_other _ _ own]
      exact others i (List.mem_range.mp hi) own
  unfold Card.trailerFrame
  simp only [hears, Bool.not_true, Bool.false_eq_true, if_false, Card.laneDecode_afterWord, opened', entry', lanes, check]
  exact if_pos all

/-- A failed transfer ends its WRITE with the mask and the cause (R196, R198). -/
theorem Card.endXfer_failed {c : Card} {t : Tag} {w : WriteWork} {x : Xfer} {e : TagEntry} {k : Cmd} (failed : x.failed ≠ 0)
    (entry : c.tagEntry t = some e) (cmd : c.cmdOf t = some k) : (c.endXfer t w x).tagEntry t =
      some { e with state := .completed stLaneCheck (laneCheckInfo x.failed (x.cause.getD 0).toNat) } := by
  unfold Card.endXfer
  rw [if_pos failed]
  exact Card.finish_completes _ _ _ entry cmd

/-- A WRITE with its data that an earlier command delays waits (R289). -/
theorem Card.advanceWrite_delayed {c : Card} {t : Tag} {w : WriteWork} (cmd : c.cmdOf t = some (.write w))
    (stage : w.stage = .merging) (delayed : w.delayed = true) : c.advanceWrite t = c := by
  unfold Card.advanceWrite
  simp [cmd, stage, delayed]

/-- A good transfer's data waits where an earlier command delays the WRITE (R289). -/
theorem Card.endXfer_delayed {c : Card} {t : Tag} {w : WriteWork} {x : Xfer} {k : Cmd} (good : x.failed = 0)
    (delayed : w.delayed = true) (cmd : c.cmdOf t = some k) : (c.endXfer t w x).cmdOf t =
      some (.write { w with stage := .merging, xfer := none, data := x.joined c.link.lanes }) := by
  have set := c.setCmd_cmdOf t (.write { w with stage := .merging, xfer := none, data := x.joined c.link.lanes }) cmd
  have waits := Card.advanceWrite_delayed set rfl delayed
  unfold Card.endXfer
  rw [if_neg (not_not.mpr good), Card.setWrite, waits]
  exact set

theorem bit_ne_zero {k : Nat} (h : k < 4) : (1#4 <<< k) ≠ 0 := by
  interval_cases k <;> decide

/-- A mask gathered over the lanes below `n` (R195, R220). -/
theorem gathered_getLsbD (p : Nat → Bool) (n k : Nat) (h : k < 4) :
    ((List.range n).foldl (fun (m : BitVec 4) i => if p i then m ||| (1#4 <<< i) else m) 0).getLsbD k =
      (decide (k < n) && p k) := by
  have bit (n : Nat) : (1#4 <<< n).getLsbD k = decide (k = n) := by
    rw [BitVec.getLsbD_shiftLeft, BitVec.getLsbD_one]
    rcases lt_trichotomy k n with lt | rfl | gt
    · simp [lt, lt.ne]
    · simp [h]
    · simp [gt.ne', Nat.sub_ne_zero_of_lt gt]
  induction n with
  | zero => simp
  | succ n ih =>
    rw [List.range_succ, List.foldl_append, List.foldl_cons, List.foldl_nil]
    rcases eq_or_ne k n with rfl | other
    · split
      · next hp => simp [BitVec.getLsbD_or, bit, hp]
      · next hp => rw [ih]; simp [hp]
    · have below : decide (k < n + 1) = decide (k < n) := by
        rw [decide_eq_decide]
        omega
      rw [below, ← ih]
      split
      · rw [BitVec.getLsbD_or, bit, decide_eq_false other, Bool.or_false]
      · rfl

/-- Settles O25: the last trailer's outcomes, and the mask of a timeout. -/
theorem trailerRules : Obligations.TrailerRules := by
  unfold Obligations.TrailerRules
  refine ⟨fun s v e w x hears => ?_, fun s g e w x opened entry hclk => ?_⟩
  · intro f n k entry opened good first others failedWith clean
    have low : k < 4 := v.lane.isLt
    obtain ⟨t, next, b, ht⟩ := run_spec (fun c => c.trailerFrame v) s
    have set := Card.trailerFrame_last hears opened entry others
    obtain ⟨cmd, -, -⟩ := Card.openXfer_eq_some.mp opened
    have entry' : (s.card.afterWord v false).tagEntry f.tag = some e := entry
    have cmd' : (s.card.afterWord v false).cmdOf f.tag = some (.write w) := cmd
    have fails {cause : Byte} (h : x.trailed s.card.link.lanes k e.issue (s.card.illWord v) (trailerOf f.payload) =
        ({ x with trailers := KV.put x.trailers k (trailerOf f.payload) } : Xfer).fail k cause) :
        failedWith t cause.toNat := by
      have failed : (({ x with trailers := KV.put x.trailers k (trailerOf f.payload) } : Xfer).fail k cause).failed =
          1#4 <<< k := by simp [Xfer.fail, good]
      have told : (({ x with trailers := KV.put x.trailers k (trailerOf f.payload) } : Xfer).fail k cause).cause =
          some cause := by simp [Xfer.fail, first]
      have ended := Card.endXfer_failed (w := w) (failed.trans_ne (bit_ne_zero low)) entry' cmd'
      rw [failed, told] at ended
      show t.card.tagEntry f.tag = _
      rw [ht]
      dsimp only
      rw [set, h]
      exact ended
    refine ⟨t, next, fun bad => fails (cause := 0x02) ?_, fun ⟨well, after⟩ wrong => fails (cause := 0x03) ?_,
      fun ⟨well, after⟩ wrong => fails (cause := 0x01) ?_, fun ⟨well, after⟩ right delayed => ?_⟩
    · have ill : s.card.illWord v = true := by
        rw [Card.illWord, Bool.or_eq_true]
        exact .inl bad
      simp [Xfer.trailed, ill]
    all_goals
      have good' : s.card.illWord v = false := by
        rw [Card.illWord, Bool.or_eq_false_iff]
        exact ⟨well, after⟩
    · simp [Xfer.trailed, good', n] at wrong ⊢
      rw [wrong]
    · simp [Xfer.trailed, good', n] at wrong ⊢
      rw [wrong]
    · have kept : x.trailed s.card.link.lanes k e.issue (s.card.illWord v) (trailerOf f.payload) =
          { x with trailers := KV.put x.trailers k (trailerOf f.payload) } := by
        simp only [Xfer.trailed, good', Bool.false_eq_true, if_false]
        rw [right]
      rw [ht]
      dsimp only
      rw [set, kept]
      exact Card.endXfer_delayed good delayed cmd'
  · obtain ⟨t, next, b, ht⟩ := run_spec (fun c => c.trailerTimeout g) s
    obtain ⟨cmd, -, -⟩ := Card.openXfer_eq_some.mp opened
    let missing : BitVec 4 := (List.range s.card.link.lanes).foldl (fun m k =>
      if (KV.find x.trailers k).isNone then m ||| (1#4 <<< k) else m) 0
    have set : s.card.trailerTimeout g = s.card.finish g stLaneCheck (laneCheckInfo (missing ||| x.failed) 6) false := by
      simp [Card.trailerTimeout, opened, hclk, missing]
    refine ⟨t, next, missing ||| x.failed, ?_, fun k low => ?_⟩
    · rw [ht]
      dsimp only
      rw [set]
      exact Card.finish_completes _ _ _ entry cmd
    · rw [BitVec.getLsbD_or, gathered_getLsbD _ _ _ low, Bool.or_comm]

end Sys2Proof.Machine

/-! The places of a gallery, and the Balcony's slots (R405 to R407, R572 to R586). -/

namespace Sys2Proof.Machine

open Sys2Proof

/-! Galleries (R405 to R407). -/

theorem firstHall_succ_missing {missing : List Nat} {n h : Nat} (gone : h % 16 ∈ missing) :
    firstHall missing (n + 1) h = firstHall missing n (h + 1) := by
  simp [firstHall, gone]

theorem firstHall_succ_there {missing : List Nat} {n h : Nat} (there : h % 16 ∉ missing) :
    firstHall missing (n + 1) h = h % 16 := by
  simp [firstHall, there]

/-- The search takes the first hall that is not missing. -/
theorem firstHall_eq {missing : List Nat} {j n h : Nat} (short : j < n) (gone : ∀ i, i < j → (h + i) % 16 ∈ missing)
    (there : (h + j) % 16 ∉ missing) : firstHall missing n h = (h + j) % 16 := by
  induction j generalizing n h with
  | zero =>
    obtain ⟨k, rfl⟩ := Nat.exists_eq_add_of_lt short
    simpa using firstHall_succ_there there
  | succ j ih =>
    obtain ⟨k, rfl⟩ := Nat.exists_eq_add_of_lt short
    have next (i : Nat) : h + 1 + i = h + (i + 1) := by omega
    rw [show j + 1 + k + 1 = (j + 1 + k) + 1 from rfl, firstHall_succ_missing (by simpa using gone 0 (Nat.succ_pos j)),
      ih (by omega) (fun i hi => next i ▸ gone (i + 1) (by omega)) (next j ▸ there), next]

/-- Of sixteen halls from anywhere one is not missing, where one is not. -/
theorem exists_first {missing : List Nat} (some : ∃ h, h < 16 ∧ h ∉ missing) (g : Nat) :
    ∃ j, j < 16 ∧ (∀ i, i < j → (g + i) % 16 ∈ missing) ∧ (g + j) % 16 ∉ missing := by
  obtain ⟨h, low, there⟩ := some
  have found : ∃ j, (g + j) % 16 ∉ missing := ⟨h + 16 * g - g, by
    have same : (g + (h + 16 * g - g)) % 16 = h := by omega
    rwa [same]⟩
  have bound : Nat.find found ≤ (h + 16 - g % 16) % 16 := Nat.find_min' found (by
    have same : (g + (h + 16 - g % 16) % 16) % 16 = h := by omega
    rwa [same])
  exact ⟨Nat.find found, by omega, fun i hi => not_not.mp (Nat.find_min found hi), Nat.find_spec found⟩

theorem parityHall_eq {g j : Nat} {missing : List Nat} (low : j < 16) (gone : ∀ i, i < j → (g + i) % 16 ∈ missing)
    (there : (g + j) % 16 ∉ missing) : parityHall g missing = (g + j) % 16 := by
  have wrap (i : Nat) : (g % 16 + i) % 16 = (g + i) % 16 := by omega
  unfold parityHall
  rw [firstHall_eq low (fun i hi => wrap i ▸ gone i hi) (wrap j ▸ there), wrap]

/-- The last hall of a list in ascending order is its highest. -/
theorem le_getLastD_of_pairwise {l : List Nat} (sorted : l.Pairwise (· < ·)) {h : Nat} (mem : h ∈ l) : h ≤ l.getLastD 0 := by
  induction l using List.reverseRecOn with
  | nil => cases mem
  | append_singleton l a _ =>
    rw [List.pairwise_append] at sorted
    rw [List.getLastD_concat]
    rcases List.mem_append.mp mem with low | last
    · exact (sorted.2.2 h low a (List.mem_singleton_self a)).le
    · exact (List.mem_singleton.mp last).le

/-- Settles O60: the first hall not missing, and the order of the halls. -/
theorem galleryPlaces : Obligations.GalleryPlaces := by
  unfold Obligations.GalleryPlaces
  intro g missing some
  obtain ⟨j, low, gone, there⟩ := exists_first some g
  have parity := parityHall_eq low gone there
  have sorted : (dataHalls g missing).Pairwise (· < ·) := List.pairwise_lt_range.filter _
  have last : (dataHalls 383 missing).Pairwise (· < ·) := List.pairwise_lt_range.filter _
  refine ⟨parity ▸ Nat.mod_lt _ (by decide), parity ▸ there, fun k _ all same => ?_, fun k hk => parityHall_eq hk,
    fun h => ?_, sorted, fun h => le_getLastD_of_pairwise last, fun full => ?_⟩
  · exact there (parity ▸ same ▸ all k le_rfl)
  · simp [dataHalls, allHalls]
  · unfold summaryHall
    rw [List.getLastD_eq_getLast?, List.getLast?_eq_some_getLast full]
    exact List.getLast_mem full

/-! The Balcony's slots (R572 to R586). -/

/-- Settles O59: the branches of BALCONY_PERIOD and BALCONY_SLOT. -/
theorem balconyPeriod : Obligations.BalconyPeriod := by
  unfold Obligations.BalconyPeriod
  intro s drives sent
  refine ⟨fun running busy => ?_, fun due => ?_, fun n slot => ⟨fun clear => ⟨fun pos low => ?_, fun past few empty => ?_,
    fun r q past few queue => ?_⟩, fun load r q queue => ?_⟩⟩
  · refine run_eq (f := Card.balPeriod) (d := s.card) ?_ (Nat.le_refl _)
    rcases busy with past | load
    · simp [Card.balPeriod, running, past]
    · simp [Card.balPeriod, running, load]
  · have opens : (s.card.drivesBal && (s.card.bal.startDue || (s.card.slotsOver && !s.card.loadQueued))) = true := by
      rcases due with start | ⟨past, clear⟩
      · simp [drives, start]
      · simp [drives, past, clear]
    exact ⟨_, run_eq (f := Card.balPeriod) (if_pos opens) (Nat.le_refl _), ⟨rfl, rfl⟩, rfl, rfl⟩
  · have low' : n ≤ 96 := by omega
    have counter : s.card.balSlot = (s.card.sendRecord
        { type := BitVec.ofNat 8 (0x7F + n), stamp := s.card.stamp, payload := leBytes 8 (s.card.counter (n - 1)).toNat }).setSlot
          (n + 1) := by
      simp [Card.balSlot, slot, drives, clear, low']
    exact ⟨_, run_eq (f := Card.balSlot) counter (Nat.le_refl _), rfl, rfl, rfl, rfl⟩
  · have high : ¬ n ≤ 96 := by omega
    have few' : n < Config.periodSlots := few
    refine ⟨_, run_eq (f := Card.balSlot) (d := s.card.setSlot (n + 1)) ?_ (Nat.le_refl _), rfl, rfl, rfl⟩
    simp [Card.balSlot, slot, drives, clear, high, few', Card.sendHead, empty, Card.setSlot]
  · have high : ¬ n ≤ 96 := by omega
    have few' : n < Config.periodSlots := few
    have plain : ¬ r.type = 0x01 := by
      simp [Card.loadQueued, queue] at clear
      exact clear.1
    refine ⟨_, run_eq (f := Card.balSlot) (d := ({ s.card with bal := { s.card.bal with slot := some (n + 1), queue := q } } :
      Card).sendRecord (s.card.builtNow r)) ?_ ?_, rfl, rfl, rfl, rfl⟩
    · have head : (s.card.setSlot (n + 1)).sendHead = ({ s.card with bal :=
          { s.card.bal with slot := some (n + 1), queue := q } } : Card).sendRecord (s.card.builtNow r) := by
        have same : (s.card.setSlot (n + 1)).bal.queue = r :: q := queue
        unfold Card.sendHead
        simp only [same]
        rw [if_neg plain]
        rfl
      rw [← head]
      simp [Card.balSlot, slot, drives, clear, high, few']
    · rw [queue]
      exact Nat.le_succ _
  · refine ⟨_, run_eq (f := Card.balSlot) (d := s.card.sendHead) ?_ ?_, ?_⟩
    · simp [Card.balSlot, slot, drives, load]
    · unfold Card.sendHead
      rw [queue]
      dsimp only
      split <;> exact Nat.le_succ _
    · simp only [Card.sendHead, queue]
      split
      · exact ⟨rfl, ⟨rfl, rfl⟩, rfl⟩
      · exact ⟨rfl, ⟨rfl, rfl⟩, slot⟩

end Sys2Proof.Machine

/-! Frames without a command, and the bytes of frames and SYNC messages (R228 to R254, R350 to R354). -/

namespace Sys2Proof.Machine

open Sys2Proof

theorem leNat_append (a b : List Byte) : leNat (a ++ b) = leNat a + 256 ^ a.length * leNat b := by
  induction a with
  | nil => simp [leNat]
  | cons x r ih =>
    simp only [List.cons_append, leNat, ih, List.length_cons, pow_succ]
    ring

theorem leNat_leBytes_toNat {n w : Nat} (x : BitVec w) (h : w = 8 * n) : leNat (leBytes n x.toNat) = x.toNat := by
  rw [leNat_leBytes, Nat.mod_eq_of_lt]
  have lt := x.isLt
  subst h
  rwa [pow_mul] at lt

/-- A frame's 16 bytes: 14 of its fields, then their CRC-16 (R232). -/
def frameHead (op : Byte) (f : Frame) : List Byte :=
  [op, f.tag.setWidth 8 ||| (if f.issue then 0x40 else 0)] ++ leBytes 4 f.sector.toNat ++
    leBytes 2 f.count.toNat ++ leBytes 4 f.arg.toNat ++ [f.flags, 0]

theorem frameHead_length (op : Byte) (f : Frame) : (frameHead op f).length = 14 := by
  simp [frameHead]

theorem frameBytes_eq (op : Byte) (f : Frame) : frameBytes op f = frameHead op f ++ leBytes 2 (crc16 (frameHead op f)).toNat := rfl

theorem frameBytes_length (op : Byte) (f : Frame) : (frameBytes op f).length = 16 := by
  simp [frameBytes_eq, frameHead_length]

theorem wireFrame_none {op : Byte} {f : Frame} (h : f.ext = none) : wireFrame op f = frameBytes op f := by
  simp [wireFrame, h]

theorem wireFrame_some {op : Byte} {f : Frame} {p : List Byte} (h : f.ext = some p) :
    wireFrame op f = (frameBytes op f ++ p) ++ leBytes 4 (crc32c (frameBytes op f ++ p)).toNat := by
  simp [wireFrame, h]

/-- The bytes on the wire begin with the frame's 16. -/
theorem wireFrame_head (op : Byte) (f : Frame) : ∃ tail, wireFrame op f = frameBytes op f ++ tail := by
  cases h : f.ext with
  | none => exact ⟨[], by rw [wireFrame_none h, List.append_nil]⟩
  | some p => exact ⟨_, by rw [wireFrame_some h, List.append_assoc]⟩

/-- No reserved bit of a frame is set (R232). -/
theorem reservedSet_frameBytes (op : Byte) (f : Frame) (tail : List Byte) : reservedSet (frameBytes op f ++ tail) = false := by
  have tag : (f.tag.setWidth 8 ||| (if f.issue then (0x40 : Byte) else 0)).getLsbD 7 = false := by
    have high : (f.tag.setWidth 8).getLsbD 7 = false := by simp
    split <;> simp
  have count : (BitVec.ofNat 8 (f.count.toNat / 256) &&& 0xFC : Byte) = 0 := by
    have low : f.count.toNat / 256 < 4 := by have := f.count.isLt; omega
    interval_cases f.count.toNat / 256 <;> decide
  simp only [reservedSet, frameBytes, leBytes, List.cons_append, List.nil_append, List.getD_cons_succ, List.getD_cons_zero, tag, count]
  rfl

/-- A frame of a length its port allows does not fail R229. -/
theorem badCause_wireFrame {op : Byte} {f : Frame} (ok : lengthOk f = true) :
    badCause f.port { code := false, bytes := wireFrame op f } = none := by
  obtain ⟨tail, wire⟩ := wireFrame_head op f
  have reserved := reservedSet_frameBytes op f tail
  rw [← wire] at reserved
  have first : (wireFrame op f).take 14 = frameHead op f := by
    rw [wire, frameBytes_eq, List.append_assoc]
    exact List.take_left' (frameHead_length op f)
  have crc : ((wireFrame op f).drop 14).take 2 = leBytes 2 (crc16 (frameHead op f)).toNat := by
    rw [wire, frameBytes_eq, List.append_assoc, List.drop_left' (frameHead_length op f)]
    exact List.take_left' (leBytes_length 2 _)
  have spelt : leNat (leBytes 2 (crc16 (frameHead op f)).toNat) = (crc16 (frameHead op f)).toNat :=
    leNat_leBytes_toNat _ rfl
  unfold badCause
  simp only [first, crc, spelt, reserved]
  cases h : f.ext with
  | none =>
    have length : (wireFrame op f).length = 16 := by rw [wireFrame_none h, frameBytes_length]
    simp [length, bytesAllowed]
  | some p =>
    obtain ⟨port, low, high, four⟩ : f.port = .dci ∧ 4 ≤ p.length ∧ p.length ≤ 508 ∧ p.length % 4 = 0 := by
      simpa [lengthOk, h] using ok
    have length : (wireFrame op f).length = 20 + p.length := by
      rw [wireFrame_some h]
      simp [frameBytes_length]
      omega
    have body : (frameBytes op f ++ p).length = 20 + p.length - 4 := by
      rw [List.length_append, frameBytes_length]
      omega
    have last : (wireFrame op f).drop (20 + p.length - 4) = leBytes 4 (crc32c (frameBytes op f ++ p)).toNat := by
      rw [wireFrame_some h]
      exact List.drop_left' body
    have front : (wireFrame op f).take (20 + p.length - 4) = frameBytes op f ++ p := by
      rw [wireFrame_some h]
      exact List.take_left' body
    have allowed : bytesAllowed .dci (20 + p.length) = true := by
      simp [bytesAllowed]
      omega
    simp [length, last, front, port, allowed, leNat_crc]

/-- What a response on a port that is up sends, and what it leaves (R235). -/
theorem Card.respond_sends {c : Card} {p : Port} (kind : BitVec 2) (code : BitVec 6) (st : Status) (info : BitVec 24)
    (z : Bool) (up : c.portUp p = true) : (c.respond p kind code st info z).out = c.respNow p kind code st info z :: c.out ∧
      (c.respond p kind code st info z).ports.tags = c.ports.tags := by
  rw [Card.respond_eq kind code st info z up, Card.respond_lines kind code st info z up]
  exact ⟨rfl, rfl⟩

theorem Card.cmdOf_some {c : Card} {t : Tag} {e : TagEntry} {k : Cmd} (entry : c.tagEntry t = some e)
    (out : e.state = .outstanding k) : c.cmdOf t = some k := by
  simp [Card.cmdOf, entry, out]

theorem Card.hears_portUp {c : Card} {p : Port} (h : c.hears p = true) : c.portUp p = true := by
  simp only [Card.hears, Bool.and_eq_true] at h
  exact h.2

theorem Card.count_ev (c : Card) (n : Nat) (bs : List Byte) (j : Nat) : (c.ev n bs).count j = c.count j := by
  unfold Card.ev
  split <;> rfl

theorem Card.count_of_bal {c d : Card} (h : d.bal = c.bal) (j : Nat) : d.count j = c.count j := by
  simp only [Card.count, h]

/-- The answer BAD-FRAME, counted (R229, R247). -/
theorem Card.badFrame_sends {c : Card} {p : Port} (t : Tag) (cause byte0 : Byte) (up : c.portUp p = true) :
    (c.badFrame p t cause byte0).out = c.respNow p 1 t stBadFrame (info3 cause.toNat byte0.toNat 0) false :: c.out ∧
    (c.badFrame p t cause byte0).ports.tags = c.ports.tags ∧
    (c.badFrame p t cause byte0).count 4 = (c.count 4 + 1) % 2 ^ 32 := by
  obtain ⟨sends, tags⟩ := Card.respond_sends 1 t stBadFrame (info3 cause.toNat byte0.toNat 0) false up
  have bal : (c.respond p 1 t stBadFrame (info3 cause.toNat byte0.toNat 0) false).bal = c.bal := by simp
  unfold Card.badFrame Card.sendInterim
  refine ⟨?_, ?_, ?_⟩
  · simpa using sends
  · simp
  · rw [Card.count_ev, Card.count_bump_same _ _ (by decide), Card.count_of_bal bal]

theorem Card.setAligned_frame {c : Card} {p : Port} (v : Bool) (hears : c.hears p = true) :
    (c.setAligned p v).receives p = v ∧ (c.setAligned p v).ports.tags = c.ports.tags ∧ (c.setAligned p v).bal = c.bal := by
  unfold Card.setAligned
  rw [if_pos hears]
  simp only [Card.hears, Bool.and_eq_true] at hears
  obtain ⟨⟨⟨on, clocked⟩, hclk⟩, up⟩ := hears
  cases p
  · refine ⟨?_, rfl, rfl⟩
    simp only [Card.receives, on, clocked, hclk, Card.portUp, Bool.and_self, Bool.true_and]
  · have dock : c.power.dock = true := up
    refine ⟨?_, rfl, rfl⟩
    simp only [Card.receives, on, clocked, hclk, Card.portUp, dock, Bool.and_self, Bool.true_and]

/-- Settles O57: the bytes of a frame, and what each of the four rows does. -/
theorem framesWithoutCommand : Obligations.FramesWithoutCommand := by
  unfold Obligations.FramesWithoutCommand
  refine ⟨fun op f ok => badCause_wireFrame ok, fun s => ⟨fun g e k entry out up hclk => ⟨fun idle free => ?_, fun w hw data => ?_,
    fun void => ?_⟩, fun p hears => ⟨fun b cause bad => ?_, ?_, ?_, ?_⟩⟩⟩
  · have cmd := Card.cmdOf_some entry out
    have keeps : k.keeps = true := by
      cases k with
      | write w => simpa [Cmd.keeps] using idle w rfl
      | _ => rfl
    have set : s.card.keepalive g = s.card.respond e.port 1 g stOk 0 false := by
      simp [Card.keepalive, cmd, keeps, free, hclk, Card.interim, entry, out, Card.sendInterim]
    have same := Card.respond_eq 1 g stOk 0 false up
    obtain ⟨sends, tags⟩ := Card.respond_sends 1 g stOk 0 false up
    refine ⟨_, run_eq (f := fun c => c.keepalive g) set ?_, sends, tags⟩
    rw [same]
  · subst hw
    refine run_eq (f := fun c => c.keepalive g) (d := s.card) ?_ (Nat.le_refl _)
    simp [Card.keepalive, Card.cmdOf_some entry out, Cmd.keeps, data]
  · refine run_eq (f := fun c => c.keepalive g) (d := s.card) ?_ (Nat.le_refl _)
    simp [Card.keepalive, Card.cmdOf_some entry out, void]
  · obtain ⟨t, next, ⟨x, ht⟩, counts⟩ := run_counts (fun c => c.refusedFrame p b) s
    obtain ⟨sends, tags, counted⟩ := Card.badFrame_sends ((b.bytes.getD 1 0).setWidth 6) cause (b.bytes.getD 0 0)
      (Card.hears_portUp hears)
    have set : s.card.refusedFrame p b = s.card.badFrame p ((b.bytes.getD 1 0).setWidth 6) cause (b.bytes.getD 0 0) := by
      simp [Card.refusedFrame, bad, hears]
    refine ⟨t, next, ?_, ?_, ?_⟩
    · rw [ht]
      dsimp only
      rw [set]
      exact sends
    · rw [ht]
      dsimp only
      rw [set]
      exact tags
    · rw [← set] at counted
      exact (counts 4 (by decide)).trans counted
  · obtain ⟨receives, tags, bal⟩ := Card.setAligned_frame false hears
    exact ⟨_, run_eq (f := fun c => c.setAligned p false) rfl (by rw [bal]), receives, tags⟩
  · obtain ⟨receives, tags, bal⟩ := Card.setAligned_frame true hears
    exact ⟨_, run_eq (f := fun c => c.setAligned p true) rfl (by rw [bal]), receives, tags⟩
  · refine ⟨_, run_eq (f := fun c => if c.hears p then c.bump 5 1 else c) (if_pos hears) (Nat.le_refl _), rfl, rfl, ?_⟩
    exact s.card.count_bump_same 1 (by decide)

/-! SYNC messages (R350 to R354). -/

/-- A message's 16 bytes before its CRC (R350). -/
def syncBody (type : Byte) (m : SyncMsg) : List Byte :=
  [0x7E, m.seq, type, m.kind.setWidth 8] ++ leBytes 2 m.addr.toNat ++ leBytes 6 m.tread.toNat ++ leBytes 4 m.arg.toNat

theorem syncBytes_eq (type : Byte) (m : SyncMsg) :
    syncBytes type m = syncBody type m ++ leBytes 2 (crc16 (syncBody type m)).toNat := rfl

theorem syncBody_length (type : Byte) (m : SyncMsg) : (syncBody type m).length = 16 := by
  simp [syncBody]

/-- Every field of a message is read back from its bytes (R350). -/
theorem syncFields_syncBytes (type : Byte) (m : SyncMsg) : syncFields (syncBytes type m) = m := by
  have addr : leNat (((syncBytes type m).drop 4).take 2) = m.addr.toNat := by
    have bytes : ((syncBytes type m).drop 4).take 2 = leBytes 2 m.addr.toNat := rfl
    have low := m.addr.isLt
    rw [bytes, leNat_leBytes]
    omega
  have tread : leNat (((syncBytes type m).drop 6).take 6) = m.tread.toNat := by
    have bytes : ((syncBytes type m).drop 6).take 6 = leBytes 6 m.tread.toNat := rfl
    rw [bytes, leNat_leBytes_toNat m.tread rfl]
  have arg : leNat (((syncBytes type m).drop 12).take 4) = m.arg.toNat := by
    have bytes : ((syncBytes type m).drop 12).take 4 = leBytes 4 m.arg.toNat := rfl
    rw [bytes, leNat_leBytes_toNat m.arg rfl]
  have kind : ((syncBytes type m).getD 3 0).setWidth 2 = m.kind := by
    have byte : (syncBytes type m).getD 3 0 = m.kind.setWidth 8 := rfl
    rw [byte]
    exact BitVec.setWidth_setWidth_of_le _ (by decide)
  unfold syncFields
  rw [addr, tread, arg, kind]
  simp only [BitVec.ofNat_toNat, BitVec.setWidth_eq]
  rfl

/-- They pass the checks of R352. -/
theorem syncBytesOk_syncBytes {type : Byte} {m : SyncMsg} (known : type ∈ syncTypes) (ok : syncFieldsOk type m = true) :
    syncBytesOk (syncBytes type m) = true := by
  have two : (syncBytes type m).getD 2 0 = type := rfl
  have three : (syncBytes type m).getD 3 0 = m.kind.setWidth 8 := rfl
  have five : (syncBytes type m).getD 5 0 = BitVec.ofNat 8 (m.addr.toNat / 256) := rfl
  have kind : m.kind.toNat < 3 := by
    have other : m.kind ≠ 3 := by
      intro three
      simp [syncFieldsOk, three] at ok
    have low := m.kind.isLt
    have apart : m.kind.toNat ≠ 3 := fun h => other (BitVec.eq_of_toNat_eq h)
    omega
  have high : m.addr.toNat / 256 < 16 := by have := m.addr.isLt; omega
  have kind' : (m.kind.setWidth 8).toNat < 3 := by
    rw [BitVec.toNat_setWidth]
    omega
  have high' : (BitVec.ofNat 8 (m.addr.toNat / 256)).toNat < 16 := by
    rw [BitVec.toNat_ofNat]
    omega
  unfold syncBytesOk
  rw [two, three, five, syncFields_syncBytes, ok, decide_eq_true ⟨kind', high'⟩]
  simpa using known

/-- Settles O49: the bytes, the fields read back, and the judgement of them. -/
theorem syncBytesRoundTrip : Obligations.SyncBytesRoundTrip := by
  unfold Obligations.SyncBytesRoundTrip
  intro type m known ok
  have length : (syncBytes type m).length = 18 := by simp [syncBytes_eq, syncBody_length]
  have good := syncBytesOk_syncBytes known ok
  refine ⟨length, rfl, rfl, syncFields_syncBytes type m, good, fun c => ?_⟩
  have front : (syncBytes type m).take 16 = syncBody type m := List.take_left' (syncBody_length type m)
  have last : (syncBytes type m).drop 16 = leBytes 2 (crc16 (syncBody type m)).toNat :=
    List.drop_left' (syncBody_length type m)
  have two : (syncBytes type m).getD 2 0 = type := rfl
  have spelt : leNat (leBytes 2 (crc16 (syncBody type m)).toNat) = (crc16 (syncBody type m)).toNat :=
    leNat_leBytes_toNat _ rfl
  unfold Card.judgeSync
  simp only [front, last, spelt, ne_eq, not_true_eq_false, if_false, good, Bool.not_true, Bool.false_eq_true, two,
    syncFields_syncBytes]

end Sys2Proof.Machine

/-! What the card sends of a transfer, put together again (R188 to R195). -/

namespace Sys2Proof.Machine

open Sys2Proof

/-! Striping (R188 to R190). -/

theorem framePayload_length (bytes : List Byte) (i : Nat) : (framePayload bytes i).length = 640 := by
  unfold framePayload
  dsimp only
  rw [List.length_append, List.length_replicate, List.length_take]
  omega

/-- The frames' payloads one after the other are the data, and zeros after it (R190). -/
theorem flatMap_framePayload (bytes : List Byte) (m : Nat) : (List.range m).flatMap (framePayload bytes) =
    bytes.take (640 * m) ++ List.replicate (640 * m - bytes.length) 0 := by
  induction m with
  | zero => simp
  | succ m ih =>
    rw [List.range_succ, List.flatMap_append, ih, List.flatMap_singleton]
    unfold framePayload
    dsimp only
    rcases le_total bytes.length (640 * m) with short | long
    · have left : 640 * (m + 1) - bytes.length = 640 * m - bytes.length + 640 := by omega
      rw [List.drop_eq_nil_of_le short, List.take_of_length_le short, List.take_of_length_le (short.trans (by omega)), left,
        List.replicate_add, List.take_nil, List.nil_append, List.append_assoc]
      rfl
    · have none : 640 * m - bytes.length = 0 := by omega
      have split : bytes.take (640 * m) ++ (bytes.drop (640 * m)).take 640 = bytes.take (640 * (m + 1)) := by
        rw [Nat.mul_succ, List.take_add]
      have zeros : 640 - ((bytes.drop (640 * m)).take 640).length = 640 * (m + 1) - bytes.length := by
        rw [List.length_take, List.length_drop]
        omega
      rw [none, List.replicate_zero, List.append_nil, ← List.append_assoc, split, zeros]

theorem mem_laneIndices {bytes n k i : Nat} : i ∈ laneIndices bytes n k ↔ i < (bytes + 639) / 640 ∧ i % n = k := by
  simp [laneIndices]

theorem laneIndices_length_le (bytes n k : Nat) : (laneIndices bytes n k).length ≤ (bytes + 639) / 640 :=
  (List.length_filter_le _ _).trans (List.length_range).le

/-- A frame of a transfer is the one of its lane with its index (R195). -/
theorem Xfer.frame_eq (y : Xfer) (n i : Nat) :
    y.frame n i = (((y.lane (i % n)).find? (fun z => z.1 == i)).map Prod.snd).getD [] := by
  unfold Xfer.frame Xfer.lane
  rw [List.find?_map, List.find?_filter, Option.map_map]
  have same : (fun (z : RxData) => z.index == i && z.lane == i % n) =
      fun z => decide ((z.lane == i % n) = true ∧
        ((fun z : Nat × List Byte => z.1 == i) ∘ fun z : RxData => (z.index, z.payload)) z = true) := by
    funext z
    rw [Bool.and_comm, Bool.decide_and, Bool.decide_coe, Bool.decide_coe]
    rfl
  rw [same]
  rfl

theorem find_laneFrames {x : C2h} {i k : Nat} (mem : i ∈ laneIndices x.bytes.length x.lanes k) :
    ((x.laneFrames k).find? (fun z => z.1 == i)).map Prod.snd = some (framePayload x.bytes i) := by
  unfold C2h.laneFrames
  have pred : ((fun z : Nat × List Byte => z.1 == i) ∘ fun j => (j, framePayload x.bytes j)) = fun j => j == i := rfl
  have found : (laneIndices x.bytes.length x.lanes k).find? (fun j => j == i) = some i := by
    cases h : (laneIndices x.bytes.length x.lanes k).find? (fun j => j == i) with
    | none => simpa using List.find?_eq_none.mp h i mem
    | some j => rw [eq_of_beq (List.find?_some (p := fun j => j == i) h)]
  rw [List.find?_map, pred, found]
  rfl

/-- Putting the lanes' frames together gives the transfer's bytes (R188, R190, R195). -/
theorem Xfer.joined_laneFrames {x : C2h} {y : Xfer} (pos : 0 < x.lanes) (bytes : y.bytes = x.bytes.length)
    (lanes : ∀ k, k < x.lanes → y.lane k = x.laneFrames k) : y.joined x.lanes = x.bytes := by
  have frame (i : Nat) (h : i < (x.bytes.length + 639) / 640) : y.frame x.lanes i = framePayload x.bytes i := by
    rw [Xfer.frame_eq, lanes _ (Nat.mod_lt _ pos), find_laneFrames (mem_laneIndices.mpr ⟨h, rfl⟩)]
    rfl
  have all : (List.range ((x.bytes.length + 639) / 640)).flatMap (y.frame x.lanes) =
      (List.range ((x.bytes.length + 639) / 640)).flatMap (framePayload x.bytes) :=
    List.flatMap_congr fun i hi => frame i (List.mem_range.mp hi)
  have enough : x.bytes.length ≤ 640 * ((x.bytes.length + 639) / 640) := by omega
  unfold Xfer.joined
  rw [bytes, all, flatMap_framePayload, List.take_of_length_le enough, List.take_left]

theorem laneCount_laneCode {n : Nat} (h : n = 1 ∨ n = 2 ∨ n = 4) : laneCount (laneCode n) = some n := by
  rcases h with rfl | rfl | rfl <;> rfl

/-- Every lane's trailer agrees with the lane's frames (R193, R195). -/
theorem Xfer.check_trailer {x : C2h} {y : Xfer} {k : Nat} (lanes : x.lanes = 1 ∨ x.lanes = 2 ∨ x.lanes = 4)
    (short : x.bytes.length ≤ 2621440) (bytes : y.bytes = x.bytes.length) (lane : y.lane k = x.laneFrames k) :
    y.check x.lanes k x.issue (x.trailer k) = none := by
  have frames : (x.laneFrames k).map Prod.fst = laneIndices x.bytes.length x.lanes k := by
    simp [C2h.laneFrames, Function.comp_def]
  have few : (laneIndices x.bytes.length x.lanes k).length < 2 ^ 16 := by
    have := laneIndices_length_le x.bytes.length x.lanes k
    omega
  have length : (x.laneFrames k).length = (laneIndices x.bytes.length x.lanes k).length := by simp [C2h.laneFrames]
  have count : (x.trailer k).count.toNat = (laneIndices x.bytes.length x.lanes k).length := by
    simp [C2h.trailer, length]
    omega
  have size : (x.trailer k).length.toNat = x.bytes.length := by
    simp [C2h.trailer]
    omega
  have code : laneCount (x.trailer k).laneCode = some x.lanes := laneCount_laneCode lanes
  have issue : (x.trailer k).issue = x.issue := rfl
  have crc : (x.trailer k).crc = crc32c ((x.laneFrames k).flatMap Prod.snd) := rfl
  unfold Xfer.check
  dsimp only
  rw [lane, bytes, frames, length, count, code, issue, size, crc]
  simp

/-! Trailers (R193). -/

/-- Byte 6 of a trailer gives back the lane, the count's code and the issue bit. -/
theorem trailerByte_fields : ∀ (l : BitVec 2) (c : BitVec 3) (i : Bool),
    let f : Byte := l.setWidth 8 ||| (c.setWidth 8 <<< 2) ||| (if i then 0x20 else 0)
    f.setWidth 2 = l ∧ (f >>> 2).setWidth 3 = c ∧ f.getLsbD 5 = i := by
  decide

theorem trailerOf_trailerBytes (t : Trailer) : trailerOf (trailerBytes t) = t := by
  obtain ⟨lane, code, issue⟩ := trailerByte_fields t.lane t.laneCode t.issue
  have six : (trailerBytes t).getD 6 0 = t.lane.setWidth 8 ||| (t.laneCode.setWidth 8 <<< 2) ||| (if t.issue then 0x20 else 0) :=
    rfl
  have crc : (trailerBytes t).take 4 = leBytes 4 t.crc.toNat := rfl
  have count : ((trailerBytes t).drop 4).take 2 = leBytes 2 t.count.toNat := rfl
  have length : ((trailerBytes t).drop 8).take 4 = leBytes 4 t.length.toNat := rfl
  unfold trailerOf
  dsimp only
  rw [six, crc, count, length, lane, code, issue, leNat_leBytes_toNat t.crc rfl, leNat_leBytes_toNat t.count rfl,
    leNat_leBytes_toNat t.length rfl]
  simp only [BitVec.ofNat_toNat, BitVec.setWidth_eq]

/-- Settles O26: the lanes' checks, the data put together, and a trailer's bytes read back. -/
theorem sentLanesCheck : Obligations.SentLanesCheck := by
  unfold Obligations.SentLanesCheck
  refine ⟨fun x y some short bytes lanes => ⟨fun k hk => Xfer.check_trailer some short bytes (lanes k hk),
    Xfer.joined_laneFrames ?_ bytes lanes⟩, fun t => ⟨?_, trailerOf_trailerBytes t⟩⟩
  · rcases some with h | h | h <;> omega
  · unfold trailerBytes
    simp only [List.length_append, leBytes_length, List.length_cons, List.length_nil, List.length_replicate]

end Sys2Proof.Machine

/-! The scrambler, the lanes' code and the check values (R172 to R177, R235, R236, R523). -/

namespace Sys2Proof.Machine

open Sys2Proof

/-! The scrambler (R177). -/

/-- Bit `j` as the descrambler makes it of the bits `w` on the line, the 58 sent before them first. -/
def lineBit (w j : Nat) : Bool := (w.testBit (j + 58) ^^ w.testBit (j + 19)) ^^ w.testBit j

theorem testBit_line {p o j : Nat} (low : p < 2 ^ 58) :
    (p ||| (o <<< 58)).testBit j = if j < 58 then p.testBit j else o.testBit (j - 58) := by
  rw [Nat.testBit_or, Nat.testBit_shiftLeft]
  split
  · next h => simp [Nat.not_le.mpr h]
  · next h =>
    have zero : p.testBit j = false := Nat.testBit_lt_two_pow (low.trans_le (Nat.pow_le_pow_right (by decide) (by omega)))
    simp [zero, Nat.not_lt.mp h]

/-- What goes at once: up to 39 bits, each the bit and the two sent before it (R177). -/
theorem testBit_chunk {p b o m j : Nat} (low : p < 2 ^ 58) (few : m ≤ 39) (chunk : o = (b ^^^ p ^^^ (p >>> 19)) % 2 ^ m)
    (h : j < m) : b.testBit j = lineBit (p ||| (o <<< 58)) j := by
  unfold lineBit
  rw [testBit_line low, testBit_line low, testBit_line low, if_neg (by omega), if_pos (by omega), if_pos (by omega), chunk,
    Nat.add_sub_cancel, Nat.testBit_mod_two_pow, Nat.testBit_xor, Nat.testBit_xor, Nat.testBit_shiftRight, Nat.add_comm 19 j]
  simp only [h, decide_true, Bool.true_and]
  cases b.testBit j <;> cases p.testBit j <;> cases p.testBit (j + 19) <;> rfl

/-- The bits that follow a chunk are those of the line without it. -/
theorem line_shift {p o q m : Nat} : (p ||| ((o ||| (q <<< m)) <<< 58)) >>> m = ((p ||| (o <<< 58)) >>> m) ||| (q <<< 58) := by
  refine Nat.eq_of_testBit_eq fun j => ?_
  simp only [Nat.testBit_shiftRight, Nat.testBit_or, Nat.testBit_shiftLeft]
  by_cases h : 58 ≤ j
  · have h1 : 58 ≤ m + j := by omega
    have h2 : m ≤ m + j - 58 := by omega
    have h3 : m + j - 58 - m = j - 58 := by omega
    simp [h, h1, h2, h3, Bool.or_assoc]
  · have h2 : ¬ (58 ≤ m + j ∧ m ≤ m + j - 58) := by omega
    by_cases h1 : 58 ≤ m + j
    · have h3 : ¬ m ≤ m + j - 58 := fun x => h2 ⟨h1, x⟩
      simp [h, h1, h3]
    · simp [h, h1]

theorem lineBit_shift (w m j : Nat) : lineBit (w >>> m) j = lineBit w (m + j) := by
  simp only [lineBit, Nat.testBit_shiftRight, Nat.add_assoc]

/-- Scrambling sends bits of which the descrambler makes those scrambled again. -/
theorem scrambleSteps_line (fuel n b p acc at_ : Nat) (low : p < 2 ^ 58) (enough : n ≤ 39 * fuel) :
    ∃ o, o < 2 ^ n ∧ scrambleSteps fuel n b p acc at_ = (acc ||| (o <<< at_), (p ||| (o <<< 58)) >>> n) ∧
      ∀ j, j < n → b.testBit j = lineBit (p ||| (o <<< 58)) j := by
  induction fuel generalizing n b p acc at_ with
  | zero =>
    obtain rfl : n = 0 := by omega
    exact ⟨0, by decide, by simp [scrambleSteps], fun j hj => absurd hj (Nat.not_lt_zero j)⟩
  | succ k ih =>
    unfold scrambleSteps
    dsimp only
    generalize hm : min n 39 = m
    split
    · next none =>
      obtain rfl : n = 0 := by omega
      exact ⟨0, by decide, by simp, fun j hj => absurd hj (Nat.not_lt_zero j)⟩
    · next some =>
      generalize chunk : (b ^^^ p ^^^ (p >>> 19)) % 2 ^ m = o
      have short : o < 2 ^ m := chunk ▸ Nat.mod_lt _ (Nat.two_pow_pos m)
      have line : p ||| (o <<< 58) < 2 ^ (58 + m) := by
        refine Nat.or_lt_two_pow (low.trans_le (Nat.pow_le_pow_right (by decide) (by omega))) ?_
        rw [Nat.shiftLeft_eq, pow_add, Nat.mul_comm]
        exact Nat.mul_lt_mul_of_pos_left short (Nat.two_pow_pos 58)
      have next : (p ||| (o <<< 58)) >>> m < 2 ^ 58 := by
        rw [Nat.shiftRight_eq_div_pow]
        exact Nat.div_lt_of_lt_mul (by rw [← pow_add, Nat.add_comm]; exact line)
      obtain ⟨q, hq, steps, bits⟩ := ih (n - m) (b >>> m) _ (acc ||| (o <<< at_)) (at_ + m) next (by omega)
      refine ⟨o ||| (q <<< m), ?_, ?_, fun j hj => ?_⟩
      · have whole : n = m + (n - m) := by omega
        refine Nat.or_lt_two_pow (short.trans_le (Nat.pow_le_pow_right (by decide) (by omega))) ?_
        rw [Nat.shiftLeft_eq, whole, pow_add, Nat.mul_comm]
        exact Nat.mul_lt_mul_of_pos_left hq (Nat.two_pow_pos m)
      · rw [steps, Nat.shiftLeft_or_distrib, ← Nat.shiftLeft_add, Nat.or_assoc, Nat.add_comm m at_, ← line_shift,
          ← Nat.shiftRight_add]
        congr 2
        omega
      · by_cases within : j < m
        · have same : (o ||| (q <<< m)).testBit j = o.testBit j := by
            simp [Nat.testBit_shiftLeft, Nat.not_le.mpr within]
          rw [testBit_chunk low (by omega) chunk.symm within]
          unfold lineBit
          simp only [testBit_line low, Nat.add_sub_cancel, same, show ¬ j + 58 < 58 by omega, show j + 19 < 58 by omega,
            show j < 58 by omega, if_true, if_false]
        · have later := bits (j - m) (by omega)
          rw [← line_shift, lineBit_shift, Nat.testBit_shiftRight, Nat.add_sub_of_le (Nat.not_lt.mp within)] at later
          exact later

theorem descramble_scramble {p b : Nat} (hp : p < 2 ^ 58) (hb : b < 2 ^ 5120) :
    descramble p (scramble p b).1 = (b, (scramble p b).2) := by
  obtain ⟨o, ho, steps, bits⟩ := scrambleSteps_line 132 5120 b p 0 0 hp (by decide)
  unfold descramble scramble
  rw [steps]
  dsimp only
  rw [Nat.zero_or, Nat.shiftLeft_zero]
  refine Prod.ext (Nat.eq_of_testBit_eq fun j => ?_) rfl
  dsimp only
  rw [Nat.testBit_mod_two_pow]
  by_cases h : j < 5120
  · rw [bits j h]
    simp [h, lineBit, Nat.testBit_xor, Nat.testBit_shiftRight, Nat.add_comm]
  · have zero : b.testBit j = false := Nat.testBit_lt_two_pow (hb.trans_le (Nat.pow_le_pow_right (by decide) (by omega)))
    simp [h, zero]

/-! The lanes' code (R172 to R175). -/

/-- A register whose slots of 20 bits hold symbols of ten. -/
def Packed (r : Nat) : Prop := ∀ j, r.testBit j = true → j < 600 ∧ j % 20 < 10

theorem Packed.zero : Packed 0 := fun j h => by simp at h

theorem Packed.xor {a b : Nat} (ha : Packed a) (hb : Packed b) : Packed (a ^^^ b) := by
  intro j h
  rw [Nat.testBit_xor] at h
  by_cases at_ : a.testBit j = true
  · exact ha j at_
  · exact hb j (by simpa [at_] using h)

theorem Packed.lt {r : Nat} (h : Packed r) : r < 2 ^ 600 :=
  Nat.lt_pow_two_of_testBit r fun j hj => by
    by_contra set
    exact absurd (h j (by simpa using set)).1 (by omega)

/-- The generator times bit `k` of a symbol. -/
def rsTerm (k : Nat) : Nat := rsFold (rsFold (rsGenPacked <<< k))

theorem rsFold_eq (p : Nat) :
    rsFold p = (p &&& rsMask) ^^^ ((p >>> 10) &&& rsMask) ^^^ (((p >>> 10) &&& rsMask) <<< 3) := rfl

theorem rsFold_xor (a b : Nat) : rsFold (a ^^^ b) = rsFold a ^^^ rsFold b := by
  rw [rsFold_eq, rsFold_eq, rsFold_eq]
  generalize rsMask = mask
  rw [Nat.shiftRight_xor_distrib, Nat.and_xor_distrib_right, Nat.and_xor_distrib_right, Nat.shiftLeft_xor_distrib]
  ac_rfl

/-- A sum over the bits set in a symbol. -/
def bitSum (f : Nat) (l : List Nat) (g : Nat → Nat) (acc : Nat) : Nat :=
  l.foldl (fun acc k => if f.testBit k then acc ^^^ g k else acc) acc

theorem bitSum_map {h : Nat → Nat} (add : ∀ a b, h (a ^^^ b) = h a ^^^ h b) (f : Nat) (l : List Nat) (g : Nat → Nat) (acc : Nat) :
    h (bitSum f l g acc) = bitSum f l (fun k => h (g k)) (h acc) := by
  induction l generalizing acc with
  | nil => rfl
  | cons k r ih =>
    show h (bitSum f r g _) = bitSum f r _ _
    rw [ih]
    dsimp only
    split
    · rw [add]
    · rfl

theorem bitSum_xor (a b : Nat) (l : List Nat) (g : Nat → Nat) (u v : Nat) :
    bitSum (a ^^^ b) l g (u ^^^ v) = bitSum a l g u ^^^ bitSum b l g v := by
  induction l generalizing u v with
  | nil => rfl
  | cons k r ih =>
    have head : (if (a ^^^ b).testBit k then u ^^^ v ^^^ g k else u ^^^ v) =
        (if a.testBit k then u ^^^ g k else u) ^^^ (if b.testBit k then v ^^^ g k else v) := by
      rw [Nat.testBit_xor]
      cases a.testBit k <;> cases b.testBit k <;> simp [Nat.xor_comm, Nat.xor_left_comm]
    show bitSum (a ^^^ b) r g _ = bitSum a r g _ ^^^ bitSum b r g _
    dsimp only
    rw [head, ih]

theorem bitSum_packed {l : List Nat} {g : Nat → Nat} (terms : ∀ k, k ∈ l → Packed (g k)) (f : Nat) {acc : Nat}
    (h : Packed acc) : Packed (bitSum f l g acc) := by
  induction l generalizing acc with
  | nil => exact h
  | cons k r ih =>
    refine ih (fun j hj => terms j (List.mem_cons_of_mem k hj)) ?_
    dsimp only
    split
    · exact h.xor (terms k List.mem_cons_self)
    · exact h

/-- The generator times a symbol, folded, is the sum of its folded terms. -/
theorem rsTimes_eq (f : Nat) : rsTimes f = bitSum f (List.range 10) rsTerm 0 := by
  have zero : rsFold (rsFold 0) = 0 := by decide +kernel
  have inner := bitSum_map rsFold_xor f (List.range 10) (fun k => rsGenPacked <<< k) 0
  have outer := bitSum_map rsFold_xor f (List.range 10) (fun k => rsFold (rsGenPacked <<< k)) (rsFold 0)
  exact ((congrArg rsFold inner).trans outer).trans (congrArg (bitSum f (List.range 10) rsTerm) zero)

theorem rsTimes_xor (a b : Nat) : rsTimes (a ^^^ b) = rsTimes a ^^^ rsTimes b := by
  rw [rsTimes_eq, rsTimes_eq, rsTimes_eq]
  exact bitSum_xor a b (List.range 10) rsTerm 0 0

/-- Each folded term holds symbols: no bit stands outside the low ten of a slot. -/
theorem rsTerm_packed (k : Nat) (h : k < 10) : Packed (rsTerm k) := by
  have short : ∀ k, k < 10 → rsTerm k < 2 ^ 600 := by decide +kernel
  have slots : ∀ k, k < 10 → ∀ j, j < 600 → (rsTerm k).testBit j = true → j % 20 < 10 := by decide +kernel
  intro j set
  have low : j < 600 := by
    by_contra high
    have zero := Nat.testBit_lt_two_pow ((short k h).trans_le (Nat.pow_le_pow_right (by decide) (Nat.not_lt.mp high)))
    simp [zero] at set
  exact ⟨low, slots k h j low set⟩

theorem rsTimes_packed (f : Nat) : Packed (rsTimes f) := by
  rw [rsTimes_eq]
  exact bitSum_packed (fun k hk => rsTerm_packed k (List.mem_range.mp hk)) f Packed.zero

theorem shiftLeft_lt {p a b : Nat} (h : p < 2 ^ a) : p <<< b < 2 ^ (a + b) := by
  rw [Nat.shiftLeft_eq, pow_add]
  exact Nat.mul_lt_mul_of_pos_right h (Nat.two_pow_pos b)

/-- One symbol into the division, of a register that is a sum. -/
theorem rsStep_xor {z p s : Nat} (hp : p < 2 ^ 580) (hs : s < 1024) :
    rsStep (z ^^^ p) s = rsStep z 0 ^^^ ((p <<< 20) ||| s) := by
  have low (x : Nat) : (x <<< 20) % 2 ^ 600 ||| s = (x <<< 20) % 2 ^ 600 ^^^ s := by
    refine Nat.eq_of_testBit_eq fun j => ?_
    have apart : ((x <<< 20) % 2 ^ 600).testBit j = true → s.testBit j = false := fun h => by
      rw [Nat.testBit_mod_two_pow, Nat.testBit_shiftLeft] at h
      have high : 20 ≤ j := by
        by_contra c
        simp [c] at h
      exact Nat.testBit_lt_two_pow (hs.trans_le ((Nat.pow_le_pow_right (by decide) (by omega) : 2 ^ 10 ≤ 2 ^ j)))
    rw [Nat.testBit_or, Nat.testBit_xor]
    cases hx : ((x <<< 20) % 2 ^ 600).testBit j
    · simp
    · simp [apart hx]
  have fits : (p <<< 20) % 2 ^ 600 = p <<< 20 := Nat.mod_eq_of_lt (shiftLeft_lt (b := 20) hp)
  have top : p >>> 580 = 0 := by rw [Nat.shiftRight_eq_div_pow, Nat.div_eq_of_lt hp]
  have shifted : (z <<< 20 ^^^ p <<< 20) % 2 ^ 600 = (z <<< 20) % 2 ^ 600 ^^^ p <<< 20 := by
    rw [Nat.xor_mod_two_pow, fits]
  have or := low p
  rw [fits] at or
  unfold rsStep
  rw [low, Nat.shiftLeft_xor_distrib, shifted, Nat.shiftRight_xor_distrib, top, Nat.xor_zero, Nat.or_zero, or]
  generalize (z <<< 20) % 2 ^ 600 = a
  generalize rsTimes (z >>> 580) = t
  generalize p <<< 20 = q
  ac_rfl

theorem rsStep_packed {r s : Nat} (hr : Packed r) (hs : s < 1024) : Packed (rsStep r s) := by
  refine Packed.xor (fun j h => ?_) (rsTimes_packed _)
  rw [Nat.testBit_or, Bool.or_eq_true] at h
  rcases h with h | h
  · rw [Nat.testBit_mod_two_pow, Nat.testBit_shiftLeft] at h
    simp only [Bool.and_eq_true, decide_eq_true_eq] at h
    obtain ⟨low, high, set⟩ := h
    have := (hr _ set).2
    omega
  · have few : j < 10 := by
      by_contra c
      have zero := Nat.testBit_lt_two_pow (hs.trans_le ((Nat.pow_le_pow_right (by decide) (by omega) : 2 ^ 10 ≤ 2 ^ j)))
      simp [zero] at h
    omega

theorem foldl_rsStep_packed {l : List Nat} (symbols : ∀ s, s ∈ l → s < 1024) {r : Nat} (hr : Packed r) :
    Packed (l.foldl rsStep r) := by
  induction l generalizing r with
  | nil => exact hr
  | cons s l ih => exact ih (fun x hx => symbols x (List.mem_cons_of_mem s hx)) (rsStep_packed hr (symbols s List.mem_cons_self))

/-- A packed register's next symbol below those above it. -/
theorem Packed.shift {z : Nat} (h : Packed z) {n : Nat} (hn : n < 30) :
    ((z >>> (20 * (30 - n))) <<< 20) ||| ((z >>> (20 * (29 - n))) % 1024) = z >>> (20 * (30 - (n + 1))) := by
  refine Nat.eq_of_testBit_eq fun j => ?_
  rw [Nat.testBit_or, Nat.testBit_shiftLeft, Nat.testBit_shiftRight, show (1024 : Nat) = 2 ^ 10 from rfl,
    Nat.testBit_mod_two_pow, Nat.testBit_shiftRight, Nat.testBit_shiftRight]
  have same : 20 * (30 - (n + 1)) = 20 * (29 - n) := by omega
  rw [same]
  by_cases high : 20 ≤ j
  · have up : 20 * (30 - n) + (j - 20) = 20 * (29 - n) + j := by omega
    simp [high, up, show ¬ j < 10 by omega]
  · by_cases low : j < 10
    · simp [high, low]
    · have zero : z.testBit (20 * (29 - n) + j) = false := by
        by_contra set
        have := (h _ (by simpa using set)).2
        omega
      simp [high, low, zero]

/-- Where a register's remainder follows the message, nothing remains (R172). -/
theorem foldl_rsStep_unpack (r : Nat) {z : Nat} (hz : (List.replicate 30 0).foldl rsStep r = z) (packed : Packed z) :
    (rsUnpack z).foldl rsStep r = 0 := by
  have part (n : Nat) (hn : n ≤ 30) : ((List.range n).map (fun i => (z >>> (20 * (29 - i))) % 1024)).foldl rsStep r =
      (List.replicate n 0).foldl rsStep r ^^^ (z >>> (20 * (30 - n))) := by
    induction n with
    | zero =>
      have top : z >>> (20 * (30 - 0)) = 0 := by
        rw [Nat.shiftRight_eq_div_pow, Nat.div_eq_of_lt packed.lt]
      rw [top, Nat.xor_zero]
      rfl
    | succ n ih =>
      have short : z >>> (20 * (30 - n)) < 2 ^ 580 := by
        rw [Nat.shiftRight_eq_div_pow]
        refine Nat.div_lt_of_lt_mul (packed.lt.trans_le ?_)
        rw [← pow_add]
        exact Nat.pow_le_pow_right (by decide) (by omega)
      rw [List.range_succ, List.map_append, List.foldl_append, ih (by omega), List.replicate_succ', List.foldl_append,
        ← packed.shift (by omega : n < 30)]
      exact rsStep_xor short (Nat.mod_lt _ (by decide))
  have whole := part 30 (le_refl 30)
  rw [hz, Nat.sub_self, Nat.mul_zero, Nat.shiftRight_zero, Nat.xor_self] at whole
  exact whole

/-- A codeword is divided without remainder (R172). -/
theorem rsRemainder_rsEncode {m : List Nat} (symbols : ∀ x, x ∈ m → x < 1024) : rsRemainder (rsEncode m) = 0 := by
  have zeros : ∀ s, s ∈ List.replicate 30 0 → s < 1024 := fun s hs => by
    rw [List.eq_of_mem_replicate hs]
    decide
  have packed : Packed (rsRemainder (m ++ List.replicate 30 0)) :=
    foldl_rsStep_packed (fun s hs => (List.mem_append.mp hs).elim (symbols s) (zeros s)) Packed.zero
  unfold rsRemainder at packed
  rw [List.foldl_append] at packed
  unfold rsEncode rsRemainder
  rw [List.foldl_append, List.foldl_append]
  exact foldl_rsStep_unpack _ rfl packed

/-- Settles O27: the scrambler's inverse, the code without errors, and the CRCs by evaluation. -/
theorem wireBytes : Obligations.WireBytes := by
  unfold Obligations.WireBytes
  refine ⟨fun p b hp hb => descramble_scramble hp hb, fun m length symbols => ⟨?_, ?_, ?_⟩, ?_⟩
  · simp [rsEncode, rsUnpack, length]
  · exact List.take_left' length
  · simp [rsDecode, rsRemainder_rsEncode symbols]
  · intro nine
    refine ⟨by decide +kernel, by decide +kernel, by decide +kernel, by decide +kernel, by decide +kernel, by decide +kernel,
      fun r => ⟨?_, ?_⟩⟩
    · simp [Resp.bytes, Resp.head]
    · have head : r.head.length = 7 := by simp [Resp.head]
      unfold Resp.bytes
      rw [List.drop_left' head, List.take_left' head]

end Sys2Proof.Machine

/-! R245: the order of the checks, and the way of an admitted frame to its chapter. -/

namespace Sys2Proof.Machine

open Sys2Proof

/-- What a run does goes by what its meaning makes of the card as it is. -/
theorem run_congr {f g : Card → Card} {s : State} (h : f s.card = g s.card) : run f s = run g s := by
  simp only [run, h]

/-- The card with a frame taken, but for the Balcony (R245 step 8). -/
theorem Card.accept_eq (c : Card) (op : Byte) (f : Frame) (k : Cmd) : ∃ b, c.accept op f k = { c with
    ports := { c.ports with order := c.ports.order + 1,
                            tags := KV.put c.ports.tags f.tag.toNat (entryOf op f (.outstanding k)) }
    bal := b } := by
  obtain ⟨b, h⟩ : BalconyOnly (({ c.countTaken f.port with ports := { (c.countTaken f.port).ports with
      order := (c.countTaken f.port).ports.order + 1 } } : Card).putTag f.tag (entryOf op f (.outstanding k)))
      (c.accept op f k) := Card.ev_balconyOnly _ _ _
  exact ⟨b, h⟩

theorem Card.accept_working (c : Card) (op : Byte) (f : Frame) (k : Cmd) : (c.accept op f k).working op f k :=
  (c.countTaken f.port).taken_tagEntry op f k

/-- An admitted frame: its command's chapter, on the card with the tag outstanding. -/
theorem run_receive_admits {s : State} {op : Byte} {f : Frame} (k : Cmd) (g : Card → Card) (admits : s.card.admits op f = true) :
    run (fun c => c.receive op f k g) s = run (fun c => g (c.accept op f k)) s :=
  run_congr (Card.receive_of_admits k g admits)

/-- Settles O29: every listed command goes through R245 to the function of its chapter. -/
theorem commandsReachTheirChapters : Obligations.CommandsReachTheirChapters := by
  unfold Obligations.CommandsReachTheirChapters
  intro s f
  dsimp only
  refine ⟨?_, ?_, ?_, ?_, ?_, ?_, ?_, ?_, ?_, ?_, ?_, ?_, ?_, ?_, ?_, ?_, ?_, ?_, ?_⟩ <;>
    exact fun admits => ⟨s.card.accept_working _ f _, run_receive_admits _ _ admits⟩

/-! The answers before step 8 (R245). -/

theorem Card.countTaken_step7 (c : Card) (p : Port) (op : Byte) (f : Frame) : (c.countTaken p).step7 op f = c.step7 op f := by
  simp [Card.step7]

theorem Card.answer_ended (c : Card) (op : Byte) (f : Frame) (st : Status) (info : BitVec 24) :
    (c.answer op f st info).ended op f st info := Card.putTag_tagEntry _ _ _

/-- A frame on an open tag of a port that receives goes on to step 5 (R245). -/
theorem Card.receive_open {c : Card} {op : Byte} {f : Frame} (k : Cmd) (body : Card → Card) (receives : c.receives f.port = true)
    (length : lengthOk f = true) (opened : c.tagOpen f = true) : c.receive op f k body = c.newCommand op f k body := by
  unfold Card.receive
  unfold Card.tagOpen at opened
  simp only [receives, length, Bool.not_true, Bool.false_eq_true, if_false]
  split
  · rfl
  · next e entry =>
    simp only [entry] at opened
    split
    · next work => simp [work] at opened
    · next st info done =>
      simp only [done, bne_iff_ne] at opened
      rw [if_neg opened]

theorem Card.newCommand_unlisted {c : Card} {op : Byte} (f : Frame) (k : Cmd) (body : Card → Card) (h : listed op = false) :
    c.newCommand op f k body = (c.countTaken f.port).answer op f stProtocol 0 := by
  simp [Card.newCommand, h]

theorem Card.newCommand_notEntitled {c : Card} {op : Byte} {f : Frame} (k : Cmd) (body : Card → Card) (isListed : listed op = true)
    (h : entitled f.port op = false) : c.newCommand op f k body = (c.countTaken f.port).answer op f stPortRefused 0 := by
  simp [Card.newCommand, isListed, h]

theorem Card.newCommand_state {c : Card} {op : Byte} {f : Frame} {st : Status} (k : Cmd) (body : Card → Card)
    (isListed : listed op = true) (entitle : entitled f.port op = true) (h : c.step7 op f = some st) :
    c.newCommand op f k body = (c.countTaken f.port).answer op f st 0 := by
  simp [Card.newCommand, isListed, entitle, Card.countTaken_step7, h]

theorem Card.newCommand_fields {c : Card} {op : Byte} {f : Frame} (k : Cmd) (body : Card → Card) (isListed : listed op = true)
    (entitle : entitled f.port op = true) (serves : c.step7 op f = none) (h : fieldsOk op f = false) :
    c.newCommand op f k body = (c.accept op f k).finish f.tag stProtocol 0 false := by
  simp [Card.newCommand, isListed, entitle, Card.countTaken_step7, serves, Card.begin, h, Card.accept]

/-- A tag's entry after a run is what the meaning leaves. -/
theorem run_ended {f : Card → Card} {s : State} {op : Byte} {g : Frame} {st : Status} {info : BitVec 24}
    (h : (f s.card).ended op g st info) : ∃ t, run f s = .next t ∧ t.card.ended op g st info := by
  obtain ⟨t, next, b, ht⟩ := run_spec f s
  refine ⟨t, next, ?_⟩
  rw [ht]
  exact h

/-- Settles O28: the steps of R245 in their order. -/
theorem frameCheckOrder : Obligations.FrameCheckOrder := by
  unfold Obligations.FrameCheckOrder
  intro i op f s command taken
  obtain ⟨k, body, through⟩ := exec_command command
  refine ⟨fun deaf => ?_, fun receives length => ?_, fun ⟨receives, length⟩ e j entry out => ?_,
    fun ⟨receives, length⟩ e st info entry done issue => ⟨fun same => ?_, fun other => ?_⟩,
    fun ⟨receives, length⟩ opened => ?_⟩
  · rw [through]
    exact run_eq (f := fun c => c.receive op f k body) (d := s.card) (by simp [Card.receive, deaf]) (Nat.le_refl _)
  · rw [through]
    exact run_congr (by simp [Card.receive, receives, length])
  · rw [through]
    refine run_eq (f := fun c => c.receive op f k body) (by simp [Card.receive, receives, length, entry, out]) ?_
    simp
  · exact exec_duplicate command receives length entry done issue same
  · rw [through]
    exact run_congr (by simp [Card.receive, receives, length, entry, done, issue, other])
  · have new := Card.receive_open k body (op := op) receives length opened
    obtain ⟨t, next, b, ht⟩ := run_spec (fun c => c.receive op f k body) s
    have ends {st : Status} {info : BitVec 24} (h : (s.card.newCommand op f k body).ended op f st info) :
        t.card.ended op f st info := by
      rw [ht]
      dsimp only
      rw [new]
      exact h
    refine ⟨t, (through s).trans next, fun unlisted => ends ?_, fun isListed stranger => ends ?_,
      fun isListed entitle st state => ends ?_, fun isListed entitle serves unfit => ends ?_⟩
    · rw [Card.newCommand_unlisted f k body unlisted]
      exact Card.answer_ended _ op f stProtocol 0
    · rw [Card.newCommand_notEntitled k body isListed stranger]
      exact Card.answer_ended _ op f stPortRefused 0
    · rw [Card.newCommand_state k body isListed entitle state]
      exact Card.answer_ended _ op f st 0
    · rw [Card.newCommand_fields k body isListed entitle serves unfit]
      exact Card.finish_tagEntry _ f.tag _ _ _ (s.card.accept_working op f k) rfl

theorem Card.count_respond (c : Card) (p : Port) (kind : BitVec 2) (code : BitVec 6) (st : Status) (info : BitVec 24)
    (z : Bool) (n : Nat) : (c.respond p kind code st info z).count n = c.count n := by
  unfold Card.respond
  split <;> rfl

/-- A final response is counted in BC-80 at most (R585). -/
theorem Card.count_sendFinal (c : Card) (p : Port) (t : Tag) (st : Status) (info : BitVec 24) (z : Bool) {n : Nat}
    (h : n ≠ 80) : (c.sendFinal p t st info z).count n = c.count n := by
  unfold Card.sendFinal Card.traceFinal
  dsimp only
  rw [Card.count_ev]
  split
  · rw [Card.count_bump_other _ _ h, Card.count_respond]
  · rw [Card.count_respond]

/-- A command is counted for its port (BC-02, BC-03). -/
theorem Card.count_countTaken (c : Card) (p : Port) :
    (c.countTaken p).count (if p = .ci then 2 else 3) = (c.count (if p = .ci then 2 else 3) + 1) % 2 ^ 32 := by
  cases p <;> exact Card.count_bump_same _ _ (by decide)

/-- Settles O30: step 5's answer, and what it leaves. -/
theorem unlistedOpcodeAnswered : Obligations.UnlistedOpcodeAnswered := by
  unfold Obligations.UnlistedOpcodeAnswered
  intro s op f unlisted receives length opened
  obtain ⟨t, next, ⟨b, ht⟩, counts⟩ := run_counts (fun c => if listed op then c else c.receive op f .timed id) s
  have up := Card.portUp_of_receives receives
  have set : (if listed op then s.card else s.card.receive op f .timed id) =
      (s.card.countTaken f.port).answer op f stProtocol 0 := by
    rw [if_neg (by simp [unlisted]), Card.receive_open .timed id receives length opened,
      Card.newCommand_unlisted f .timed id unlisted]
  obtain ⟨b', final⟩ := (s.card.countTaken f.port).sendFinal_eq f.tag stProtocol 0 false up
  have answered : (s.card.countTaken f.port).answer op f stProtocol 0 =
      ({ s.card with ports := ((s.card.countTaken f.port).respond f.port 0 f.tag stProtocol 0 false).ports,
                     out := s.card.respNow f.port 0 f.tag stProtocol 0 false :: s.card.out, bal := b' } : Card).putTag f.tag
        (entryOf op f (.completed stProtocol 0)) := congrArg (fun d => Card.putTag d f.tag _) final
  have tags := (Card.respond_sends (c := s.card.countTaken f.port) 0 f.tag stProtocol 0 false up).2
  have counted : t.card.count (if f.port = .ci then 2 else 3) = (s.card.count (if f.port = .ci then 2 else 3) + 1) % 2 ^ 32 := by
    have low : 1 < (if f.port = .ci then 2 else 3) ∧ (if f.port = .ci then 2 else 3) < 4 := by
      split <;> decide
    have final : ((s.card.countTaken f.port).answer op f stProtocol 0).count (if f.port = .ci then 2 else 3) =
        (s.card.countTaken f.port).count (if f.port = .ci then 2 else 3) :=
      Card.count_sendFinal _ f.port f.tag stProtocol 0 false (by omega)
    rw [counts _ (by omega), set, final, Card.count_countTaken]
  have others (h : Tag) (other : h ≠ f.tag) :
      ((s.card.countTaken f.port).answer op f stProtocol 0).tagEntry h = s.card.tagEntry h := by
    rw [answered, Card.putTag_tagEntry_other _ _ other]
    simp only [Card.tagEntry, tags]
    rfl
  refine ⟨t, next, ?_⟩
  rw [ht] at counted ⊢
  dsimp only
  rw [set]
  refine ⟨Card.answer_ended _ op f stProtocol 0, ?_, fun h other => ?_, ?_, ?_⟩
  · rw [answered]
    rfl
  · exact others h other
  · exact counted
  · rw [answered]
    rfl

end Sys2Proof.Machine

/-! Windows (R365 to R368, R472). -/

namespace Sys2Proof.Machine

open Sys2Proof

/-- The card `d` is the card `c` but for its queues, its dies' work and the Balcony. -/
def HallsOnly (c d : Card) : Prop := ∃ h b, d = { c with halls := h, bal := b }

theorem HallsOnly.refl (c : Card) : HallsOnly c c := ⟨c.halls, c.bal, rfl⟩

theorem HallsOnly.trans {c d e : Card} (h : HallsOnly c d) (k : HallsOnly d e) : HallsOnly c e := by
  obtain ⟨_, _, rfl⟩ := h
  obtain ⟨x, b, rfl⟩ := k
  exact ⟨x, b, rfl⟩

theorem HallsOnly.of_balcony {c d : Card} (h : BalconyOnly c d) : HallsOnly c d := by
  obtain ⟨b, rfl⟩ := h
  exact ⟨c.halls, b, rfl⟩

theorem HallsOnly.foldl {α : Type} (f : Card → α → Card) (h : ∀ c x, HallsOnly c (f c x)) (l : List α) (c : Card) :
    HallsOnly c (l.foldl f c) := by
  induction l generalizing c with
  | nil => exact .refl c
  | cons x l ih => exact (h c x).trans (ih _)

theorem Card.setDie_hallsOnly (c : Card) (n : Nat) (v : Die) : HallsOnly c (c.setDie n v) := ⟨_, _, rfl⟩

theorem Card.setQueue_hallsOnly (c : Card) (h : Nat) (q : List Desc) : HallsOnly c (c.setQueue h q) := ⟨_, _, rfl⟩

theorem Card.complete_balconyOnly (c : Card) (d : Desc) (code : DescCode) : BalconyOnly c (c.complete d code) := by
  have counted : BalconyOnly c (c.countDesc d) := by
    unfold Card.countDesc
    split
    · exact c.bump_balconyOnly _ _
    · exact c.bump_balconyOnly _ _
    · exact .refl c
  unfold Card.complete Card.traceCode
  refine counted.trans ?_
  split
  · exact Card.ev_balconyOnly _ _ _
  · exact .refl _

theorem Card.complete_hallsOnly (c : Card) (d : Desc) (code : DescCode) : HallsOnly c (c.complete d code) :=
  .of_balcony (c.complete_balconyOnly d code)

theorem Card.setStage_hallsOnly (c : Card) (n : Nat) (s : EraseStage) : HallsOnly c (c.setStage n s) := by
  unfold Card.setStage
  split
  · exact c.setDie_hallsOnly _ _
  · exact .refl c

theorem Card.issue_hallsOnly (c : Card) (d : Desc) : HallsOnly c (c.issue d) := by
  unfold Card.issue
  split
  · exact c.setStage_hallsOnly _ _
  · exact (c.setStage_hallsOnly _ _).trans (Card.complete_hallsOnly _ _ _)
  · exact c.setDie_hallsOnly _ _
  · exact c.setDie_hallsOnly _ _
  · exact .refl c

theorem Card.startDesc_hallsOnly (c : Card) (n : Nat) (d : Desc) : HallsOnly c (c.startDesc n d) := by
  unfold Card.startDesc
  dsimp only
  split <;> exact (c.setQueue_hallsOnly _ _).trans (Card.setDie_hallsOnly _ _ _)

theorem Card.pumpOne_hallsOnly (c : Card) (n : Nat) : HallsOnly c (c.pumpOne n) := by
  unfold Card.pumpOne
  dsimp only
  split
  · exact .refl c
  · split
    · exact c.startDesc_hallsOnly _ _
    · split
      · exact c.startDesc_hallsOnly _ _
      · exact .refl c
      · split
        · exact .refl c
        · exact c.issue_hallsOnly _
    · split
      · exact c.issue_hallsOnly _
      · exact .refl c
    · exact .refl c

theorem Card.pump_hallsOnly (c : Card) (n : Nat) : HallsOnly c (c.pump n) :=
  (c.pumpOne_hallsOnly n).trans (Card.pumpOne_hallsOnly _ n)

theorem Card.pumpAll_hallsOnly (c : Card) : HallsOnly c c.pumpAll := .foldl _ Card.pump_hallsOnly _ c

theorem Card.keepDescs_hallsOnly (c : Card) (p : Desc → Bool) : HallsOnly c (c.keepDescs p) := by
  unfold Card.keepDescs
  dsimp only
  exact .trans ⟨_, c.bal, rfl⟩ (.foldl _ (fun c d => c.complete_hallsOnly d .aborted) _ _)

theorem Card.keepJobs_hallsOnly (c : Card) (p : Nat × ReadJob → Bool) : HallsOnly c (c.keepJobs p) := by
  unfold Card.keepJobs
  dsimp only
  exact .trans ⟨_, c.bal, rfl⟩ (Card.keepDescs_hallsOnly _ _)

theorem Card.endMoves_hallsOnly (c : Card) (p : MoveWhy → Bool) : HallsOnly c (c.endMoves p) := by
  unfold Card.endMoves
  exact .trans ⟨_, c.bal, rfl⟩ (Card.keepJobs_hallsOnly _ _)

/-! What the end of a window forgets (R472). -/

/-- A visit forgotten stays forgotten. -/
def NoVisit (c : Card) : Prop := c.maint.visit = none

theorem NoVisit.of_halls {c d : Card} (h : HallsOnly c d) (none : NoVisit c) : NoVisit d := by
  obtain ⟨_, _, rfl⟩ := h
  exact none

theorem Card.newPass_noVisit (c : Card) : NoVisit c.newPass := .of_halls (.of_balcony (Card.ev_balconyOnly _ _ _)) rfl

theorem Card.awaitErase_noVisit {c : Card} (w : Nat) (none : NoVisit c) : NoVisit (c.awaitErase w) := by
  unfold Card.awaitErase
  dsimp only
  split
  · exact Card.newPass_noVisit _
  · exact none

theorem Card.cutErase_noVisit {c : Card} (w : Nat) (hs : List Nat) (none : NoVisit c) : NoVisit (c.cutErase w hs) := by
  have off (l : List Nat) (d : Card) : HallsOnly d (l.foldl (fun c h => (c.setDie (dieNo h (dieRow w))
      { c.die (dieNo h (dieRow w)) with erase := .none }).complete (.erase w h) .aborted) d) :=
    .foldl _ (fun c h => (c.setDie_hallsOnly _ _).trans (Card.complete_hallsOnly _ _ _)) l d
  have maint (d : Card) (o : EraseOwner) : NoVisit d → NoVisit (d.inlineErased w o) := fun h => by
    have same : (d.inlineErased w o).maint = d.maint := by simp
    simpa only [NoVisit, same] using h
  unfold Card.cutErase
  split
  · exact none
  · dsimp only
    have kept (p : Desc → Bool) (l : List Nat) := NoVisit.of_halls ((c.keepDescs_hallsOnly p).trans (off l _)) none
    split
    · exact maint _ _ (Card.awaitErase_noVisit w (.of_halls ⟨_, _, rfl⟩ (kept _ _)))
    · exact .of_halls ⟨_, _, rfl⟩ (kept _ _)

theorem Card.endErases_noVisit {c : Card} (o : EraseOwner) (none : NoVisit c) : NoVisit (c.endErases o) := by
  have erases (l : List (Nat × WingErase)) (d : Card) (h : NoVisit d) :
      NoVisit (l.foldl (fun c x => c.cutErase x.1 (c.unbegun x.1 x.2)) d) := by
    induction l generalizing d with
    | nil => exact h
    | cons x r ih => exact ih _ (Card.cutErase_noVisit _ _ h)
  unfold Card.endErases
  exact .of_halls ⟨_, _, rfl⟩ (erases _ _ none)

theorem Card.cutWindow_noVisit (c : Card) : NoVisit c.cutWindow := by
  have visit : NoVisit c.cutVisit := .of_halls (Card.keepJobs_hallsOnly _ _) rfl
  unfold Card.cutWindow
  exact Card.endErases_noVisit _ (.of_halls (Card.endMoves_hallsOnly _ _) visit)

/-- A window ends: it runs no more, and with the last service window the patrol visit is forgotten (R368, R472). -/
theorem Card.endOne_frame (c : Card) (w : Window) (cause : Nat) :
    (c.endOne w cause).keep = { c.keep with running := c.maint.running.erase w } ∧ (c.endOne w cause).out = c.out ∧
    ((∀ x, x ∈ c.maint.running.erase w → x.quiet = true) → NoVisit (c.endOne w cause)) := by
  unfold Card.endOne
  dsimp only
  split
  · next some =>
    refine ⟨?_, by simp, fun all => ?_⟩
    · rw [Card.ev_keep]
      rfl
    · obtain ⟨x, mem, serves⟩ := List.any_eq_true.mp some
      simp [all x mem] at serves
  · refine ⟨?_, ?_, fun _ => .of_halls (.of_balcony (Card.ev_balconyOnly _ _ _)) (Card.cutWindow_noVisit _)⟩
    · rw [Card.ev_keep, Card.cutWindow_keep]
      rfl
    · exact (Far.out_eq (Card.ev_far _ _ _)).trans (Far.out_eq (Card.cutWindow_far _))

/-! The window that is over first (R368). -/

theorem foldl_soonerOver (r : List Window) (w : Window) : (r.foldl soonerOver w) ∈ w :: r ∧
    ∀ x, x ∈ w :: r → (r.foldl soonerOver w).began + (r.foldl soonerOver w).duration ≤ x.began + x.duration := by
  induction r generalizing w with
  | nil => exact ⟨List.mem_cons_self, fun x hx => by rw [List.mem_singleton.mp hx]; exact le_rfl⟩
  | cons v r ih =>
    obtain ⟨mem, least⟩ := ih (soonerOver w v)
    have better : (soonerOver w v = w ∨ soonerOver w v = v) ∧
        (soonerOver w v).began + (soonerOver w v).duration ≤ w.began + w.duration ∧
        (soonerOver w v).began + (soonerOver w v).duration ≤ v.began + v.duration := by
      unfold soonerOver
      split
      · next lt => exact ⟨.inr rfl, lt.le, le_rfl⟩
      · next ge => exact ⟨.inl rfl, le_rfl, Nat.not_lt.mp ge⟩
    obtain ⟨one, left, right⟩ := better
    have head := least _ List.mem_cons_self
    refine ⟨?_, fun x hx => ?_⟩
    · rcases List.mem_cons.mp mem with h | h
      · rw [List.foldl_cons, h]
        rcases one with h' | h' <;> simp [h']
      · exact List.mem_cons_of_mem _ (List.mem_cons_of_mem _ h)
    · rcases List.mem_cons.mp hx with rfl | hx
      · exact head.trans left
      · rcases List.mem_cons.mp hx with rfl | hx
        · exact head.trans right
        · exact least x (List.mem_cons_of_mem _ hx)

theorem Card.firstOver_least {c : Card} {w : Window} (h : c.firstOver = some w) : w ∈ c.maint.running ∧
    ∀ x, x ∈ c.maint.running → w.began + w.duration ≤ x.began + x.duration := by
  unfold Card.firstOver at h
  split at h
  · cases h
  · next v r running =>
    obtain rfl := Option.some.inj h
    rw [running]
    exact foldl_soonerOver r v

/-- Settles O52: the branches of WINDOW_START and WINDOW_END, and the search for the window over first. -/
theorem windowsRun : Obligations.WindowsRun := by
  unfold Obligations.WindowsRun
  intro s w hclk
  refine ⟨fun mounted ending marks held start => ?_, fun due => ?_, Card.firstOver_least⟩
  · obtain ⟨t, next, b, ht⟩ := run_spec Card.windowStart s
    have due : (s.card.flights.held.map (fun h => h.tread == s.card.treads.c)).getD false = false := by
      cases h : s.card.flights.held with
      | none => rfl
      | some x => simpa using held x h
    have free : s.card.flights.marks.any (fun m => m.tread == s.card.treads.c) = false := by
      rw [List.any_eq_false]
      exact fun m hm => by simpa using marks m hm
    have set : s.card.windowStart = s.card.startWindow w := by
      simp [Card.windowStart, mounted, hclk, ending, free, due, start]
    obtain ⟨h, b', only⟩ : HallsOnly { s.card with maint := { s.card.maint with
        held := s.card.maint.held.erase w, running := s.card.maint.running ++ [{ w with began := s.card.treads.ticks }] } }
        (s.card.startWindow w) := .trans (.of_balcony (Card.ev_balconyOnly _ _ _)) (Card.pumpAll_hallsOnly _)
    refine ⟨t, next, ?_⟩
    rw [ht, set, only]
    refine ⟨rfl, rfl, ?_, rfl, rfl⟩
    simp [Card.flagQ]
  · obtain ⟨t, next, b, ht⟩ := run_spec Card.windowEnd s
    obtain ⟨cause, set⟩ : ∃ cause, s.card.windowEnd = (s.card.endOne w cause).pumpAll := by
      rcases due with stop | ⟨none, first⟩
      · exact ⟨1, by simp [Card.windowEnd, hclk, stop]⟩
      · have stop : s.card.maint.running.find? (fun x => x.stop == s.card.treads.c) = .none := by
          rw [List.find?_eq_none]
          exact fun x hx => by simpa using List.any_eq_false.mp none x hx
        exact ⟨2, by simp [Card.windowEnd, hclk, stop, first]⟩
    obtain ⟨keep, out, visit⟩ := s.card.endOne_frame w cause
    obtain ⟨h, b', only⟩ := (s.card.endOne w cause).pumpAll_hallsOnly
    have running : (s.card.endOne w cause).maint.running = s.card.maint.running.erase w := congrArg Keep.running keep
    refine ⟨t, next, ?_⟩
    rw [ht, set, only]
    exact ⟨running, congrArg Keep.held keep, congrArg (fun l => List.any l Window.quiet) running, visit,
      congrArg Keep.cells keep, out⟩

end Sys2Proof.Machine

/-! What the card makes of the samples of SY (R346 to R359). -/

namespace Sys2Proof.Machine

open Sys2Proof

/-! One event's way into the trace queue (R578). -/

theorem byNumber_one {e : BalRec} (plain : e.type ≠ 0x01) : byNumber [] [e] = [e] := by
  have next : byNumber [] [e] = if e.type = 0x01 then [] ++ e :: byNumber [] [] else byNumber ([] ++ [e]) [] := rfl
  rw [next, if_neg plain]
  rfl

/-- An event that finds room in the trace queue stands at its end. -/
theorem Card.enterEvents_one {c : Card} {q : List BalRec} {e : BalRec} (queue : c.bal.queue = q ++ [e])
    (plain : e.type ≠ 0x01) (room : q.length < Config.traceEvents) :
    (c.enterEvents q.length).bal.queue.getLast? = some e := by
  have grown : ¬ c.bal.queue.length ≤ q.length := by simp [queue]
  have last : c.bal.queue.drop q.length = [e] := by simp [queue]
  have first : c.bal.queue.take q.length = q := by simp [queue]
  unfold Card.enterEvents
  rw [if_neg grown, last, first, byNumber_one plain, List.foldl_cons, List.foldl_nil]
  unfold Card.enterEvent
  rw [if_neg plain, if_pos room]
  simp

/-! The receiver (R346 to R352). -/

/-- The receiver through samples that bring nothing about. -/
def SyRx.through (r : SyRx) : SyLine → Option SyRx
  | [] => some r
  | high :: line => match r.step high with
    | (r', none) => r'.through line
    | (_, some _) => none

/-- Samples that bring nothing about, with no take point to come, move the receiver alone. -/
theorem Card.hearing_through {c : Card} {line : SyLine} {r : SyRx} (idle : c.treads.taking = none)
    (through : c.treads.rx.through line = some r) :
    line.foldl Card.sySample c = { c with treads := { c.treads with rx := r } } := by
  induction line generalizing c with
  | nil =>
    obtain rfl := Option.some.inj through
    rfl
  | cons high line ih =>
    unfold SyRx.through at through
    split at through
    · next r' step =>
      have sampled : c.sySample high = { c with treads := { c.treads with rx := r' } } := by
        simp [Card.sySample, step, Card.countTake, idle]
      rw [List.foldl_cons, sampled]
      exact ih (c := { c with treads := { c.treads with rx := r' } }) idle through
    · cases through

theorem SyRx.through_append (a b : SyLine) (r : SyRx) : r.through (a ++ b) = (r.through a).bind (fun r => r.through b) := by
  induction a generalizing r with
  | nil => rfl
  | cons high a ih =>
    rw [List.cons_append, SyRx.through, SyRx.through]
    split
    · exact ih _
    · rfl

/-- The first `n` bits of a character, as the receiver puts them together (R347). -/
def syBits (v : Nat → Bool) (n : Nat) : Byte :=
  (List.range n).foldl (fun bits k => if v k then bits ||| (1#8 <<< k) else bits) 0

theorem syBits_succ (v : Nat → Bool) (n : Nat) :
    syBits v (n + 1) = if v n then syBits v n ||| (1#8 <<< n) else syBits v n := by
  rw [syBits, List.range_succ, List.foldl_append]
  rfl

theorem syBits_getLsbD : ∀ b : Byte, syBits b.getLsbD 8 = b := by decide +kernel

/-- The receiver once it has read the start bit and `n` bits of a character that followed idle. -/
def SyRx.after (n : Nat) (bits : Byte) : SyRx :=
  { idle := 0, char := some { cycle := 16 * n + 15, fromIdle := true, bits := bits }, msg := none, since := 16 * n + 16 }

/-- The 16 samples of one bit (R346). -/
theorem through_bit (n : Nat) (h : n < 8) (v : Bool) (bits : Byte) : (SyRx.after n bits).through (List.replicate 16 v) =
    some (SyRx.after (n + 1) (if v then bits ||| (1#8 <<< n) else bits)) := by
  interval_cases n <;> cases v <;> simp [SyRx.through, SyRx.step, SyRx.after, List.replicate]

theorem through_bits (v : Nat → Bool) (n : Nat) (h : n ≤ 8) :
    SyRx.rest.through (List.replicate 16 false ++ ((List.range n).map v).flatMap (List.replicate 16)) =
      some (SyRx.after n (syBits v n)) := by
  induction n with
  | zero => rfl
  | succ n ih =>
    rw [List.range_succ, List.map_append, List.flatMap_append, ← List.append_assoc, SyRx.through_append, ih (by omega),
      syBits_succ]
    exact through_bit n (by omega) (v n) (syBits v n)

/-- The stop bit: the character starts a message where it is 0x7E (R348, R352). -/
theorem through_stop (bits : Byte) : (SyRx.after 8 bits).through (List.replicate 16 true) =
    some { idle := 8, char := none, msg := if bits = 0x7E then some [0x7E] else none, since := 8 } := by
  by_cases h : bits = 0x7E
  · subst h
    rfl
  · have first : (SyRx.after 8 bits).through (List.replicate 8 true) =
        some { idle := 0, char := none, msg := none, since := 0 } := by
      have no : ¬ (true && bits == 0x7E) = true := by simpa using h
      have read : (SyRx.after 8 bits).through (List.replicate 8 true) =
        some { idle := 0, char := none, msg := if (true && bits == 0x7E) then some [bits] else none, since := 0 } := by
        simp [SyRx.through, SyRx.step, SyRx.after, SyRx.accept, List.replicate]
      rw [read, if_neg no]
    have split : List.replicate 16 true = List.replicate 8 true ++ List.replicate 8 true := rfl
    rw [split, SyRx.through_append, first, if_neg h]
    rfl

/-- What the receiver at rest makes of a character. -/
theorem through_charLine (b : Byte) : SyRx.rest.through (charLine b) =
    some { idle := 8, char := none, msg := if b = 0x7E then some [0x7E] else none, since := 8 } := by
  have line : charLine b = (List.replicate 16 false ++ ((List.range 8).map b.getLsbD).flatMap (List.replicate 16)) ++
      List.replicate 16 true := rfl
  rw [line, SyRx.through_append, through_bits _ 8 le_rfl, syBits_getLsbD]
  exact through_stop b

/-- A message discarded: it is counted and traced, and the rest stays (R352; BC-11, EV-06). -/
theorem run_discards {f : Card → Card} {s : State} {d : Card} {why type seq : Byte} (set : f s.card = d.discardSync why type seq)
    (bal : d.bal = s.card.bal) (dock : d.power = s.card.power) :
    ∃ t, run f s = .next t ∧ (∃ b, t.card = { d with bal := b }) ∧ t.card.count 11 = (s.card.count 11 + 1) % 2 ^ 32 ∧
      (s.card.power.dock = true → s.card.bal.queue.length < 480 → ∃ r, t.card.bal.queue.getLast? = some r ∧
        r.type = 0x16 ∧ r.payload = [why, type, seq, 0, 0, 0, 0, 0]) := by
  obtain ⟨b, only⟩ : BalconyOnly d (d.discardSync why type seq) :=
    (d.bump_balconyOnly 11 1).trans (Card.ev_balconyOnly _ _ _)
  obtain ⟨b', entered⟩ := (d.discardSync why type seq).enterEvents_balconyOnly s.card.bal.queue.length
  have counted : (d.discardSync why type seq).count 11 = (s.card.count 11 + 1) % 2 ^ 32 := by
    unfold Card.discardSync
    rw [Card.count_ev, Card.count_bump_same _ _ (by decide), Card.count_of_bal bal]
  refine ⟨{ s with card := (d.discardSync why type seq).enterEvents s.card.bal.queue.length }, ?_, ⟨b', ?_⟩, ?_, fun up room => ?_⟩
  · rw [run, set]
  · rw [entered, only]
  · exact (Card.count_enterEvents _ _ (by decide)).trans counted
  · have queue : (d.discardSync why type seq).bal.queue = s.card.bal.queue ++
        [{ type := 0x16, stamp := d.stamp, payload := payload8 [why, type, seq] }] := by
      have up' : d.power.dock = true := by rw [dock, up]
      have same : d.bal.queue = s.card.bal.queue := by rw [bal]
      unfold Card.discardSync Card.ev
      rw [if_pos (by exact up'), ← same]
      rfl
    exact ⟨_, Card.enterEvents_one queue (by simp) room, rfl, rfl⟩

/-! A message acted on leaves the receiver and what was taken last alone. -/

theorem Far.treads_eq {c d : Card} (h : d.far = c.far) : d.treads = c.treads := congrArg Far.treads h

@[simp] theorem Card.stepActs_treads (c : Card) : c.stepActs.treads = c.treads := Far.treads_eq c.stepActs_far
@[simp] theorem Card.pumpAll_treads (c : Card) : c.pumpAll.treads = c.treads := Far.treads_eq c.pumpAll_far

@[simp] theorem Card.executeLanding_treads (c : Card) (f : Flight) (late : Nat) (src : ActSrc) :
    (c.executeLanding f late src).treads = c.treads := by
  unfold Card.executeLanding Card.closeFlight
  dsimp only
  rw [Card.stepActs_treads, Card.pumpAll_treads]
  split <;> simp

@[simp] theorem Card.lateLanding_treads (c : Card) (f : Flight) (late : Nat) (src : ActSrc) :
    (c.lateLanding f late src).treads = c.treads := by
  simp [Card.lateLanding]

@[simp] theorem Card.dropSync_treads (c : Card) (reason type seq : Byte) : (c.dropSync reason type seq).treads = c.treads := by
  simp [Card.dropSync]

@[simp] theorem Card.dropPastAct_treads (c : Card) (type seq : Byte) (late : Nat) :
    (c.dropPastAct type seq late).treads = c.treads := by
  simp [Card.dropPastAct]

@[simp] theorem Card.staleAct_treads (c : Card) (src : ActSrc) (rollback : Bool) :
    (c.staleAct src rollback).treads = c.treads := by
  unfold Card.staleAct
  split <;> simp

@[simp] theorem Card.reviewRunning_treads (c : Card) : c.reviewRunning.treads = c.treads :=
  Far.treads_eq c.reviewRunning_far

@[simp] theorem Card.reviewMarks_treads (c : Card) : c.reviewMarks.treads = c.treads :=
  foldl_same Card.treads _ (fun c m => by simp) _ _

@[simp] theorem Card.reviewWindows_treads (c : Card) : c.reviewWindows.treads = c.treads :=
  foldl_same Card.treads _ (fun c w => by simp) _ _

@[simp] theorem Card.reviewHeld_treads (c : Card) : c.reviewHeld.treads = c.treads := by
  unfold Card.reviewHeld Card.unhold
  dsimp only
  (repeat' split) <;> simp

@[simp] theorem Card.loadTread_treads (c : Card) (t : Tread) : (c.loadTread t).treads = { c.treads with c := t } := by
  unfold Card.loadTread
  simp

@[simp] theorem Card.checkTread_treads (c : Card) (t : Tread) :
    (c.checkTread t).treads = { c.treads with checkDiff := treadDiff c.treads.c t } := by
  unfold Card.checkTread
  dsimp only
  split <;> simp

theorem Card.schedule_treads (c : Card) (type : Byte) (m : SyncMsg) (late : Nat) (act : Card → Card)
    (acts : ∀ d : Card, (act d).treads = d.treads) : (c.schedule type m late act).treads = c.treads := by
  unfold Card.schedule
  dsimp only
  (repeat' split) <;> simp [acts]

@[simp] theorem Card.hold_treads (c : Card) (h : Held) : (c.hold h).treads = c.treads := by
  simp [Card.hold]

theorem Card.syncLand_treads (c : Card) (m : SyncMsg) : (c.syncLand m).treads = c.treads := by
  refine c.schedule_treads _ m _ _ fun d => ?_
  unfold Card.syncLandNow
  dsimp only
  (repeat' split) <;> simp

theorem Card.syncRollback_treads (c : Card) (m : SyncMsg) : (c.syncRollback m).treads = c.treads := by
  refine c.schedule_treads _ m _ _ fun d => ?_
  unfold Card.syncRollbackNow
  (repeat' split) <;> simp

theorem Card.syncWindowMsg_treads (c : Card) (type : Byte) (m : SyncMsg) (quiet : Bool) :
    (c.syncWindowMsg type m quiet).treads = c.treads := by
  unfold Card.syncWindowMsg
  dsimp only
  split
  · simp
  · refine c.schedule_treads _ m _ _ fun d => ?_
    split
    · rfl
    · simp

theorem Card.syncMark_treads (c : Card) (m : SyncMsg) : (c.syncMark m).treads = c.treads := by
  refine c.schedule_treads _ m _ _ fun d => ?_
  unfold Card.syncMarkNow
  dsimp only
  split <;> simp

/-- What SY's receiver holds, what waits for its take point, and what was taken last. -/
def Treads.sy (t : Treads) : SyRx × Option (Nat × List Byte) × Option (Byte × SyncMsg) := (t.rx, t.taking, t.lastMsg)

theorem Card.syncSet_sy (c : Card) (m : SyncMsg) : (c.syncSet m).treads.sy = c.treads.sy := by
  unfold Card.syncSet
  split
  · rw [Card.loadTread_treads]
    rfl
  · rw [Card.dropSync_treads]

theorem Card.syncCheck_sy (c : Card) (m : SyncMsg) : (c.syncCheck m).treads.sy = c.treads.sy := by
  unfold Card.syncCheck
  split
  · rw [Card.checkTread_treads]
    rfl
  · rw [Card.dropSync_treads]

/-- No message's effect moves these (R359). -/
theorem Card.syncAct_sy (c : Card) (type : Byte) (m : SyncMsg) : (c.syncAct type m).treads.sy = c.treads.sy := by
  unfold Card.syncAct
  split
  · exact c.syncSet_sy m
  · split
    · exact c.syncCheck_sy m
    · split
      · rw [Card.syncLand_treads]
      · split
        · rw [Card.syncRollback_treads]
        · split
          · rw [Card.syncWindowMsg_treads]
          · split
            · rw [Card.syncWindowMsg_treads]
            · rw [Card.syncMark_treads]

/-- The card `d` is the card `c` once it has counted and traced that it took a message (BC-10, BC-14, EV-05). -/
def TookOf (c d : Card) : Prop :=
  ∃ b, d = { c with bal := b } ∧ (∃ more, b.queue = c.bal.queue ++ more) ∧ ∀ n, n ≠ 10 → n ≠ 14 → d.count n = c.count n

theorem TookOf.refl (c : Card) : TookOf c c := ⟨c.bal, rfl, ⟨[], (List.append_nil _).symm⟩, fun _ _ _ => rfl⟩

theorem TookOf.treads {c d : Card} (h : TookOf c d) : d.treads = c.treads := by
  obtain ⟨b, rfl, _⟩ := h
  rfl

theorem TookOf.trans {c d e : Card} (h : TookOf c d) (h' : TookOf d e) : TookOf c e := by
  obtain ⟨b, rfl, ⟨m, q⟩, counts⟩ := h
  obtain ⟨b', rfl, ⟨m', q'⟩, counts'⟩ := h'
  refine ⟨b', rfl, ⟨m ++ m', ?_⟩, fun n i j => (counts' n i j).trans (counts n i j)⟩
  rw [q', ← List.append_assoc, ← q]

theorem Card.bump_tookOf (c : Card) {n : Nat} (h : n = 10 ∨ n = 14) : TookOf c (c.bump n 1) := by
  refine ⟨_, rfl, ⟨[], (List.append_nil _).symm⟩, fun j i k => ?_⟩
  rcases h with rfl | rfl
  · exact c.count_bump_other 1 i
  · exact c.count_bump_other 1 k

theorem Card.ev_tookOf (c : Card) (bs : List Byte) : TookOf c (c.ev 5 bs) := by
  have counts (n : Nat) (_ : n ≠ 10) (_ : n ≠ 14) := c.count_ev 5 bs n
  unfold Card.ev at counts ⊢
  split
  · next dock => exact ⟨_, rfl, ⟨_, rfl⟩, by simpa [dock] using counts⟩
  · exact .refl c

/-- A message heard and in order that is not the last one taken again is now the last one taken, and acts where it is for this
card (R353, R358). -/
theorem Card.takeSync_new {c : Card} {type : Byte} {m : SyncMsg} {act : Card → Card} (hears : c.hearsSync = true)
    (ok : syncFieldsOk type m = true) (new : c.treads.lastMsg ≠ some (type, m)) :
    ∃ d, TookOf { c with treads := { c.treads with lastMsg := some (type, m) } } d ∧
      c.takeSync type m act = if c.addressed m then act d else d.bump 12 1 := by
  obtain ⟨d, took, at'⟩ : ∃ d, TookOf { c with treads := { c.treads with lastMsg := some (type, m) } } d ∧
      c.takeSync type m act = if d.addressed m then
        act ((d.bump 10 1).ev 5 ([type, m.seq] ++ leBytes 4 m.tread.toNat ++ leBytes 2 m.addr.toNat)) else d.bump 12 1 := by
    unfold Card.takeSync
    simp only [hears, ok, new, Bool.not_true, Bool.false_eq_true, if_false]
    refine ⟨_, ?_, rfl⟩
    split
    · split
      · exact Card.bump_tookOf _ (.inr rfl)
      · exact .refl _
    · exact .refl _
  have same : d.addressed m = c.addressed m := by
    obtain ⟨b, rfl, _⟩ := took
    rfl
  rw [same] at at'
  split at at'
  · next yes =>
    exact ⟨_, took.trans ((d.bump_tookOf (.inl rfl)).trans (Card.ev_tookOf _ _)), by rw [if_pos yes, at']⟩
  · next no => exact ⟨d, took, by rw [if_neg no, at']⟩

/-- A message that is the last one taken once more is counted, and nothing else (R353). -/
theorem Card.takeSync_repeat {c : Card} {type : Byte} {m : SyncMsg} {act : Card → Card} (hears : c.hearsSync = true)
    (ok : syncFieldsOk type m = true) (again : c.treads.lastMsg = some (type, m)) : c.takeSync type m act = c.bump 12 1 := by
  unfold Card.takeSync
  simp [hears, ok, again]

/-- A message taken is the last one taken, and the receiver stays (R353, R359). -/
theorem Card.takeSync_sy {c : Card} {type : Byte} {m : SyncMsg} {act : Card → Card} (hears : c.hearsSync = true)
    (ok : syncFieldsOk type m = true) (acts : ∀ d : Card, (act d).treads.sy = d.treads.sy) :
    (c.takeSync type m act).treads.sy = ({ c.treads with lastMsg := some (type, m) } : Treads).sy := by
  by_cases again : c.treads.lastMsg = some (type, m)
  · rw [Card.takeSync_repeat hears ok again, Card.bump_treads]
    simp only [Treads.sy, again]
  · obtain ⟨d, took, taken⟩ := Card.takeSync_new (act := act) hears ok again
    rw [taken]
    split
    · rw [acts, took.treads]
    · rw [Card.bump_treads, took.treads]

/-! A received message at its take point. -/

/-- Idle samples alone leave the receiver at rest, but for how long ago the last character ended. -/
theorem SyRx.step_high_of_rest (since : Nat) :
    ({ SyRx.rest with since := since } : SyRx).step true = ({ SyRx.rest with since := since + 1 }, none) := by
  simp [SyRx.step, SyRx.armed, SyRx.rest]

/-- Idle samples up to the take point of the message that waits (R359). -/
theorem Card.hearing_to_take {c : Card} {n k : Nat} {all : List Byte} (taking : c.treads.taking = some (n + 1, all))
    (rest : c.treads.rx = { SyRx.rest with since := k }) : (List.replicate (n + 1) true).foldl Card.sySample c =
      ({ c with treads := { c.treads with rx := { SyRx.rest with since := k + n + 1 }, taking := none } }).judgeSync all := by
  induction n generalizing c k with
  | zero => simp [Card.sySample, rest, SyRx.step_high_of_rest, Card.countTake, taking, Card.takePending]
  | succ n ih =>
    have sampled : c.sySample true =
        { c with treads := { c.treads with rx := { SyRx.rest with since := k + 1 }, taking := some (n + 1, all) } } := by
      simp [Card.sySample, rest, SyRx.step_high_of_rest, Card.countTake, taking]
    rw [List.replicate_succ, List.foldl_cons, sampled, ih (k := k + 1) rfl rfl]
    simp [Nat.add_comm, Nat.add_left_comm]

/-- A message discarded, where the card has moved no more than SY's receiver: what O48 says of it. -/
theorem run_discards_message {f : Card → Card} {s : State} {why type seq : Byte} (t : Treads)
    (set : f s.card = ({ s.card with treads := t }).discardSync why type seq) (count : t.c = s.card.treads.c)
    (last : t.lastMsg = s.card.treads.lastMsg) (msg : t.rx.msg = none) (char : t.rx.char = none) :
    ∃ t, run f s = .next t ∧ t.card.flights = s.card.flights ∧ t.card.maint = s.card.maint ∧ t.card.out = s.card.out ∧
      t.card.treads.c = s.card.treads.c ∧ t.card.treads.rx.msg = none ∧ t.card.treads.rx.char = none ∧
      t.card.treads.lastMsg = s.card.treads.lastMsg ∧ t.card.count 11 = (s.card.count 11 + 1) % 2 ^ 32 ∧
      (s.card.power.dock = true → s.card.bal.queue.length < 480 → ∃ r, t.card.bal.queue.getLast? = some r ∧
        r.type = 0x16 ∧ r.payload = [why, type, seq, 0, 0, 0, 0, 0]) := by
  obtain ⟨u, next, ⟨b, at'⟩, counted, traced⟩ := run_discards set rfl rfl
  refine ⟨u, next, ?_, ?_, ?_, ?_, ?_, ?_, ?_, counted, traced⟩ <;> rw [at']
  exacts [count, msg, char, last]

/-- Settles O48: the receiver's cases, and the judgement at the take point. -/
theorem syLineIsJudged : Obligations.SyLineIsJudged := by
  unfold Obligations.SyLineIsJudged
  intro s line i hears is
  have listens : exec i s = run (fun c => c.hearSy line) s := by rcases is with rfl | rfl <;> rfl
  have heard : s.card.hearSy line = line.foldl Card.sySample s.card := if_pos hears
  have one (high : Bool) (is : line = [high]) : s.card.hearSy line = s.card.sySample high := by rw [heard, is]; rfl
  rw [listens]
  refine ⟨fun b idle rest is => ?_, fun ch idle char at6 is => ?_, fun bs idle char msg late is => ?_,
    fun ch bs idle char at150 msg => ⟨fun is => ?_, fun full is => ?_⟩, fun n all taking rest pos is => ?_⟩
  · refine run_eq ?_ (Nat.le_refl _)
    rw [heard, is]
    exact Card.hearing_through idle (by rw [rest]; exact through_charLine b)
  · refine run_eq ?_ (Nat.le_refl _)
    rw [one true is]
    simp [Card.sySample, SyRx.step, char, at6, Card.countTake, idle]
  · refine run_discards_message { s.card.treads with rx :=
      { s.card.treads.rx with since := s.card.treads.rx.since + 1, msg := none,
                              idle := min Config.syIdle (s.card.treads.rx.idle + 1) } } ?_ rfl rfl rfl char
    have long : Config.syGap ≤ s.card.treads.rx.since + 1 := late
    simp [one true is, Card.sySample, SyRx.step, SyRx.armed, char, msg, long, Card.countTake, idle, dropIdle]
  · refine run_discards_message { s.card.treads with rx :=
      { s.card.treads.rx with since := 0, msg := none, char := none } } ?_ rfl rfl rfl rfl
    simp [one false is, Card.sySample, SyRx.step, SyRx.framing, char, at150, msg, Card.countTake, idle, dropFraming]
  · refine ⟨{ s.card.treads.rx with since := 0, msg := none, char := none }, rfl, rfl, run_eq ?_ (Nat.le_refl _)⟩
    simp [one true is, Card.sySample, SyRx.step, SyRx.accept, char, at150, msg, full, Config.takeCycles]
  · obtain ⟨n, rfl⟩ : ∃ k, n = k + 1 := ⟨n - 1, by omega⟩
    have judged : s.card.hearSy line = ({ s.card with treads := { s.card.treads with
        rx := { SyRx.rest with since := 0 + n + 1 }, taking := none } }).judgeSync all := by
      rw [heard, is, Card.hearing_to_take (k := 0) taking rest]
    refine ⟨fun bad => ?_, fun crc bad => ?_, fun crc ok => ?_⟩
    · refine run_discards_message { s.card.treads with
        rx := { SyRx.rest with since := 0 + n + 1 }, taking := none } (judged.trans ?_) rfl rfl rfl rfl
      exact if_pos bad
    · refine run_discards_message { s.card.treads with
        rx := { SyRx.rest with since := 0 + n + 1 }, taking := none } (judged.trans ?_) rfl rfl rfl rfl
      unfold Card.judgeSync
      rw [if_neg (not_not_intro crc)]
      exact if_pos (by rw [bad]; rfl)
    · have fields : syncFieldsOk (all.getD 2 0) (syncFields all) = true := by
        simp only [syncBytesOk, Bool.and_eq_true] at ok
        exact ok.2
      obtain ⟨t, next, b, at'⟩ := run_spec (fun c => c.hearSy line) s
      have taken := Card.takeSync_sy (c := { s.card with treads := { s.card.treads with
        rx := { SyRx.rest with since := 0 + n + 1 }, taking := none } }) hears fields
        (fun d => d.syncAct_sy (all.getD 2 0) (syncFields all))
      have sy : t.card.treads.sy = ({ s.card.treads with rx := { SyRx.rest with since := 0 + n + 1 }, taking := none,
                                                         lastMsg := some (all.getD 2 0, syncFields all) } : Treads).sy := by
        rw [at', ← taken]
        dsimp only
        rw [judged]
        unfold Card.judgeSync
        rw [if_neg (not_not_intro crc)]
        simp [ok]
      simp only [Treads.sy, Prod.mk.injEq] at sy
      obtain ⟨rx, pending, last⟩ := sy
      exact ⟨t, next, pending, last, by rw [rx]; rfl⟩

end Sys2Proof.Machine

/-! What notices carry, actions that go on, and the SYNC messages' effects (R143, R144, R240, R251, R315 to R317, R353 to R368,
R379, R386, R584). -/

namespace Sys2Proof.Machine

open Sys2Proof

/-! Notices (R240, R251). -/

/-- The flags byte follows these alone (R251). -/
theorem Card.flags_congr {c d : Card} (phase : d.phase = c.phase) (moved : d.flights.moved = c.flights.moved)
    (losses : d.losses = c.losses) (maint : d.maint = c.maint) (straps : d.straps = c.straps)
    (twin : d.twin.pair = c.twin.pair) (free : d.freeErased = c.freeErased) (z : Bool) : d.flags z = c.flags z := by
  simp only [Card.flags, Card.flagP, Card.lossList, Card.flagS, Card.flagT, Card.flagQ, phase, moved, losses, maint, straps,
    twin, free]

/-- A notice follows its flags, the sequences and the ports alone. -/
theorem Card.noticeNow_congr {c d : Card} (code : BitVec 6) (info : BitVec 24) (dock : d.power.dock = c.power.dock)
    (flags : d.flags false = c.flags false) (co : d.ports.seqCo = c.ports.seqCo) (dco : d.ports.seqDco = c.ports.seqDco) :
    d.noticeNow code info = c.noticeNow code info := by
  simp only [Card.noticeNow, Card.respNow, dock, flags, co, dco]

/-- A notice goes out on each port that is there (R240). -/
theorem Card.notice_out (c : Card) (code : BitVec 6) (info : BitVec 24) :
    (c.notice code info).out = c.noticeNow code info ++ c.out := by
  have first := Card.respond_eq (c := c) (p := .ci) 3 code 0 info false rfl
  have ports : (c.respond .ci 3 code 0 info false).ports = { c.ports with seqCo := c.ports.seqCo + 1 } := rfl
  unfold Card.notice
  have traced (d : Card) (bs : List Byte) : (d.ev 3 bs).out = d.out := by simp
  rw [traced, first, ports]
  unfold Card.noticeNow
  cases dock : c.power.dock
  · simp [Card.respond, Card.portUp, dock]
  · rw [Card.respond_out _ .dci _ _ _ _ _ (by exact dock)]
    rfl

/-! Actions go on, but stay the same (R379, R386). -/

/-- What taking an action further leaves alone: of the flights all but the MARKs that wait for a position and how far each
action is. -/
def Card.afar (c : Card) : Near := { c.near with flights := { c.near.flights with due := [] } }

theorem Action.closed_of_unstaged {a b : Action} (h : a.unstaged = b.unstaged) : a.closed = b.closed :=
  (congrArg Action.closed h : a.unstaged.closed = b.unstaged.closed)

theorem Card.afar_of_near {c d : Card} (h : d.near = c.near) : d.afar = c.afar := by
  simp only [Card.afar, h]

@[simp] theorem Card.placeMark_afar (c : Card) (x : HeldMark × Nat) : (c.placeMark x).afar = c.afar := by
  have same := c.placeNew_near false (newBay .mark 0 0 x.2 (.mark x.1.value x.1.tread))
  unfold Card.placeMark
  split
  · next e =>
    rw [e] at same
    exact Card.afar_of_near same
  · rfl

@[simp] theorem Card.placeDue_afar (c : Card) : c.placeDue.afar = c.afar := by
  unfold Card.placeDue
  split
  · rfl
  · exact foldl_same Card.afar _ (fun c x => by simp) _ _

/-- The action put in the place of those that closed the same ordinal is each of them, but for how far it is. -/
def Card.names (c : Card) (a : Action) : Prop := ∀ x ∈ c.flights.acts, x.closed = a.closed → x.unstaged = a.unstaged

theorem Card.acts_of_afar {c d : Card} (h : d.afar = c.afar) :
    d.flights.acts.map Action.unstaged = c.flights.acts.map Action.unstaged :=
  congrArg (fun n : Near => n.flights.acts) h

theorem Card.names_of_afar {c d : Card} (h : d.afar = c.afar) {a : Action} (names : c.names a) : d.names a := by
  intro x mem closed
  have mem' : x.unstaged ∈ c.flights.acts.map Action.unstaged := by
    rw [← Card.acts_of_afar h]
    exact List.mem_map_of_mem mem
  obtain ⟨y, mem, same⟩ := List.mem_map.mp mem'
  have closed' : y.closed = x.closed := Action.closed_of_unstaged same
  rw [← same]
  exact names y mem (closed'.trans closed)

theorem Card.setAct_afar {c : Card} {a : Action} (names : c.names a) : (c.setAct a).afar = c.afar := by
  have same : (c.flights.acts.map (fun x => if x.closed = a.closed then a else x)).map Action.unstaged =
      c.flights.acts.map Action.unstaged := by
    rw [List.map_map]
    refine List.map_congr_left fun x mem => ?_
    by_cases closed : x.closed = a.closed
    · simp [closed, names x mem closed]
    · simp [closed]
  simp only [Card.afar, Card.near, Card.setAct, same]
  rfl

theorem Card.completeRange_near (c : Card) (lo hi : Nat) : (c.completeRange lo hi).near = c.near :=
  Near.foldl _ (fun c _ => c.fillTo_near _ _) _ _

theorem Card.stepAct_afar {c : Card} {a : Action} (names : c.names a) : (c.stepAct a).afar = c.afar := by
  have step (d : Card) (h : d.afar = c.afar) (a' : Action) (same : a'.unstaged = a.unstaged) :
      (d.setAct a').afar = c.afar := by
    have closed' : a'.closed = a.closed := Action.closed_of_unstaged same
    have named : d.names a' := fun x mem closed =>
      (Card.names_of_afar h names x mem (closed.trans closed')).trans same.symm
    rw [Card.setAct_afar named, h]
  unfold Card.stepAct
  split
  · split
    · exact step c rfl _ rfl
    · split
      · split
        · next placed =>
          exact step _ ((Card.afar_of_near (Card.completeRange_near _ _ _)).trans
            (Card.afar_of_near (Card.placeAll_near placed))) _ rfl
        · rfl
      · rfl
  · split
    · rfl
    · exact Card.afar_of_near (Card.completeRange_near _ _ _)
  · rfl
  · rfl

/-- Actions that closed different ordinals each stay, however far they come (R371, R386). -/
theorem Card.stepActs_afar {c : Card} (names : ∀ a ∈ c.flights.acts, c.names a) : c.stepActs.afar = c.afar := by
  have all (l : List Action) (d : Card) (h : ∀ a ∈ l, d.names a) : (l.foldl Card.stepAct d).afar = d.afar := by
    induction l generalizing d with
    | nil => rfl
    | cons a r ih =>
      have one := Card.stepAct_afar (h a (by simp))
      exact (ih _ fun b mem => Card.names_of_afar one (h b (by simp [mem]))).trans one
  have due := c.placeDue_afar
  refine (all c.placeDue.flights.acts c.placeDue fun a mem x memx closed => ?_).trans due
  have listed (y : Action) (my : y ∈ c.placeDue.flights.acts) : ∃ z ∈ c.flights.acts, z.unstaged = y.unstaged := by
    have m : y.unstaged ∈ c.flights.acts.map Action.unstaged := by
      rw [← Card.acts_of_afar due]
      exact List.mem_map_of_mem my
    exact List.mem_map.mp m
  obtain ⟨z, mz, sz⟩ := listed a mem
  obtain ⟨y, my, sy⟩ := listed x memx
  have cz : z.closed = a.closed := Action.closed_of_unstaged sz
  have cy : y.closed = x.closed := Action.closed_of_unstaged sy
  rw [← sy, ← sz]
  exact names z mz y my (by rw [cz, cy, closed])

/-- One action in progress stays the one in progress. -/
theorem Card.stepActs_one {c : Card} {a : Action} (only : c.flights.acts = [a]) :
    c.stepActs.afar = c.afar ∧ ∃ b, c.stepActs.flights.acts = [b] ∧ b.unstaged = a.unstaged := by
  have afar : c.stepActs.afar = c.afar := Card.stepActs_afar fun b mem x memx _ => by
    rw [only, List.mem_singleton] at mem memx
    rw [mem, memx]
  refine ⟨afar, ?_⟩
  have acts := Card.acts_of_afar afar
  rw [only, List.map_singleton] at acts
  obtain ⟨b, l, is, same, rest⟩ := List.map_eq_cons_iff.mp acts
  exact ⟨b, by rw [is, List.map_eq_nil_iff.mp rest], same⟩

/-! The rows of SYNC messages (R353, R358, R359). -/

theorem Card.syncRow_new {c : Card} {type : Byte} {m : SyncMsg} {act : Card → Card} (hears : c.hearsSync = true)
    (idle : c.treads.taking = none) (ok : syncFieldsOk type m = true) (new : c.treads.lastMsg ≠ some (type, m)) :
    ∃ d, TookOf { c with treads := { c.treads with rx := .rest, lastMsg := some (type, m) } } d ∧
      c.syncRow type m act = if c.addressed m then act d else d.bump 12 1 := by
  unfold Card.syncRow Card.takePending
  rw [if_pos hears, idle]
  exact Card.takeSync_new (c := { c with treads := { c.treads with rx := .rest } }) hears ok new

theorem Card.syncRow_repeat {c : Card} {type : Byte} {m : SyncMsg} {act : Card → Card} (hears : c.hearsSync = true)
    (idle : c.treads.taking = none) (ok : syncFieldsOk type m = true) (again : c.treads.lastMsg = some (type, m)) :
    c.syncRow type m act = ({ c with treads := { c.treads with rx := .rest } }).bump 12 1 := by
  unfold Card.syncRow Card.takePending
  rw [if_pos hears, idle]
  exact Card.takeSync_repeat (c := { c with treads := { c.treads with rx := .rest } }) hears ok again

/-! SET TREAD (R360, R367, R368, R584). -/

theorem Card.reviewRunning_none {c : Card} (running : c.maint.running = []) : c.reviewRunning = c := by
  simp [Card.reviewRunning, running]

theorem Card.reviewMarks_none {c : Card} (marks : c.flights.marks = []) : c.reviewMarks = c := by
  have past : c.flights.marks.filter (fun m => !treadNotPast m.tread c.treads.c) = [] := by rw [marks]; rfl
  have kept : c.flights.marks.filter (fun m => treadNotPast m.tread c.treads.c) = c.flights.marks := by rw [marks]; rfl
  unfold Card.reviewMarks
  rw [past, kept]
  rfl

theorem Card.reviewHeld_none {c : Card} (held : c.flights.held = none) : c.reviewHeld = c := by
  simp [Card.reviewHeld, held]

theorem Card.reviewWindows_none {c : Card} (held : c.maint.held = []) : c.reviewWindows = c := by
  have past : c.maint.held.filter (fun w => !treadNotPast w.start c.treads.c) = [] := by rw [held]; rfl
  have kept : c.maint.held.filter (fun w => treadNotPast w.start c.treads.c) = c.maint.held := by rw [held]; rfl
  unfold Card.reviewWindows
  rw [past, kept]
  rfl

@[simp] theorem Card.dropPastAct_media (c : Card) (type seq : Byte) (late : Nat) :
    (c.dropPastAct type seq late).media = c.media ∧ (c.dropPastAct type seq late).flights = c.flights := by
  simp [Card.dropPastAct, Card.dropSync]

/-- With nothing held and no window running a load moves neither the media nor an action (R367, R368). -/
theorem Card.loadTread_media {c : Card} (t : Tread) (held : c.flights.held = none) (running : c.maint.running = []) :
    (c.loadTread t).media = c.media ∧ (c.loadTread t).flights.acts = c.flights.acts := by
  have load (d : Card) : d.queueLoad.media = d.media ∧ d.queueLoad.flights = d.flights ∧ d.queueLoad.maint = d.maint := by
    unfold Card.queueLoad
    split <;> exact ⟨rfl, rfl, rfl⟩
  have marks (d : Card) : d.reviewMarks.media = d.media ∧ d.reviewMarks.flights.acts = d.flights.acts ∧
      d.reviewMarks.flights.held = d.flights.held := by
    have past (l : List HeldMark) (d : Card) : (l.foldl (fun c m => c.dropPastAct syncTypeMark m.seq
        (treadAhead c.treads.c m.tread)) d).media = d.media ∧ (l.foldl (fun c m => c.dropPastAct syncTypeMark m.seq
        (treadAhead c.treads.c m.tread)) d).flights = d.flights :=
      ⟨foldl_same Card.media _ (fun c m => by simp) _ _, foldl_same Card.flights _ (fun c m => by simp) _ _⟩
    unfold Card.reviewMarks
    dsimp only
    rw [(past _ _).1, (past _ _).2]
    exact ⟨rfl, rfl, rfl⟩
  have windows (d : Card) : d.reviewWindows.media = d.media ∧ d.reviewWindows.flights = d.flights := by
    unfold Card.reviewWindows
    exact ⟨foldl_same Card.media _ (fun c w => by simp) _ _, foldl_same Card.flights _ (fun c w => by simp) _ _⟩
  unfold Card.loadTread
  dsimp only
  obtain ⟨media, flights, maint⟩ := load { c with treads := { c.treads with c := t } }
  rw [Card.reviewRunning_none (by rw [maint]; exact running)]
  obtain ⟨mediaM, acts, heldM⟩ := marks ({ c with treads := { c.treads with c := t } } : Card).queueLoad
  rw [Card.reviewHeld_none (by rw [heldM, flights]; exact held), (windows _).1, (windows _).2, mediaM, media, acts, flights]
  exact ⟨rfl, rfl⟩

/-- With nothing scheduled at all a load does nothing else (R584). -/
theorem Card.loadTread_alone {c : Card} (t : Tread) (held : c.flights.held = none) (marks : c.flights.marks = [])
    (windows : c.maint.held = []) (running : c.maint.running = []) (dock : c.power.dock = true) : c.loadTread t =
      { c with treads := { c.treads with c := t }
               bal := { c.bal with queue := c.bal.queue ++
                 [({ c with treads := { c.treads with c := t } } : Card).fullTread 0x01] } } := by
  unfold Card.loadTread Card.queueLoad
  dsimp only
  rw [if_pos dock, Card.reviewRunning_none (by exact running), Card.reviewMarks_none (by exact marks),
    Card.reviewHeld_none (by exact held), Card.reviewWindows_none (by exact windows)]

theorem byNumber_load (seg l : List BalRec) {r : BalRec} (load : r.type = 0x01) :
    ∃ m, byNumber seg (l ++ [r]) = m ++ [r] := by
  induction l generalizing seg with
  | nil =>
    refine ⟨sortBy (fun (a b : BalRec) => decide (a.type.toNat ≤ b.type.toNat)) seg, ?_⟩
    rw [List.nil_append, byNumber, if_pos load]
    rfl
  | cons e l ih =>
    rw [List.cons_append, byNumber]
    split
    · obtain ⟨m, is⟩ := ih []
      rw [is]
      exact ⟨sortBy (fun (a b : BalRec) => decide (a.type.toNat ≤ b.type.toNat)) seg ++ e :: m, by simp⟩
    · exact ih _

/-- A load record stands at the end of what a step has queued (R578, R584). -/
theorem Card.enterEvents_load {c : Card} {q more : List BalRec} {r : BalRec} (queue : c.bal.queue = q ++ more ++ [r])
    (load : r.type = 0x01) : (c.enterEvents q.length).bal.queue.getLast? = some r := by
  have grown : ¬ c.bal.queue.length ≤ q.length := by simp [queue]
  have added : c.bal.queue.drop q.length = more ++ [r] := by simp [queue]
  obtain ⟨m, is⟩ := byNumber_load [] more load
  unfold Card.enterEvents
  rw [if_neg grown, added, is, List.foldl_append, List.foldl_cons, List.foldl_nil]
  unfold Card.enterEvent
  rw [if_pos load]
  simp

/-- CHECK TREAD tells a difference above one tread (R361). -/
theorem Card.checkTread_out (c : Card) (t : Tread) : (c.checkTread t).out =
    if treadDiff c.treads.c t < -1 ∨ 1 < treadDiff c.treads.c t then
      c.noticeNow ntTreadSlip (BitVec.ofInt 24 (clampInt 0x7FFFFF (treadDiff c.treads.c t))) ++ c.out else c.out := by
  unfold Card.checkTread
  dsimp only
  split
  · rw [Card.notice_out]
    rfl
  · rfl

theorem syncFieldsOk_treads {type : Byte} {m : SyncMsg} (is : type = syncTypeSet ∨ type = syncTypeCheck) (kind : m.kind ≠ 3)
    (group : m.kind = 1 → m.addr.toNat < 16) (arg : m.arg = 0) : syncFieldsOk type m = true := by
  unfold syncFieldsOk
  rw [if_pos is]
  have place : ¬ m.kind = 1#2 ∨ m.addr.toNat < 16 := Classical.or_iff_not_imp_left.mpr fun one => group (not_not.mp one)
  simpa [arg, place] using kind

/-- Settles O46: each message is taken as new; then what the two of them do. -/
theorem syncTreadMessages : Obligations.SyncTreadMessages := by
  unfold Obligations.SyncTreadMessages
  refine fun s m hears idle mine kind group arg => ⟨fun new => ?_, fun new => ?_⟩
  · obtain ⟨d, took, set⟩ := Card.syncRow_new (act := fun c => c.syncSet m) hears idle
      (syncFieldsOk_treads (.inl rfl) kind group arg) new
    rw [if_pos mine] at set
    obtain ⟨b, at', ⟨more, queue⟩, -⟩ := took
    have serves : d.servesTreads = s.card.servesTreads := by rw [at']; rfl
    obtain ⟨b', entered⟩ := (d.syncSet m).enterEvents_balconyOnly s.card.bal.queue.length
    refine ⟨{ s with card := (d.syncSet m).enterEvents s.card.bal.queue.length }, by rw [← set]; rfl, ?_,
      fun serving => ?_, fun off => ?_⟩
    · have sy := d.syncSet_sy m
      simp only [Treads.sy, Prod.mk.injEq] at sy
      rw [entered]
      exact sy.2.2.trans (by rw [at'])
    · have load : d.syncSet m = d.loadTread m.tread :=
        if_pos (by rw [serves]; simpa [Card.servesTreads] using serving)
      refine ⟨?_, fun held running => ?_, fun held dock marks windows running => ?_⟩
      · rw [entered, load]
        exact congrArg Treads.c (d.loadTread_treads m.tread)
      · obtain ⟨media, acts⟩ := d.loadTread_media m.tread (by rw [at']; exact held) (by rw [at']; exact running)
        rw [entered, load]
        exact ⟨media.trans (by rw [at']), acts.trans (by rw [at'])⟩
      · have alone := d.loadTread_alone m.tread (by rw [at']; exact held) (by rw [at']; exact marks)
          (by rw [at']; exact windows) (by rw [at']; exact running) (by rw [at']; exact dock)
        have last := Card.enterEvents_load (c := d.syncSet m) (q := s.card.bal.queue) (more := more)
          (r := ({ d with treads := { d.treads with c := m.tread } } : Card).fullTread 0x01)
          (by rw [load, alone, ← queue, at']) rfl
        refine ⟨last.trans ?_, ?_⟩
        · rw [entered, load, alone]
          rfl
        · rw [entered, load, alone, at']
    · have drop : d.syncSet m = d.dropSync dropState syncTypeSet m.seq :=
        if_neg (by rw [serves]; rcases off with h | h <;> simp [Card.servesTreads, h])
      rw [entered, drop]
      exact (congrArg Treads.c (Card.dropSync_treads _ _ _ _)).trans (by rw [at'])
  · obtain ⟨d, took, check⟩ := Card.syncRow_new (act := fun c => c.syncCheck m) hears idle
      (syncFieldsOk_treads (.inr rfl) kind group arg) new
    rw [if_pos mine] at check
    obtain ⟨b, at', -, -⟩ := took
    have serves : d.servesTreads = s.card.servesTreads := by rw [at']; rfl
    obtain ⟨b', entered⟩ := (d.syncCheck m).enterEvents_balconyOnly s.card.bal.queue.length
    refine ⟨{ s with card := (d.syncCheck m).enterEvents s.card.bal.queue.length }, by rw [← check]; rfl, ?_, ?_,
      fun serving => ?_⟩
    · have sy := d.syncCheck_sy m
      simp only [Treads.sy, Prod.mk.injEq] at sy
      rw [entered]
      exact sy.2.2.trans (by rw [at'])
    · rw [entered]
      unfold Card.syncCheck
      split
      · exact (congrArg Treads.c (Card.checkTread_treads _ _)).trans (by rw [at'])
      · exact (congrArg Treads.c (Card.dropSync_treads _ _ _ _)).trans (by rw [at'])
    · have check : d.syncCheck m = d.checkTread m.tread :=
        if_pos (by rw [serves]; simpa [Card.servesTreads] using serving)
      have told (code : BitVec 6) (info : BitVec 24) : d.noticeNow code info = s.card.noticeNow code info :=
        Card.noticeNow_congr code info (by rw [at']) (by rw [at']; rfl) (by rw [at']) (by rw [at'])
      have now : d.treads.c = s.card.treads.c := by rw [at']
      have sent : d.out = s.card.out := by rw [at']
      have out := d.checkTread_out m.tread
      rw [told, now, sent] at out
      refine ⟨?_, fun near => ?_, fun far => ?_⟩
      · rw [entered, check]
        exact (congrArg Treads.checkDiff (Card.checkTread_treads _ _)).trans (by rw [now])
      · rw [entered, check]
        exact out.trans (if_neg (by omega))
      · rw [entered, check]
        exact out.trans (if_pos far)

/-! A landing executes (R379 step 1). -/

/-- The landing of an execution (R379 step 1). -/
def Card.landingOf (c : Card) (f : Flight) (late : Nat) (src : ActSrc) : Action :=
  { rollback := false, flight := f, exec := c.treads.c, late := late, src := src, closed := c.flights.openOrd,
    opened := c.flights.nextOrd, stage := .waiting, begun := c.treads.ticks, bay := none, failed := false }

/-- The card at the start of an execution: the open flight closed, the landing begun, its verdict awaited. -/
def Card.landing (c : Card) (f : Flight) (late : Nat) (src : ActSrc) : Card :=
  { c with flights := { c.flights with openOrd := c.flights.nextOrd, nextOrd := c.flights.nextOrd + 1,
                                       acts := c.flights.acts ++ [c.landingOf f late src] }
           twin := if c.straps.role = .solo then c.twin
                   else { c.twin with waits := c.twin.waits ++ [{ flight := f, ended := false }] } }

theorem Card.executeLanding_eq (c : Card) (f : Flight) (late : Nat) (src : ActSrc) : c.executeLanding f late src =
    ((c.landing f late src).ev 12 (leBytes 4 f.toNat ++ leBytes 2 late)).driveLnd.pumpAll.stepActs := by
  unfold Card.executeLanding Card.landing Card.closeFlight Card.landingOf
  dsimp only
  split <;> rfl

/-- Executing a landing closes the open flight, begins it and pulls LND (R371, R379 step 1, R389). -/
theorem Card.executeLanding_begins {c : Card} (f : Flight) (late : Nat) (src : ActSrc) (mounted : c.phase = .mounted)
    (hclk : c.power.hclk = true) (idle : c.flights.acts = []) :
    (∃ a, (c.executeLanding f late src).flights.acts = [a] ∧ a.unstaged = c.landingOf f late src) ∧
      (c.executeLanding f late src).power.lnd = true ∧ (c.executeLanding f late src).flights.openOrd = c.flights.nextOrd ∧
      (c.executeLanding f late src).flights.held = c.flights.held := by
  rw [Card.executeLanding_eq]
  generalize traced : (c.landing f late src).ev 12 (leBytes 4 f.toNat ++ leBytes 2 late) = d
  have acts : (c.landing f late src).flights.acts = [c.landingOf f late src] := by simp [Card.landing, idle]
  have flights : d.flights = (c.landing f late src).flights := by rw [← traced]; simp
  have lnd : d.driveLnd.power.lnd = true := by
    have phase : d.phase = .mounted := by rw [← traced]; simp [Card.landing, mounted]
    have power : d.power.hclk = true := by rw [← traced]; simp [Card.landing, hclk]
    rw [Card.driveLnd_lnd, if_pos power, phase, flights, acts]
    simp [Card.landingOf]
  have pumped : d.driveLnd.pumpAll.flights = (c.landing f late src).flights := by
    have pump : d.driveLnd.pumpAll.flights = d.driveLnd.flights := congrArg Rest.flights (Card.pumpAll_rest _)
    rw [pump, ← flights]
    simp
  obtain ⟨afar, a, is, same⟩ := Card.stepActs_one (c := d.driveLnd.pumpAll) (by rw [pumped, acts])
  have far : d.driveLnd.pumpAll.stepActs.power = d.driveLnd.pumpAll.power := congrArg Far.power (Card.stepActs_far _)
  have flown (g : Flights → Nat × Option Held) (h : ∀ x due acts, g { x with due := due, acts := acts } = g x) :
      g d.driveLnd.pumpAll.stepActs.flights = g (c.landing f late src).flights := by
    have := congrArg (fun n : Near => g n.flights) afar
    simpa [Card.afar, Card.near, h, pumped] using this
  refine ⟨⟨a, is, same⟩, ?_, ?_, ?_⟩
  · have pump : d.driveLnd.pumpAll.power = d.driveLnd.power := congrArg Rest.power (Card.pumpAll_rest _)
    rw [far, pump, lnd]
  · exact congrArg Prod.fst (flown (fun x => (x.openOrd, x.held)) fun _ _ _ => rfl)
  · exact congrArg Prod.snd (flown (fun x => (x.openOrd, x.held)) fun _ _ _ => rfl)

/-! The scheduled messages (R143, R315, R316, R354 to R357, R364). -/

theorem Card.schedule_dropped {c : Card} (type : Byte) (m : SyncMsg) (late : Nat) (act : Card → Card)
    (off : c.phase ≠ .mounted) : c.schedule type m late act = c.dropSync dropState type m.seq := if_pos off

theorem Card.schedule_ahead {c : Card} (type : Byte) {m : SyncMsg} (late : Nat) (act : Card → Card) (on : c.phase = .mounted)
    (notPast : treadNotPast m.tread c.treads.c = true) (near : treadAhead m.tread c.treads.c ≤ 2 ^ 24) :
    c.schedule type m late act = act c := by
  have lead : ¬ Config.leadTreads < treadAhead m.tread c.treads.c := Nat.not_lt.mpr near
  simp [Card.schedule, on, notPast, lead]

theorem Card.schedule_late {c : Card} (type : Byte) {m : SyncMsg} {late : Nat} (act : Card → Card) (on : c.phase = .mounted)
    (past : treadNotPast m.tread c.treads.c = false) (near : treadAhead c.treads.c m.tread ≤ late) :
    c.schedule type m late act = act c := by
  simp [Card.schedule, on, past, Nat.not_lt.mpr near]

/-- A dropped message is counted, and nothing else but the Balcony moves (BC-13). -/
theorem Card.dropSync_counts (c : Card) (reason type seq : Byte) :
    BalconyOnly c (c.dropSync reason type seq) ∧ (c.dropSync reason type seq).count 13 = (c.count 13 + 1) % 2 ^ 32 :=
  ⟨(c.bump_balconyOnly 13 1).trans (Card.ev_balconyOnly _ _ _),
    (Card.count_ev _ _ _ _).trans (c.count_bump_same 1 (by decide))⟩

/-- A row whose message is new and for this card: its effect, on a card that differs in what it took last, the receiver and
the Balcony alone. -/
theorem run_syncRow {s : State} {type : Byte} {m : SyncMsg} {act : Card → Card} (hears : s.card.hearsSync = true)
    (idle : s.card.treads.taking = none) (mine : s.card.addressed m = true) (ok : syncFieldsOk type m = true)
    (new : s.card.treads.lastMsg ≠ some (type, m)) :
    ∃ t d b, run (fun c => c.syncRow type m act) s = .next t ∧ BalconyOnly (act d) t.card ∧
      t.card.count 13 = (act d).count 13 ∧ d.count 13 = s.card.count 13 ∧
      d = { s.card with treads := { s.card.treads with rx := .rest, lastMsg := some (type, m) }, bal := b } := by
  obtain ⟨d, took, set⟩ := Card.syncRow_new (act := act) hears idle ok new
  rw [if_pos mine] at set
  obtain ⟨b, at', -, counts⟩ := took
  refine ⟨{ s with card := (act d).enterEvents s.card.bal.queue.length }, d, b, by rw [← set]; rfl,
    Card.enterEvents_balconyOnly _ _, Card.count_enterEvents _ _ (by decide),
    (counts 13 (by decide) (by decide)).trans (Card.count_of_bal rfl 13), at'⟩

theorem syncFieldsOk_scheduled {type : Byte} {m : SyncMsg} (set : type ≠ syncTypeSet) (check : type ≠ syncTypeCheck)
    (kind : m.kind ≠ 3) (group : m.kind = 1 → m.addr.toNat < 16) (quiet : type ≠ syncTypeQuiet ∨ m.arg.toNat < 2 ^ 24) :
    syncFieldsOk type m = true := by
  have place : ¬ m.kind = 1#2 ∨ m.addr.toNat < 16 := Classical.or_iff_not_imp_left.mpr fun one => group (not_not.mp one)
  have kind' : ¬ m.kind = 3#2 := kind
  unfold syncFieldsOk
  rw [if_neg (by simp [set, check])]
  split
  · next is =>
    have short : m.arg.toNat < 16777216 := quiet.resolve_left (not_not_intro is)
    simp [kind', place, short]
  · simp [kind', place]

/-- Outside MOUNTED each of the five is dropped (R143, R356). -/
theorem Card.scheduled_dropped {d : Card} (off : d.phase ≠ .mounted) (m : SyncMsg) :
    d.syncLand m = d.dropSync dropState syncTypeLand m.seq ∧ d.syncRollback m = d.dropSync dropState syncTypeRollback m.seq ∧
    d.syncWindowMsg syncTypeService m false = d.dropSync dropState syncTypeService m.seq ∧
    d.syncWindowMsg syncTypeQuiet m true = d.dropSync dropState syncTypeQuiet m.seq ∧
    d.syncMark m = d.dropSync dropState syncTypeMark m.seq := by
  refine ⟨d.schedule_dropped _ m _ _ off, d.schedule_dropped _ m _ _ off, ?_, ?_, d.schedule_dropped _ m _ _ off⟩
  all_goals
    unfold Card.syncWindowMsg
    dsimp only
    rw [if_neg (by simp [off])]
    exact d.schedule_dropped _ m _ _ off

/-- A window message in time holds its window where the window is in order and fits (R316, R355). -/
theorem Card.syncWindowMsg_ahead {d : Card} (type : Byte) {m : SyncMsg} (quiet : Bool) (on : d.phase = .mounted)
    (notPast : treadNotPast m.tread d.treads.c = true) (near : treadAhead m.tread d.treads.c ≤ 2 ^ 24) :
    (64 ≤ (syncWindow m quiet).duration → (quiet = true ∨ (syncWindow m quiet).kinds &&& 0x7F ≠ 0) →
      d.windowFits (syncWindow m quiet) = true → d.syncWindowMsg type m quiet = d.holdWindow (syncWindow m quiet)) ∧
    ((syncWindow m quiet).duration < 64 ∨ (quiet = false ∧ (syncWindow m quiet).kinds &&& 0x7F = 0) ∨
      d.windowFits (syncWindow m quiet) = false → d.syncWindowMsg type m quiet = d.dropSync dropWindow type m.seq) := by
  have most : (syncWindow m quiet).duration ≤ Config.windowMax := by
    have := Nat.mod_lt m.arg.toNat (by decide : 0 < 2 ^ 24)
    exact this
  have lasts : durationOk (syncWindow m quiet).duration = decide (64 ≤ (syncWindow m quiet).duration) := by
    unfold durationOk
    rw [decide_eq_decide]
    exact and_iff_left most
  have next := d.schedule_ahead type 0 (fun c => if c.windowFits (syncWindow m quiet) then c.holdWindow (syncWindow m quiet)
    else c.dropSync dropWindow type m.seq) on notPast near
  unfold Card.syncWindowMsg
  dsimp only
  rw [lasts, next]
  refine ⟨fun long granted fits => ?_, fun bad => ?_⟩
  · rw [if_neg, if_pos fits]
    rintro ⟨-, bad⟩
    rcases granted with rfl | some
    · simp [long] at bad
    · have kinds : kindsOk (syncWindow m quiet).kinds = true := bne_iff_ne.mpr some
      simp [long, kinds] at bad
  · by_cases over' : d.phase = .mounted ∧ (!decide (64 ≤ (syncWindow m quiet).duration) ||
        !quiet && !kindsOk (syncWindow m quiet).kinds) = true
    · rw [if_pos over']
    · rw [if_neg over', if_neg]
      intro fits
      refine over' ⟨on, ?_⟩
      rcases bad with short | ⟨rfl, none⟩ | full
      · simp [Nat.not_le.mpr short]
      · have kinds : kindsOk (syncWindow m false).kinds = false := bne_eq_false_iff_eq.mpr none
        simp [kinds]
      · rw [fits] at full
        cases full

/-- A message that is in order and new, heard with no other's take point to come, and for this card. -/
structure HeardNew (s : State) (m : SyncMsg) : Prop where
  hears : s.card.hearsSync = true
  idle : s.card.treads.taking = none
  mine : s.card.addressed m = true
  kind : m.kind ≠ 3
  group : m.kind = 1 → m.addr.toNat < 16
  new : ∀ x, s.card.treads.lastMsg = some x → x.2 ≠ m

theorem HeardNew.hclk {s : State} {m : SyncMsg} (h : HeardNew s m) : s.card.power.hclk = true := by
  have hears := h.hears
  simp only [Card.hearsSync, Bool.and_eq_true] at hears
  exact hears.1.2

/-- Such a message's row. -/
theorem HeardNew.row {s : State} {m : SyncMsg} (h : HeardNew s m) (type : Byte) (act : Card → Card)
    (set : type ≠ syncTypeSet) (check : type ≠ syncTypeCheck) (quiet : type ≠ syncTypeQuiet ∨ m.arg.toNat < 2 ^ 24) :
    ∃ t d b, run (fun c => c.syncRow type m act) s = .next t ∧ BalconyOnly (act d) t.card ∧
      t.card.count 13 = (act d).count 13 ∧ d.count 13 = s.card.count 13 ∧
      d = { s.card with treads := { s.card.treads with rx := .rest, lastMsg := some (type, m) }, bal := b } :=
  run_syncRow h.hears h.idle h.mine (syncFieldsOk_scheduled set check h.kind h.group quiet) (fun same => h.new _ same rfl)

/-- Outside MOUNTED a scheduled message is dropped and counted (R143, R356). -/
theorem HeardNew.dropped {s : State} {m : SyncMsg} (h : HeardNew s m) {i : Instr} (off : s.card.phase ≠ .mounted)
    (is : i = .syncLand m ∨ i = .syncRollback m ∨ i = .syncService m ∨ (i = .syncQuiet m ∧ m.arg.toNat < 2 ^ 24) ∨
      i = .syncMark m) : ∃ t, exec i s = .next t ∧ t.card.flights = s.card.flights ∧ t.card.maint = s.card.maint ∧
      t.card.out = s.card.out ∧ t.card.count 13 = (s.card.count 13 + 1) % 2 ^ 32 := by
  have one (type : Byte) (act : Card → Card) (row : exec i s = run (fun c => c.syncRow type m act) s)
      (drops : ∀ d : Card, d.phase ≠ .mounted → act d = d.dropSync dropState type m.seq) (set : type ≠ syncTypeSet)
      (check : type ≠ syncTypeCheck) (quiet : type ≠ syncTypeQuiet ∨ m.arg.toNat < 2 ^ 24) : ∃ t, exec i s = .next t ∧
      t.card.flights = s.card.flights ∧ t.card.maint = s.card.maint ∧ t.card.out = s.card.out ∧
      t.card.count 13 = (s.card.count 13 + 1) % 2 ^ 32 := by
    obtain ⟨t, d, b, next, ⟨b', ended⟩, counted, before, at'⟩ := h.row type act set check quiet
    have dropped := drops d (by rw [at']; exact off)
    obtain ⟨⟨b₁, drop⟩, count⟩ := d.dropSync_counts dropState type m.seq
    rw [dropped] at counted ended
    refine ⟨t, row.trans next, ?_, ?_, ?_, by rw [counted, count, before]⟩ <;> rw [ended, drop, at']
  rcases is with rfl | rfl | rfl | ⟨rfl, short⟩ | rfl
  · exact one syncTypeLand (fun c => c.syncLand m) rfl (fun _ off => (Card.scheduled_dropped off m).1)
      (by decide) (by decide) (.inl (by decide))
  · exact one syncTypeRollback (fun c => c.syncRollback m) rfl (fun _ off => (Card.scheduled_dropped off m).2.1)
      (by decide) (by decide) (.inl (by decide))
  · exact one syncTypeService (fun c => c.syncWindowMsg syncTypeService m false) rfl
      (fun _ off => (Card.scheduled_dropped off m).2.2.1) (by decide) (by decide) (.inl (by decide))
  · exact one syncTypeQuiet (fun c => c.syncWindowMsg syncTypeQuiet m true) rfl
      (fun _ off => (Card.scheduled_dropped off m).2.2.2.1) (by decide) (by decide) (.inr short)
  · exact one syncTypeMark (fun c => c.syncMark m) rfl (fun _ off => (Card.scheduled_dropped off m).2.2.2.2)
      (by decide) (by decide) (.inl (by decide))

/-- Nothing bars a LAND or ROLLBACK where none is held and no LAND-AFTER is out (R315). -/
theorem Card.actionBlocked_false {c : Card} (free : c.flights.held = none) (blocked : c.landAfterOut = false) :
    c.actionBlocked = false := by
  simp [Card.actionBlocked, free, blocked]

/-- A LAND in time is held, and pulls LND (R315, R356, R389). -/
theorem HeardNew.land {s : State} {m : SyncMsg} (h : HeardNew s m) (on : s.card.phase = .mounted)
    (notPast : treadNotPast m.tread s.card.treads.c = true) (near : treadAhead m.tread s.card.treads.c ≤ 2 ^ 24)
    (free : s.card.actionBlocked = false) (ok : s.card.landingOk m.arg = true) :
    ∃ t, exec (.syncLand m) s = .next t ∧ t.card.power.lnd = true ∧
      t.card.flights.held = some { rollback := false, tread := m.tread, flight := m.arg, src := .sync m.seq } := by
  obtain ⟨t, d, b, next, ⟨b', ended⟩, -, -, at'⟩ := h.row syncTypeLand (fun c => c.syncLand m) (by decide) (by decide)
    (.inl (by decide))
  have held : d.syncLand m = d.hold { rollback := false, tread := m.tread, flight := m.arg, src := .sync m.seq } := by
    have open' : d.actionBlocked = false := by rw [at']; exact free
    have numbered : d.landingOk m.arg = true := by rw [at']; exact ok
    have ahead : treadNotPast m.tread d.treads.c = true := by rw [at']; exact notPast
    have acts := d.schedule_ahead syncTypeLand Config.lateTreads (fun c => c.syncLandNow m) (by rw [at']; exact on) ahead
      (by rw [at']; exact near)
    refine acts.trans ?_
    simp [Card.syncLandNow, open', numbered, ahead]
  refine ⟨t, next, ?_, ?_⟩
  · rw [ended, held]
    dsimp only
    rw [Card.hold, Card.driveLnd_lnd, at']
    simp [h.hclk, on]
  · rw [ended, held]
    dsimp only
    simp [Card.hold]

/-- A ROLLBACK in time is held (R315, R356). -/
theorem HeardNew.rollback {s : State} {m : SyncMsg} (h : HeardNew s m) (on : s.card.phase = .mounted)
    (notPast : treadNotPast m.tread s.card.treads.c = true) (near : treadAhead m.tread s.card.treads.c ≤ 2 ^ 24)
    (free : s.card.actionBlocked = false) (ok : s.card.rollbackOk m.arg = true) :
    ∃ t, exec (.syncRollback m) s = .next t ∧
      t.card.flights.held = some { rollback := true, tread := m.tread, flight := m.arg, src := .sync m.seq } := by
  obtain ⟨t, d, b, next, ⟨b', ended⟩, -, -, at'⟩ := h.row syncTypeRollback (fun c => c.syncRollback m) (by decide)
    (by decide) (.inl (by decide))
  have held : d.syncRollback m = d.hold { rollback := true, tread := m.tread, flight := m.arg, src := .sync m.seq } := by
    have open' : d.actionBlocked = false := by rw [at']; exact free
    have numbered : d.rollbackOk m.arg = true := by rw [at']; exact ok
    have acts := d.schedule_ahead syncTypeRollback 0 (fun c => c.syncRollbackNow m) (by rw [at']; exact on)
      (by rw [at']; exact notPast) (by rw [at']; exact near)
    refine acts.trans ?_
    simp [Card.syncRollbackNow, open', numbered]
  refine ⟨t, next, ?_⟩
  rw [ended, held]
  dsimp only
  simp [Card.hold]

/-- A window in time is held where it is in order and fits (R316, R355). -/
theorem HeardNew.window {s : State} {m : SyncMsg} (h : HeardNew s m) (on : s.card.phase = .mounted)
    (notPast : treadNotPast m.tread s.card.treads.c = true) (near : treadAhead m.tread s.card.treads.c ≤ 2 ^ 24)
    {quiet : Bool} {i : Instr} (is : (quiet = false ∧ i = .syncService m) ∨ (quiet = true ∧ i = .syncQuiet m))
    (short : quiet = true → m.arg.toNat < 2 ^ 24) : ∃ t, exec i s = .next t ∧
      (64 ≤ (syncWindow m quiet).duration → (quiet = true ∨ (syncWindow m quiet).kinds &&& 0x7F ≠ 0) →
        s.card.windowFits (syncWindow m quiet) = true → t.card.maint.held = s.card.maint.held ++ [syncWindow m quiet]) ∧
      ((syncWindow m quiet).duration < 64 ∨ (quiet = false ∧ (syncWindow m quiet).kinds &&& 0x7F = 0) ∨
        s.card.windowFits (syncWindow m quiet) = false → t.card.maint.held = s.card.maint.held) := by
  obtain ⟨type, row, set, check, limit⟩ : ∃ type, exec i s =
      run (fun c => c.syncRow type m (fun c => c.syncWindowMsg type m quiet)) s ∧ type ≠ syncTypeSet ∧
      type ≠ syncTypeCheck ∧ (type ≠ syncTypeQuiet ∨ m.arg.toNat < 2 ^ 24) := by
    rcases is with ⟨rfl, rfl⟩ | ⟨rfl, rfl⟩
    · exact ⟨syncTypeService, rfl, by decide, by decide, .inl (by decide)⟩
    · exact ⟨syncTypeQuiet, rfl, by decide, by decide, .inr (short rfl)⟩
  obtain ⟨t, d, b, next, ⟨b', ended⟩, -, -, at'⟩ := h.row type (fun c => c.syncWindowMsg type m quiet) set check limit
  obtain ⟨holds, drops⟩ := d.syncWindowMsg_ahead type quiet (by rw [at']; exact on) (by rw [at']; exact notPast)
    (by rw [at']; exact near)
  have room : d.windowFits (syncWindow m quiet) = s.card.windowFits (syncWindow m quiet) := by rw [at']; rfl
  have before : d.maint = s.card.maint := by rw [at']
  refine ⟨t, row.trans next, fun long granted fits => ?_, fun bad => ?_⟩
  · rw [ended, holds long granted (room.trans fits)]
    dsimp only [Card.holdWindow]
    rw [before]
  · obtain ⟨b₁, dropped⟩ := (d.dropSync_counts dropWindow type m.seq).1
    rw [ended, drops (bad.imp_right (Or.imp_right room.trans)), dropped]
    dsimp only
    rw [before]

/-- A MARK in time is held, unless eight are (R357). -/
theorem HeardNew.mark {s : State} {m : SyncMsg} (h : HeardNew s m) (on : s.card.phase = .mounted)
    (notPast : treadNotPast m.tread s.card.treads.c = true) (near : treadAhead m.tread s.card.treads.c ≤ 2 ^ 24) :
    ∃ t, exec (.syncMark m) s = .next t ∧ t.card.flights.marks =
      if s.card.flights.marks.length < 8 then s.card.flights.marks ++ [{ seq := m.seq, tread := m.tread, value := m.arg }]
      else s.card.flights.marks := by
  obtain ⟨t, d, b, next, ⟨b', ended⟩, -, -, at'⟩ := h.row syncTypeMark (fun c => c.syncMark m) (by decide) (by decide)
    (.inl (by decide))
  have held : d.syncMark m = d.syncMarkNow m := d.schedule_ahead syncTypeMark 0 (fun c => c.syncMarkNow m)
    (by rw [at']; exact on) (by rw [at']; exact notPast) (by rw [at']; exact near)
  have before : d.flights = s.card.flights := by rw [at']
  refine ⟨t, next, ?_⟩
  rw [ended, held]
  dsimp only
  by_cases room : s.card.flights.marks.length < 8
  · have room' : d.flights.marks.length < Config.heldMarks := by rw [before]; exact room
    unfold Card.syncMarkNow
    rw [if_pos room, if_pos room', before]
  · have full : ¬ d.flights.marks.length < Config.heldMarks := by rw [before]; exact room
    obtain ⟨b₁, dropped⟩ := (d.dropSync_counts dropNinth syncTypeMark m.seq).1
    unfold Card.syncMarkNow
    rw [if_neg room, if_neg full, dropped]
    exact congrArg Flights.marks before

/-- A LAND late by at most 1,024 treads executes at once (R317, R364). -/
theorem HeardNew.late {s : State} {m : SyncMsg} (h : HeardNew s m) (on : s.card.phase = .mounted)
    (past : treadNotPast m.tread s.card.treads.c = false) (near : treadAhead s.card.treads.c m.tread ≤ 1024)
    (free : s.card.actionBlocked = false) (ok : s.card.landingOk m.arg = true) (acts : s.card.flights.acts = []) :
    ∃ t a, exec (.syncLand m) s = .next t ∧ a ∈ t.card.flights.acts ∧ a.rollback = false ∧ a.flight = m.arg ∧
      a.late = treadAhead s.card.treads.c m.tread ∧ a.src = .sync m.seq ∧ a.closed = s.card.flights.openOrd ∧
      t.card.power.lnd = true := by
  obtain ⟨t, d, b, next, ⟨b', ended⟩, -, -, at'⟩ := h.row syncTypeLand (fun c => c.syncLand m) (by decide) (by decide)
    (.inl (by decide))
  have flights : d.flights = s.card.flights := by rw [at']
  have clock : d.treads.c = s.card.treads.c := by rw [at']
  have executed : d.syncLand m = d.lateLanding m.arg (treadAhead s.card.treads.c m.tread) (.sync m.seq) := by
    have scheduled := d.schedule_late syncTypeLand (late := Config.lateTreads) (fun c => c.syncLandNow m)
      (by rw [at']; exact on) (by rw [clock]; exact past) (by rw [clock]; exact near)
    refine scheduled.trans ?_
    have open' : d.actionBlocked = false := by rw [at']; exact free
    have numbered : d.landingOk m.arg = true := by rw [at']; exact ok
    simp [Card.syncLandNow, open', numbered, clock, past]
  obtain ⟨⟨a, only, begun⟩, lnd, -⟩ := d.executeLanding_begins m.arg (treadAhead s.card.treads.c m.tread) (.sync m.seq)
    (by rw [at']; exact on) (by rw [at']; exact h.hclk) (by rw [flights]; exact acts)
  simp only [Action.unstaged, Card.landingOf, Action.mk.injEq] at begun
  obtain ⟨back, flight, -, late, src, closed, -⟩ := begun
  refine ⟨t, a, next, ?_, back, flight, late, src, by rw [closed, flights], ?_⟩
  · rw [ended, executed]
    simp [Card.lateLanding, only]
  · rw [ended, executed]
    simp [Card.lateLanding, lnd]

/-- A repeat, and a message for another card, is counted (R353, R358). -/
theorem syncRow_ignored {s : State} {type : Byte} {m : SyncMsg} (act : Card → Card) (hears : s.card.hearsSync = true)
    (idle : s.card.treads.taking = none) (ok : syncFieldsOk type m = true)
    (old : s.card.treads.lastMsg = some (type, m) ∨ s.card.addressed m = false) :
    ∃ t, run (fun c => c.syncRow type m act) s = .next t ∧
      t.card.treads = { s.card.treads with lastMsg := some (type, m), rx := .rest } ∧ t.card.flights = s.card.flights ∧
      t.card.maint = s.card.maint ∧ t.card.out = s.card.out ∧ t.card.count 12 = (s.card.count 12 + 1) % 2 ^ 32 := by
  obtain ⟨d, b, set, at', counted⟩ : ∃ d b, s.card.syncRow type m act = d.bump 12 1 ∧
      d = { s.card with treads := { s.card.treads with rx := .rest, lastMsg := some (type, m) }, bal := b } ∧
      d.count 12 = s.card.count 12 := by
    by_cases again : s.card.treads.lastMsg = some (type, m)
    · refine ⟨_, s.card.bal, Card.syncRow_repeat hears idle ok again, ?_, rfl⟩
      rw [← again]
    · obtain ⟨d, ⟨b, at', -, counts⟩, set⟩ := Card.syncRow_new (act := act) hears idle ok again
      rw [if_neg (by rw [old.resolve_left again]; decide)] at set
      exact ⟨d, b, set, at', (counts 12 (by decide) (by decide)).trans (Card.count_of_bal rfl 12)⟩
  obtain ⟨t, next, ⟨b', ended⟩, counts⟩ := run_counts (fun c => c.syncRow type m act) s
  refine ⟨t, next, ?_, ?_, ?_, ?_, ?_⟩
  · rw [ended, set, Card.bump_treads, at']
  · rw [ended, set, at']
    rfl
  · rw [ended, set, at']
    rfl
  · rw [ended, set, at']
    rfl
  · rw [counts 12 (by decide), set, Card.count_bump_same _ _ (by decide), counted]

/-- Settles O47: each message's row in its case. -/
theorem syncEffects : Obligations.SyncEffects := by
  unfold Obligations.SyncEffects
  refine ⟨fun s m hears idle mine kind group new => ?_, fun s hears idle m type i is ok old => ?_⟩
  · have h : HeardNew s m := ⟨hears, idle, mine, kind, group, new⟩
    exact ⟨fun off i is => h.dropped off is, fun on notPast near => ⟨fun free blocked =>
      ⟨fun ok => h.land on notPast near (Card.actionBlocked_false free blocked) ok,
        fun ok => h.rollback on notPast near (Card.actionBlocked_false free blocked) ok⟩,
      fun _ _ is short => h.window on notPast near is short, h.mark on notPast near⟩,
      fun on past near free blocked ok acts => h.late on past near (Card.actionBlocked_false free blocked) ok acts⟩
  · rcases is with ⟨rfl, rfl⟩ | ⟨rfl, rfl⟩ | ⟨rfl, rfl⟩ | ⟨rfl, rfl⟩ | ⟨rfl, rfl⟩ | ⟨rfl, rfl⟩ | ⟨rfl, rfl⟩ <;>
      exact syncRow_ignored _ hears idle ok old

end Sys2Proof.Machine

/-! Low counters (BC-00 to BC-14) while positions are taken and work is dropped: what is counted there is the descriptors of
each hall, by BC-16 and on. -/

namespace Sys2Proof.Machine

open Sys2Proof

/-- The counters BC-00 to BC-14. -/
def lowCounts (m : KV Nat) : List Nat := (List.range 15).map (fun n => KV.getD m n 0)

theorem Card.count_of_low {c d : Card} (h : lowCounts d.bal.counts = lowCounts c.bal.counts) {n : Nat} (low : n < 15) :
    d.count n = c.count n := List.map_inj_left.mp h n (List.mem_range.mpr low)

theorem lowCounts_put (m : KV Nat) {n : Nat} (v : Nat) (high : 15 ≤ n) : lowCounts (KV.put m n v) = lowCounts m := by
  refine List.map_congr_left fun j mem => ?_
  have low := List.mem_range.mp mem
  have other : j ≠ n := by omega
  simp only [KV.getD, KV.find_put_other m v other]

theorem Card.bump_low (c : Card) {n : Nat} (k : Nat) (high : 15 ≤ n) :
    lowCounts (c.bump n k).bal.counts = lowCounts c.bal.counts := lowCounts_put _ _ high

theorem lowCounts_foldl {α : Type} {f : Card → α → Card} (h : ∀ c x, lowCounts (f c x).bal.counts = lowCounts c.bal.counts)
    (l : List α) (c : Card) : lowCounts (l.foldl f c).bal.counts = lowCounts c.bal.counts :=
  foldl_same (fun c : Card => lowCounts c.bal.counts) f h l c

@[simp] theorem Card.ev_low (c : Card) (n : Nat) (bs : List Byte) :
    lowCounts (c.ev n bs).bal.counts = lowCounts c.bal.counts := by
  unfold Card.ev
  dsimp only
  (repeat' split) <;> simp

@[simp] theorem Card.putTag_low (c : Card) (t : Tag) (e : TagEntry) :
    lowCounts (c.putTag t e).bal.counts = lowCounts c.bal.counts := rfl

@[simp] theorem Card.setDie_low (c : Card) (n : Nat) (v : Die) :
    lowCounts (c.setDie n v).bal.counts = lowCounts c.bal.counts := rfl

@[simp] theorem Card.traceCode_low (c : Card) (n kind : Nat) (code : DescCode) (blk page : Nat) :
    lowCounts (c.traceCode n kind code blk page).bal.counts = lowCounts c.bal.counts := by
  unfold Card.traceCode
  (repeat' split) <;> simp

@[simp] theorem Card.countDesc_low (c : Card) (d : Desc) :
    lowCounts (c.countDesc d).bal.counts = lowCounts c.bal.counts := by
  unfold Card.countDesc
  split
  · exact Card.bump_low _ _ (by omega)
  · exact Card.bump_low _ _ (by omega)
  · rfl

@[simp] theorem Card.complete_low (c : Card) (d : Desc) (code : DescCode) :
    lowCounts (c.complete d code).bal.counts = lowCounts c.bal.counts := by
  simp [Card.complete]

@[simp] theorem Card.setStage_low (c : Card) (n : Nat) (s : EraseStage) :
    lowCounts (c.setStage n s).bal.counts = lowCounts c.bal.counts := by
  unfold Card.setStage
  dsimp only
  (repeat' split) <;> simp

@[simp] theorem Card.keepDescs_low (c : Card) (p : Desc → Bool) :
    lowCounts (c.keepDescs p).bal.counts = lowCounts c.bal.counts := by
  unfold Card.keepDescs
  exact lowCounts_foldl (fun c d => c.complete_low d .aborted) _ _

@[simp] theorem Card.setWing_low (c : Card) (w : Nat) (v : Wing) :
    lowCounts (c.setWing w v).bal.counts = lowCounts c.bal.counts := rfl

@[simp] theorem Card.newPass_low (c : Card) :
    lowCounts c.newPass.bal.counts = lowCounts c.bal.counts := by
  unfold Card.newPass
  dsimp only
  simp

@[simp] theorem Card.passOver_low (c : Card) :
    lowCounts c.passOver.bal.counts = lowCounts c.bal.counts := by
  unfold Card.passOver
  simp

@[simp] theorem Card.awaitErase_low (c : Card) (w : Nat) :
    lowCounts (c.awaitErase w).bal.counts = lowCounts c.bal.counts := by
  unfold Card.awaitErase
  dsimp only
  (repeat' split) <;> simp

@[simp] theorem Card.setCmd_low (c : Card) (t : Tag) (k : Cmd) :
    lowCounts (c.setCmd t k).bal.counts = lowCounts c.bal.counts := by
  unfold Card.setCmd
  (repeat' split) <;> simp

@[simp] theorem Card.inlineErased_low (c : Card) (w : Nat) (o : EraseOwner) :
    lowCounts (c.inlineErased w o).bal.counts = lowCounts c.bal.counts := by
  unfold Card.inlineErased
  (repeat' split) <;> simp

@[simp] theorem Card.cutErase_low (c : Card) (w : Nat) (hs : List Nat) :
    lowCounts (c.cutErase w hs).bal.counts = lowCounts c.bal.counts := by
  unfold Card.cutErase
  dsimp only
  (repeat' split) <;> simp [lowCounts_foldl]

@[simp] theorem Card.setQueue_low (c : Card) (h : Nat) (q : List Desc) :
    lowCounts (c.setQueue h q).bal.counts = lowCounts c.bal.counts := rfl

@[simp] theorem Card.startDesc_low (c : Card) (n : Nat) (d : Desc) :
    lowCounts (c.startDesc n d).bal.counts = lowCounts c.bal.counts := by
  unfold Card.startDesc
  dsimp only
  (repeat' split) <;> simp

@[simp] theorem Card.issue_low (c : Card) (d : Desc) :
    lowCounts (c.issue d).bal.counts = lowCounts c.bal.counts := by
  unfold Card.issue
  dsimp only
  (repeat' split) <;> simp

@[simp] theorem Card.pumpOne_low (c : Card) (n : Nat) :
    lowCounts (c.pumpOne n).bal.counts = lowCounts c.bal.counts := by
  unfold Card.pumpOne
  dsimp only
  (repeat' split) <;> simp

@[simp] theorem Card.pump_low (c : Card) (n : Nat) :
    lowCounts (c.pump n).bal.counts = lowCounts c.bal.counts := by
  unfold Card.pump
  simp

@[simp] theorem Card.noteIssued_low (c : Card) (a : Action) (k cycles : Nat) :
    lowCounts (c.noteIssued a k cycles).bal.counts = lowCounts c.bal.counts := by
  unfold Card.noteIssued
  dsimp only
  (repeat' split) <;> simp

@[simp] theorem Card.noteActs_low (c : Card) :
    lowCounts c.noteActs.bal.counts = lowCounts c.bal.counts := by
  unfold Card.noteActs
  exact lowCounts_foldl (fun c a => by (repeat' split) <;> simp) _ _

@[simp] theorem Card.release_low (c : Card) (ks : List Nat) :
    lowCounts (c.release ks).bal.counts = lowCounts c.bal.counts := rfl

@[simp] theorem Card.setBack_low (c : Card) (h : Nat) (q : List Desc) :
    lowCounts (c.setBack h q).bal.counts = lowCounts c.bal.counts := rfl

@[simp] theorem Card.enqueue_low (c : Card) (d : Desc) :
    lowCounts (c.enqueue d).bal.counts = lowCounts c.bal.counts := by
  unfold Card.enqueue
  dsimp only
  (repeat' split) <;> simp

@[simp] theorem Card.issueProgram_low (c : Card) (k : Nat) :
    lowCounts (c.issueProgram k).bal.counts = lowCounts c.bal.counts := by
  unfold Card.issueProgram
  dsimp only
  (repeat' split) <;> simp

@[simp] theorem Card.crossMark_low (c : Card) (old new mark code : Nat) :
    lowCounts (c.crossMark old new mark code).bal.counts = lowCounts c.bal.counts := by
  unfold Card.crossMark
  (repeat' split) <;> simp

@[simp] theorem Card.evalMarks_low (c : Card) :
    lowCounts c.evalMarks.bal.counts = lowCounts c.bal.counts := by
  unfold Card.evalMarks
  dsimp only
  simp

@[simp] theorem Card.setOpen_low (c : Card) (o : OpenWing) :
    lowCounts (c.setOpen o).bal.counts = lowCounts c.bal.counts := rfl

@[simp] theorem Card.lodge_low (c : Card) (o : OpenWing) (g : Gallery) (b : Bay) :
    lowCounts (c.lodge o g b).bal.counts = lowCounts c.bal.counts := by
  unfold Card.lodge
  dsimp only
  (repeat' split) <;> simp

@[simp] theorem Card.takeHall_low (c : Card) (o : OpenWing) (g : Gallery) (h : Nat) (b : Bay) :
    lowCounts (c.takeHall o g h b).bal.counts = lowCounts c.bal.counts := by
  unfold Card.takeHall
  dsimp only
  simp

@[simp] theorem Card.assignIn_low (c : Card) (w : Nat) (b : Bay) :
    lowCounts (c.assignIn w b).1.bal.counts = lowCounts c.bal.counts := by
  unfold Card.assignIn
  (repeat' split) <;> simp

@[simp] theorem Card.stampBay_low (c : Card) (b : Bay) :
    lowCounts (c.stampBay b).1.bal.counts = lowCounts c.bal.counts := rfl

@[simp] theorem Card.openWing_low (c : Card) (w : Nat) (move : Bool) :
    lowCounts (c.openWing w move).bal.counts = lowCounts c.bal.counts := by
  unfold Card.openWing
  dsimp only
  simp

@[simp] theorem Card.ensureOpen_low (c : Card) (user : Bool) :
    lowCounts (c.ensureOpen user).bal.counts = lowCounts c.bal.counts := by
  unfold Card.ensureOpen
  (repeat' split) <;> simp

@[simp] theorem Card.putJob_low (c : Card) (id : Nat) (j : ReadJob) :
    lowCounts (c.putJob id j).bal.counts = lowCounts c.bal.counts := rfl

@[simp] theorem Card.newId_low (c : Card) :
    lowCounts c.newId.1.bal.counts = lowCounts c.bal.counts := rfl

@[simp] theorem Card.startKid_low (c : Card) (parent : Nat) (mask : BitVec 16) (k : Nat) :
    lowCounts (c.startKid parent mask k).bal.counts = lowCounts c.bal.counts := by
  unfold Card.startKid
  dsimp only
  simp

@[simp] theorem Card.markRefresh_low (c : Card) (w trigger : Nat) :
    lowCounts (c.markRefresh w trigger).bal.counts = lowCounts c.bal.counts := by
  unfold Card.markRefresh
  dsimp only
  split
  · rfl
  · rw [Card.ev_low, Card.bump_low _ _ (by decide)]
    rfl

@[simp] theorem Card.markRead_low (c : Card) (j : ReadJob) :
    lowCounts (c.markRead j).bal.counts = lowCounts c.bal.counts := by
  unfold Card.markRead
  (repeat' split) <;> simp

@[simp] theorem Card.traceStep_low (c : Card) (j : ReadJob) (step : Nat) :
    lowCounts (c.traceStep j step).bal.counts = lowCounts c.bal.counts := by
  unfold Card.traceStep
  simp

@[simp] theorem Card.startRebuild_low (c : Card) (id : Nat) (j : ReadJob) :
    lowCounts (c.startRebuild id j).bal.counts = lowCounts c.bal.counts := by
  unfold Card.startRebuild
  dsimp only
  have counted : lowCounts ((c.bump 58 1).markRead j).bal.counts = lowCounts c.bal.counts :=
    (Card.markRead_low _ _).trans (c.bump_low 1 (by decide))
  split
  · rw [Card.putJob_low, Card.traceStep_low, counted]
  · rw [lowCounts_foldl (fun c k => c.startKid_low _ _ _), Card.putJob_low, counted]

@[simp] theorem Card.startJob_low (c : Card) (k : Nat) (p : Purpose) (strict : Bool) :
    lowCounts (c.startJob k p strict).bal.counts = lowCounts c.bal.counts := by
  unfold Card.startJob
  dsimp only
  (repeat' split) <;> simp

@[simp] theorem Card.addOwn_low (c : Card) (w : Nat) (g : Gallery) (h : Nat) (kind : BayKind) (body : Body) :
    lowCounts (c.addOwn w g h kind body).bal.counts = lowCounts c.bal.counts := by
  unfold Card.addOwn
  dsimp only
  (repeat' split) <;> simp

@[simp] theorem Card.closeWing_low (c : Card) (w : Nat) :
    lowCounts (c.closeWing w).bal.counts = lowCounts c.bal.counts := by
  unfold Card.closeWing
  dsimp only
  (repeat' split) <;> simp

@[simp] theorem Card.startGallery_low (c : Card) (w : Nat) (g : Gallery) :
    lowCounts (c.startGallery w g).bal.counts = lowCounts c.bal.counts := by
  unfold Card.startGallery
  rw [Card.noteActs_low]
  exact lowCounts_foldl (fun c h => c.issueProgram_low _) _ _

@[simp] theorem Card.leaveGallery_low (c : Card) (w : Nat) :
    lowCounts (c.leaveGallery w).bal.counts = lowCounts c.bal.counts := by
  unfold Card.leaveGallery
  dsimp only
  (repeat' split) <;> simp

@[simp] theorem Card.leaveBare_low (c : Card) (w cause : Nat) :
    lowCounts (c.leaveBare w cause).bal.counts = lowCounts c.bal.counts := by
  unfold Card.leaveBare
  dsimp only
  (repeat' split) <;> simp

@[simp] theorem Card.tryParity_low (c : Card) (w : Nat) :
    lowCounts (c.tryParity w).bal.counts = lowCounts c.bal.counts := by
  unfold Card.tryParity
  dsimp only
  (repeat' split) <;> simp

@[simp] theorem Card.fillGallery_low (c : Card) (w n : Nat) :
    lowCounts (c.fillGallery w n).bal.counts = lowCounts c.bal.counts := by
  unfold Card.fillGallery
  exact lowCounts_foldl (fun c h => by (repeat' split) <;> simp) _ _

@[simp] theorem Card.fillTo_low (c : Card) (w n : Nat) :
    lowCounts (c.fillTo w n).bal.counts = lowCounts c.bal.counts := by
  unfold Card.fillTo
  dsimp only
  split
  · rfl
  · rw [Card.tryParity_low]
    exact lowCounts_foldl (fun c g => c.fillGallery_low w _) _ _

@[simp] theorem Card.continueWing_low (c : Card) (w : Nat) :
    lowCounts (c.continueWing w).bal.counts = lowCounts c.bal.counts := by
  unfold Card.continueWing Card.fillWing
  dsimp only
  (repeat' split) <;> simp [lowCounts_foldl]

@[simp] theorem Card.prepare_low (c : Card) (user : Bool) (n : Nat) :
    lowCounts (c.prepare user n).bal.counts = lowCounts c.bal.counts := by
  induction n generalizing c with
  | zero => rfl
  | succ k ih =>
    unfold Card.prepare
    dsimp only
    (repeat' split) <;> simp [ih]

@[simp] theorem Card.keepJobs_low (c : Card) (p : Nat × ReadJob → Bool) :
    lowCounts (c.keepJobs p).bal.counts = lowCounts c.bal.counts := by
  unfold Card.keepJobs
  exact Card.keepDescs_low _ _

@[simp] theorem Card.endMoves_low (c : Card) (p : MoveWhy → Bool) :
    lowCounts (c.endMoves p).bal.counts = lowCounts c.bal.counts := by
  unfold Card.endMoves
  exact Card.keepJobs_low _ _

@[simp] theorem Card.untake_low (c : Card) (k : Nat) :
    lowCounts (c.untake k).bal.counts = lowCounts c.bal.counts := by
  unfold Card.untake
  exact Card.keepDescs_low _ _

@[simp] theorem Card.sweep_low (c : Card) :
    lowCounts c.sweep.bal.counts = lowCounts c.bal.counts := by
  unfold Card.sweep
  exact lowCounts_foldl (fun c x => c.untake_low _) _ _

@[simp] theorem Card.endErases_low (c : Card) (o : EraseOwner) :
    lowCounts (c.endErases o).bal.counts = lowCounts c.bal.counts := by
  unfold Card.endErases
  exact lowCounts_foldl (fun c x => c.cutErase_low _ _) _ _

@[simp] theorem Card.dropWork_low (c : Card) (t : Tag) :
    lowCounts (c.dropWork t).bal.counts = lowCounts c.bal.counts := by
  unfold Card.dropWork
  simp

@[simp] theorem Card.respond_low (c : Card) (p : Port) (kind : BitVec 2) (code : BitVec 6) (st : Status) (info : BitVec 24) (z : Bool) :
    lowCounts (c.respond p kind code st info z).bal.counts = lowCounts c.bal.counts := by
  unfold Card.respond
  dsimp only
  (repeat' split) <;> simp

@[simp] theorem Card.draw_low (c : Card) (user : Bool) (kind : BayKind) (k : Nat) :
    lowCounts (c.draw user kind k).bal.counts = lowCounts c.bal.counts := by
  unfold Card.draw
  split <;> rfl

@[simp] theorem Card.place_low (c : Card) (user fresh : Bool) (b : Bay) :
    lowCounts (c.place user fresh b).1.bal.counts = lowCounts c.bal.counts := by
  have key (d : Card) (w : Nat) (b : Bay) (h : lowCounts d.bal.counts = lowCounts c.bal.counts) :
      lowCounts (match ({ d with media := { d.media with lastWing := some w } } : Card).assignIn w b with
        | (c, some k) => (c.draw user b.kind k, some k)
        | (c, none) => ((c, none) : Card × Option Nat)).1.bal.counts = lowCounts c.bal.counts := by
    have taken : lowCounts (({ d with media := { d.media with lastWing := some w } } : Card).assignIn w b).1.bal.counts =
        lowCounts c.bal.counts := (Card.assignIn_low _ w b).trans h
    split
    · next e =>
      rw [e] at taken
      exact (Card.draw_low _ _ _ _).trans taken
    · next e =>
      rw [e] at taken
      exact taken
  have ready := c.prepare_low user 4
  unfold Card.place
  dsimp only
  split
  · rfl
  · split
    · exact ready
    · cases fresh
      · exact key _ _ _ ready
      · exact key _ _ _ ready

@[simp] theorem Card.placeMark_low (c : Card) (x : HeldMark × Nat) :
    lowCounts (c.placeMark x).bal.counts = lowCounts c.bal.counts := by
  have same := c.place_low false true (newBay .mark 0 0 x.2 (.mark x.1.value x.1.tread))
  unfold Card.placeMark Card.placeNew
  split
  · next e =>
    rw [e] at same
    exact same
  · rfl

@[simp] theorem Card.placeDue_low (c : Card) : lowCounts c.placeDue.bal.counts = lowCounts c.bal.counts := by
  unfold Card.placeDue
  split
  · rfl
  · exact lowCounts_foldl Card.placeMark_low _ _

/-- With no action in progress taking actions further counts nothing there. -/
theorem Card.stepActs_low {c : Card} (idle : c.flights.acts = []) :
    lowCounts c.stepActs.bal.counts = lowCounts c.bal.counts := by
  unfold Card.stepActs
  dsimp only
  rw [c.placeDue_ports.2 idle]
  exact c.placeDue_low

@[simp] theorem Card.notice_low (c : Card) (code : BitVec 6) (info : BitVec 24) :
    lowCounts (c.notice code info).bal.counts = lowCounts c.bal.counts := by
  simp [Card.notice]

@[simp] theorem Card.sendFinal_low (c : Card) (p : Port) (t : Tag) (st : Status) (info : BitVec 24) (z : Bool) :
    lowCounts (c.sendFinal p t st info z).bal.counts = lowCounts c.bal.counts := by
  unfold Card.sendFinal Card.traceFinal
  dsimp only
  split
  · rw [Card.ev_low, Card.bump_low _ _ (by decide), Card.respond_low]
  · rw [Card.ev_low, Card.respond_low]

@[simp] theorem Card.finish_low (c : Card) (t : Tag) (st : Status) (info : BitVec 24) (z : Bool) :
    lowCounts (c.finish t st info z).bal.counts = lowCounts c.bal.counts := by
  unfold Card.finish
  (repeat' split) <;> simp

end Sys2Proof.Machine

/-! Where a bay placed stands, and the landings and rollbacks (R318, R357, R365 to R395, R430). -/

namespace Sys2Proof.Machine

open Sys2Proof

/-! A bay that has taken a position has its image there (R427, R430). -/

theorem Card.setBack_hallsOnly (c : Card) (h : Nat) (q : List Desc) : HallsOnly c (c.setBack h q) := ⟨_, _, rfl⟩

theorem Card.enqueue_hallsOnly (c : Card) (d : Desc) : HallsOnly c (c.enqueue d) := by
  unfold Card.enqueue
  dsimp only
  split
  · exact (c.setQueue_hallsOnly _ _).trans (Card.pump_hallsOnly _ _)
  · exact c.setBack_hallsOnly _ _

theorem HallsOnly.media {c d : Card} (h : HallsOnly c d) : d.media = c.media := by
  obtain ⟨_, _, rfl⟩ := h
  rfl

theorem Card.evalMarks_media (c : Card) : c.evalMarks.media = c.media := by
  have cross (d : Card) (old new mark code : Nat) : (d.crossMark old new mark code).media = d.media := by
    unfold Card.crossMark
    (repeat' split) <;> simp
  unfold Card.evalMarks
  dsimp only
  rw [cross, cross, cross]

/-- The image of the bay `b` at the position `k`: as it was given but for what taking a position stamps (R413, R415, R427). -/
def Bay.stands (b : Bay) (vest : KV Bay) (k : Nat) : Prop :=
  ∃ x, KV.find vest k = some x ∧ x.kind = b.kind ∧ x.addr = b.addr ∧ x.mask = b.mask ∧ x.ord = b.ord ∧ x.reloc = b.reloc ∧
    x.body = b.body ∧ x.key = k

theorem Bay.stands_congr {a b : Bay} {v : KV Bay} {k : Nat} (kind : a.kind = b.kind) (addr : a.addr = b.addr)
    (mask : a.mask = b.mask) (ord : a.ord = b.ord) (reloc : a.reloc = b.reloc) (body : a.body = b.body) (h : a.stands v k) :
    b.stands v k := by
  obtain ⟨x, find, h⟩ := h
  exact ⟨x, find, by rw [← kind, ← addr, ← mask, ← ord, ← reloc, ← body]; exact h⟩

theorem Card.issueProgram_stands {c : Card} {b : Bay} {k : Nat} (j : Nat) (h : b.stands c.media.vest k) :
    b.stands (c.issueProgram j).media.vest k := by
  unfold Card.issueProgram
  split
  · exact h
  · dsimp only
    rw [(Card.enqueue_hallsOnly _ _).media]
    split
    · next y at' =>
      by_cases same : k = j
      · subst same
        obtain ⟨x, find, kind, h⟩ := h
        obtain rfl : x = y := Option.some.inj (find.symm.trans at')
        exact ⟨_, KV.find_put_same _ _ _, kind, h⟩
      · obtain ⟨x, find, h⟩ := h
        exact ⟨x, (KV.find_put_other _ _ same).trans find, h⟩
    · exact h

theorem Card.lodge_stands (c : Card) (o : OpenWing) (g : Gallery) (b : Bay) : b.stands (c.lodge o g b).media.vest b.key := by
  have there : b.stands ({ c with media := { c.media with vest := KV.put c.media.vest b.key b } } : Card).evalMarks.media.vest
      b.key := by
    rw [Card.evalMarks_media]
    exact ⟨b, KV.find_put_same _ _ _, rfl, rfl, rfl, rfl, rfl, rfl, rfl⟩
  unfold Card.lodge
  dsimp only
  split
  · split
    · exact Card.issueProgram_stands _ there
    · exact there
  · exact there

theorem Card.openOf_wing {c : Card} {w : Nat} {o : OpenWing} (h : c.openOf w = some o) : o.wing = w := by
  have found := List.find?_some (p := fun o : OpenWing => o.wing == w) h
  exact beq_iff_eq.mp found

theorem Card.nextGallery_wing {c : Card} {o p : OpenWing} {g : Gallery} (h : c.nextGallery o = some (p, g)) :
    p.wing = o.wing := by
  unfold Card.nextGallery at h
  dsimp only at h
  split at h
  · cases h
  · split at h
    · obtain ⟨rfl, -⟩ := Prod.mk.inj (Option.some.inj h)
      rfl
    · split at h
      · split at h
        · obtain ⟨rfl, -⟩ := Prod.mk.inj (Option.some.inj h)
          rfl
        · cases h
      · cases h

theorem Card.assignIn_stands {c d : Card} {w k : Nat} {b : Bay} (h : c.assignIn w b = (d, some k)) :
    b.stands d.media.vest k := by
  unfold Card.assignIn at h
  split at h
  · cases h
  · next o opened =>
    split at h
    · cases h
    · next p g next =>
      split at h
      · cases h
      · next hall rest room =>
        obtain ⟨rfl, at'⟩ := Prod.mk.inj h
        obtain rfl := Option.some.inj at'
        have wing : p.wing = w := (Card.nextGallery_wing next).trans (Card.openOf_wing opened)
        have put := (((c.setOpen p).setOpen (p.setGal { g with taken := g.taken ++ [hall] })).lodge_stands
          (p.setGal { g with taken := g.taken ++ [hall] }) { g with taken := g.taken ++ [hall] }
          { b with key := posKey p.wing g.g hall })
        rw [← wing]
        exact Bay.stands_congr rfl rfl rfl rfl rfl rfl put

/-- A bay placed stands in the vestibule at the position it has taken. -/
theorem Card.place_stands {c d : Card} {user fresh : Bool} {b : Bay} {k : Nat} (h : c.place user fresh b = (d, some k)) :
    b.stands d.media.vest k := by
  have key (c : Card) (x : Bay) (w : Nat) (stamped : ∀ v j, x.stands v j → b.stands v j)
      (h : (match ({ c with media := { c.media with lastWing := some w } } : Card).assignIn w x with
        | (c, some k) => (c.draw user x.kind k, some k)
        | (c, none) => ((c, none) : Card × Option Nat)) = (d, some k)) : b.stands d.media.vest k := by
    split at h
    · next e j taken =>
      obtain ⟨rfl, at'⟩ := Prod.mk.inj h
      obtain rfl := Option.some.inj at'
      have drawn : (e.draw user x.kind j).media.vest = e.media.vest := by
        unfold Card.draw
        split <;> rfl
      rw [drawn]
      exact stamped _ _ (Card.assignIn_stands taken)
    · cases h
  unfold Card.place at h
  dsimp only at h
  split at h
  · cases h
  · split at h
    · cases h
    · next w _ =>
      cases fresh
      · exact key (c.prepare user 4) b w (fun _ _ => id) h
      · exact key ((c.prepare user 4).stampBay b).1 ((c.prepare user 4).stampBay b).2 w
          (fun _ _ => Bay.stands_congr rfl rfl rfl rfl rfl rfl) h

/-! An ended action leaves what a notice's flags follow (R251, R381, R395). -/

theorem Card.freeErased_congr {c d : Card} (wings : d.media.wings = c.media.wings) (classes : d.media.rowClass = c.media.rowClass)
    (alcove : d.alcove = c.alcove) : d.freeErased = c.freeErased := by
  have lost : d.lostHalls = c.lostHalls := by simp only [Card.lostHalls, alcove]
  have withdrawn : d.isWithdrawn = c.isWithdrawn := by
    funext w
    have missing : d.missingOf w = c.missingOf w := by simp only [Card.missingOf, lost]
    unfold Card.isWithdrawn
    rw [missing]
  simp only [Card.freeErased, Card.countWings, Card.withdrawnWings, Card.wing, wings, classes, lost, withdrawn]

theorem Card.untake_wings (c : Card) (k : Nat) : (c.untake k).media.wings = c.media.wings ∧
    (c.untake k).media.rowClass = c.media.rowClass := by
  have media := (c.keepDescs_hallsOnly (fun d => d != .program k)).media
  unfold Card.untake
  dsimp only
  rw [media]
  exact ⟨rfl, rfl⟩

theorem Card.sweep_wings (c : Card) : c.sweep.media.wings = c.media.wings ∧ c.sweep.media.rowClass = c.media.rowClass := by
  have both := foldl_same (fun c : Card => (c.media.wings, c.media.rowClass)) (fun (c : Card) (x : Nat × Bay) => c.untake x.1)
    (fun c x => Prod.ext (c.untake_wings x.1).1 (c.untake_wings x.1).2)
    (c.media.vest.filter (fun x => !c.owned x.1 x.2 && (c.awaitsHome x.1 || !c.begun x.1))) c
  exact Prod.mk.inj both

/-- A failed action's flags are the card's (R251). -/
theorem Card.failAct_flags (c : Card) (a : Action) (z : Bool) : (c.failAct a).flags z = c.flags z := by
  have free : (c.failAct a).freeErased = c.freeErased := by
    refine Card.freeErased_congr ?_ ?_ (by simp [Card.failAct])
    · exact (Card.sweep_wings _).1.trans (by simp)
    · exact (Card.sweep_wings _).2.trans (by simp)
  exact Card.flags_congr (by simp [Card.failAct]) (by simp [Card.failAct, Card.removeAct]) (by simp [Card.failAct])
    (by simp [Card.failAct]) (by simp [Card.failAct]) (by simp [Card.failAct]) free z

/-! Landings (R365, R366, R371, R379 to R381). -/

/-- A held LAND whose numbering fails is answered or dropped; the rest of the flights stays (R318). -/
theorem Card.staleAct_frame (c : Card) (src : ActSrc) (rollback : Bool) :
    (c.staleAct src rollback).phase = c.phase ∧ (c.staleAct src rollback).power = c.power ∧
    (c.staleAct src rollback).flights = c.flights := by
  unfold Card.staleAct Card.dropSync
  split <;> simp

theorem landingExecute_begins {s : State} {h : Held} (mounted : s.card.phase = .mounted) (hclk : s.card.power.hclk = true)
    (held : s.card.flights.held = some h) (land : h.rollback = false) (at' : h.tread = s.card.treads.c)
    (first : s.card.firstOfTread = true) (idle : s.card.flights.acts = []) : ∃ t, exec .landingExecute s = .next t ∧
      t.card.flights.held = none ∧
      (s.card.unhold.landingOk h.flight = true → t.card.power.lnd = true ∧
        t.card.flights.openOrd = s.card.flights.nextOrd ∧ ∃ a, a ∈ t.card.flights.acts ∧ a.rollback = false ∧
          a.flight = h.flight ∧ a.exec = s.card.treads.c ∧ a.late = 0 ∧ a.src = h.src ∧
          a.closed = s.card.flights.openOrd ∧ a.opened = s.card.flights.nextOrd) ∧
      (s.card.unhold.landingOk h.flight = false → t.card.flights.acts = [] ∧ t.card.power.lnd = false ∧
        ∀ g e k, h.src = .cmd g → s.card.tagEntry g = some e → e.state = .outstanding k → t.card.tagEntry g =
          some { e with state := .completed stFlightStale (s.card.lastFlight.setWidth 24) }) := by
  have set : s.card.landingExecute = if s.card.unhold.landingOk h.flight then
      s.card.unhold.executeLanding h.flight 0 h.src else (s.card.unhold.staleAct h.src false).driveLnd := by
    simp only [Card.landingExecute, held, mounted, hclk, land, at', first]
    simp
  obtain ⟨t, next, b, ended⟩ := run_spec Card.landingExecute s
  rw [set] at ended
  by_cases ok : s.card.unhold.landingOk h.flight = true
  · rw [if_pos ok] at ended
    obtain ⟨⟨a, acts, begun⟩, lnd, opened, stays⟩ :=
      s.card.unhold.executeLanding_begins h.flight 0 h.src mounted hclk idle
    simp only [Action.unstaged, Card.landingOf, Action.mk.injEq] at begun
    obtain ⟨back, flight, exec, late, src, closed, open', -⟩ := begun
    exact ⟨t, next, by rw [ended]; exact stays, fun _ => ⟨by rw [ended]; exact lnd, by rw [ended]; exact opened, a,
      by rw [ended]; simp [acts], back, flight, exec, late, src, closed, open'⟩, fun no => by simp [ok] at no⟩
  · rw [if_neg ok] at ended
    obtain ⟨phase, power, flights⟩ := s.card.unhold.staleAct_frame h.src false
    have power' : (s.card.unhold.staleAct h.src false).power.hclk = true := by rw [power]; exact hclk
    have driven : (s.card.unhold.staleAct h.src false).driveLnd.flights = s.card.unhold.flights := by simp [flights]
    refine ⟨t, next, ?_, fun yes => absurd yes ok, fun _ => ⟨?_, ?_, fun g e k src entry out => ?_⟩⟩
    · rw [ended]
      exact congrArg Flights.held driven
    · rw [ended]
      exact (congrArg Flights.acts driven).trans idle
    · rw [ended]
      dsimp only
      rw [Card.driveLnd_lnd, if_pos power', flights]
      simp [Card.unhold, idle]
    · rw [ended, Card.tagEntry]
      dsimp only
      rw [(Card.driveLnd_frame _).2.2.2.2.1, src]
      exact s.card.unhold.finish_tagEntry g stFlightStale s.card.unhold.staleInfo false entry out

/-- An action whose bay has its position is that action still, its bay assigned or issued (R379 step 4). -/
theorem Card.lodgeAct_holds {c : Card} {a : Action} {k since : Nat} (there : ∃ x ∈ c.flights.acts, x.closed = a.closed) :
    (∃ x, x ∈ (c.lodgeAct a k since).flights.acts ∧ x.closed = a.closed ∧ x.flight = a.flight ∧
      x.stage = if c.programIssued k then .issued k else .assigned k) ∧ (c.lodgeAct a k since).media = c.media := by
  obtain ⟨y, mem, closed⟩ := there
  have set : ∃ x, x ∈ (c.setAct { a with bay := (KV.find c.media.vest k).map Bay.seq, stage := .assigned k }).flights.acts ∧
      x.closed = a.closed ∧ x.flight = a.flight ∧ x.stage = .assigned k :=
    ⟨_, List.mem_map.mpr ⟨y, mem, if_pos closed⟩, rfl, rfl, rfl⟩
  have issued : (c.setAct { a with bay := (KV.find c.media.vest k).map Bay.seq, stage := .assigned k }).programIssued k =
      c.programIssued k := rfl
  unfold Card.lodgeAct
  dsimp only
  rw [issued]
  by_cases now : c.programIssued k = true
  · rw [if_pos now, if_pos now]
    obtain ⟨x, mem', closed', flight, -⟩ := set
    have noted : ({ x with stage := .issued k } : Action) ∈ ((c.setAct { a with
        bay := (KV.find c.media.vest k).map Bay.seq, stage := .assigned k }).flights.acts.map fun x =>
        if x.closed = a.closed then { x with stage := .issued k } else x) :=
      List.mem_map.mpr ⟨x, mem', if_pos closed'⟩
    unfold Card.noteIssued
    dsimp only
    split
    · exact ⟨⟨_, noted, closed', flight, rfl⟩, rfl⟩
    · refine ⟨⟨{ x with stage := .issued k }, ?_, closed', flight, rfl⟩, by simp [Card.setAct]⟩
      simpa using noted
  · rw [if_neg now, if_neg now]
    exact ⟨set, rfl⟩

/-- Placing a bay leaves each action in its place. -/
theorem Card.acts_of_near {c d : Card} (h : d.near = c.near) :
    d.flights.acts.map Action.unstaged = c.flights.acts.map Action.unstaged :=
  congrArg (fun n : Near => n.flights.acts) h

theorem Card.mem_acts_of_near {c d : Card} (h : d.near = c.near) {a : Action} (mem : a ∈ c.flights.acts) :
    ∃ x ∈ d.flights.acts, x.closed = a.closed := by
  have there : a.unstaged ∈ d.flights.acts.map Action.unstaged := by
    rw [Card.acts_of_near h]
    exact List.mem_map_of_mem mem
  obtain ⟨x, mem', same⟩ := List.mem_map.mp there
  exact ⟨x, mem', Action.closed_of_unstaged same⟩

theorem landingBayIssue_issues {s : State} {a : Action} {r : List Action} {since : BitVec 24} {c : Card} {k : Nat}
    (acts : s.card.flights.acts = a :: r) (land : a.rollback = false) (may : s.card.mayIssue a = true)
    (inTime : since.toNat ≤ 281250)
    (placed : s.card.placeNew false (newBay .landing 0 0 a.closed (.landing (s.card.landingRec a))) = (c, some k)) :
    ∃ t, exec (.landingBayIssue since) s = .next t ∧
      (∃ x, x ∈ t.card.flights.acts ∧ x.closed = a.closed ∧ x.flight = a.flight ∧
        x.stage = if c.programIssued k then .issued k else .assigned k) ∧
      ∃ b, KV.find t.card.media.vest k = some b ∧ b.kind = .landing ∧ b.body = .landing (s.card.landingRec a) := by
  obtain ⟨t, next, b, ended⟩ := run_spec (fun c => c.issueLanding since.toNat) s
  have set : s.card.issueLanding since.toNat = c.lodgeAct a k since.toNat := by
    have inTime' : since.toNat ≤ Config.cutoffCycles := inTime
    simp only [Card.issueLanding, acts, land, may, placed]
    simp [inTime']
  have near := s.card.placeNew_near false (newBay .landing 0 0 a.closed (.landing (s.card.landingRec a)))
  rw [placed] at near
  obtain ⟨action, media⟩ := Card.lodgeAct_holds (k := k) (since := since.toNat)
    (Card.mem_acts_of_near near (a := a) (by simp [acts]))
  obtain ⟨x, find, kind, -, -, -, -, body, -⟩ := Card.place_stands placed
  refine ⟨t, next, ?_, x, ?_, kind, body⟩
  · rw [ended]
    dsimp only
    rw [set]
    exact action
  · rw [ended]
    dsimp only
    rw [set, media]
    exact find

/-- A failed landing or rollback in progress, the one there is, goes with its work (R381, R395). -/
theorem Card.failAct_only {c : Card} {a : Action} (only : c.flights.acts = [a]) :
    (c.failAct a).flights.acts = [] ∧ (c.failAct a).ports = c.ports ∧ (c.failAct a).out = c.out ∧
      (c.failAct a).power.dock = c.power.dock ∧ lowCounts (c.failAct a).bal.counts = lowCounts c.bal.counts ∧
      (c.flights.held = none → c.power.hclk = true → (c.failAct a).power.lnd = false) ∧ (c.failAct a).twin = c.twin ∧
      (c.failAct a).straps = c.straps := by
  have dock (d : Card) : d.driveLnd.power.dock = d.power.dock := by
    unfold Card.driveLnd
    (repeat' split) <;> rfl
  refine ⟨?_, ?_, ?_, ?_, ?_, fun held hclk => ?_, ?_, ?_⟩
  · simp [Card.failAct, Card.removeAct, only]
  · simp [Card.failAct]
  · simp [Card.failAct]
  · simp [Card.failAct, Card.removeAct, dock]
  · simp [Card.failAct]
  · simp [Card.failAct, Card.removeAct, Card.driveLnd_lnd, held, hclk, only]
  · simp [Card.failAct]
  · simp [Card.failAct]

/-- A card with no twin role, and no verdict it awaits, has nothing to do where a landing ends. -/
theorem Card.twinEnd_solo {c : Card} (f : Flight) (failed : Bool) (solo : c.straps.role = .solo) (none : c.twin.waits = []) :
    c.twinEnd f failed = c := by
  have same : ({ c with twin := { c.twin with waits := c.twin.waits.map (fun v =>
      if v.flight = f then { v with ended := true } else v) } } : Card) = c := by
    rw [none, List.map_nil, ← none]
  unfold Card.twinEnd
  dsimp only
  rw [same]
  unfold Card.sendBurst
  rw [if_pos (.inl solo)]
  unfold Card.judge
  rw [none]
  rfl

/-- The notice and the final response of an action that has failed, and what is left of it. -/
theorem Card.failAct_finish {c : Card} {a : Action} {g : Tag} {e : TagEntry} {k : Cmd} (code : BitVec 6) (info : BitVec 24)
    (st : Status) (answer : BitVec 24) (entry : c.tagEntry g = some e) (out : e.state = .outstanding k)
    (up : c.portUp e.port = true) (only : c.flights.acts = [a]) (d : Card)
    (at' : BalconyOnly ((c.failAct a).notice code info) d) : ∃ q, (d.finish g st answer false).out =
      .resp e.port q :: (c.noticeNow code info ++ c.out) ∧ q.kind = 0 ∧ q.code = g ∧ q.status = st ∧ q.info = answer ∧
      (d.finish g st answer false).tagEntry g = some { e with state := .completed st answer } ∧
      (d.finish g st answer false).flights.acts = [] := by
  obtain ⟨acts, ports, sent, dock, -⟩ := Card.failAct_only only
  obtain ⟨b, at'⟩ := at'
  have tags : d.tagEntry g = some e := by
    rw [← entry, at']
    simp only [Card.tagEntry, Card.notice_tags, ports]
  have told : ((c.failAct a).notice code info).out = c.noticeNow code info ++ c.out := by
    rw [Card.notice_out, sent, Card.noticeNow_congr code info dock (c.failAct_flags a false) (by rw [ports]) (by rw [ports])]
  have up' : d.portUp e.port = true := by
    have power : d.power.dock = c.power.dock := by rw [at', ← dock]; simp
    revert up
    unfold Card.portUp
    rw [power]
    exact id
  obtain ⟨b', final⟩ := d.sendFinal_eq g st answer false up'
  have before : d.out = c.noticeNow code info ++ c.out := by rw [← told, at']
  have response : (d.finish g st answer false).out = d.respNow e.port 0 g st answer false :: d.out :=
    (d.finish_sends st answer false tags out).1.trans (by rw [final])
  rw [response, before]
  refine ⟨_, rfl, rfl, rfl, rfl, rfl, d.finish_tagEntry g st answer false tags out, ?_⟩
  rw [(d.finish_frame g st answer false).2.2.2.2.2.1, at']
  simp [acts]

/-- The cut-off fails the landing whose bay is not issued (R381). -/
theorem Card.landingCutoff_fails {c : Card} {a : Action} (mounted : c.phase = .mounted) (hclk : c.power.hclk = true)
    (only : c.flights.acts = [a]) (land : a.rollback = false) (waits : ∀ n, a.stage ≠ .issued n) :
    c.landingCutoff = c.failLanding a := by
  unfold Card.landingCutoff
  rw [only]
  cases stage : a.stage with
  | issued n => exact absurd stage (waits n)
  | waiting => simp [land, stage, mounted, hclk]
  | completing => simp [land, stage, mounted, hclk]
  | assigned n => simp [land, stage, mounted, hclk]

/-- Taking actions further with none in progress leaves what a failed action's command reads. -/
theorem Card.stepActs_idle {c : Card} (idle : c.flights.acts = []) : c.stepActs.flights.acts = [] ∧
    c.stepActs.ports = c.ports ∧ c.stepActs.out = c.out ∧ c.stepActs.power = c.power := by
  obtain ⟨ports, acts⟩ := Card.stepActs_ports idle
  exact ⟨acts, ports, Far.out_eq c.stepActs_far, congrArg Far.power c.stepActs_far⟩

theorem landingCutoff_fails {s : State} {a : Action} {g : Tag} {e : TagEntry} {k : Cmd} (mounted : s.card.phase = .mounted)
    (hclk : s.card.power.hclk = true) (only : s.card.flights.acts = [a]) (land : a.rollback = false)
    (waits : ∀ n, a.stage ≠ .issued n) (src : a.src = .cmd g) (entry : s.card.tagEntry g = some e)
    (out : e.state = .outstanding k) (up : s.card.portUp e.port = true) (solo : s.card.straps.role = .solo)
    (unjudged : s.card.twin.waits = []) (held : s.card.flights.held = none) : ∃ t q, exec .landingCutoff s = .next t ∧
      t.card.flights.acts = [] ∧ t.card.power.lnd = false ∧
      t.card.out = .resp e.port q :: (s.card.noticeNow ntLandingFailed (a.flight.setWidth 24) ++ s.card.out) ∧
      q.kind = 0 ∧ q.code = g ∧ q.status = stOk ∧ infoByte q.info 0 = 0 ∧
      t.card.tagEntry g = some { e with state := .completed stOk (info3 0 (if a.late = 0 then 0 else 1) 0) } ∧
      t.card.count 8 = (s.card.count 8 + 1) % 2 ^ 32 := by
  obtain ⟨t, next, ⟨b, ended⟩, counts⟩ := run_counts Card.landingCutoff s
  obtain ⟨-, -, -, -, low, lnd, twin, straps⟩ := Card.failAct_only only
  generalize counted : (((s.card.failAct a).notice ntLandingFailed (a.flight.setWidth 24)).bump 8 1).ev 14
    (leBytes 4 a.flight.toNat ++ [0]) = d
  have after : BalconyOnly ((s.card.failAct a).notice ntLandingFailed (a.flight.setWidth 24)) d := by
    rw [← counted]
    exact (Card.bump_balconyOnly _ _ _).trans (Card.ev_balconyOnly _ _ _)
  generalize answer : info3 0 (if a.late = 0 then 0 else 1) 0 = info
  obtain ⟨q, sent, kind, code, status, told, completed, acts⟩ :=
    Card.failAct_finish ntLandingFailed (a.flight.setWidth 24) stOk info entry out up only d after
  have set : s.card.landingCutoff = (d.finish g stOk info false).stepActs := by
    have response : d.landingResponse a false = d.finish g stOk info false := by
      unfold Card.landingResponse
      rw [src, ← answer]
      rfl
    have alone : (d.finish g stOk info false).twinEnd a.flight true = d.finish g stOk info false := by
      obtain ⟨b', at'⟩ := after
      exact Card.twinEnd_solo _ _ (by rw [at']; simp [straps, solo]) (by rw [at']; simp [twin, unjudged])
    rw [Card.landingCutoff_fails mounted hclk only land waits]
    unfold Card.failLanding
    dsimp only
    rw [counted, response, alone]
  obtain ⟨acts', ports, out', power⟩ := Card.stepActs_idle acts
  refine ⟨t, q, next, ?_, ?_, ?_, kind, code, status, ?_, ?_, ?_⟩
  · rw [ended, set]
    exact acts'
  · rw [ended, set]
    dsimp only
    rw [power, (Card.finish_frame _ _ _ _ _).2.1, ← counted]
    simp [lnd held hclk]
  · rw [ended, set]
    dsimp only
    rw [out', sent]
  · rw [told, ← answer]
    split <;> rfl
  · rw [ended, set, Card.tagEntry]
    dsimp only
    rw [ports]
    exact completed
  · have before : ((s.card.failAct a).notice ntLandingFailed (a.flight.setWidth 24)).count 8 = s.card.count 8 :=
      Card.count_of_low ((Card.notice_low _ _ _).trans low) (by decide)
    have bumped : d.count 8 = (s.card.count 8 + 1) % 2 ^ 32 := by
      rw [← counted, Card.count_ev, Card.count_bump_same _ _ (by decide), before]
    rw [counts 8 (by decide), set, Card.count_of_low (Card.stepActs_low acts) (by decide),
      Card.count_of_low (Card.finish_low _ _ _ _ _) (by decide), bumped]

/-- Settles O50: the execution, the bay's issue, and the failure at the cut-off. -/
theorem landingActions : Obligations.LandingActions := by
  unfold Obligations.LandingActions
  refine fun s mounted hclk => ⟨fun h held land at' first idle => landingExecute_begins mounted hclk held land at' first idle,
    fun a r since acts land may => ⟨fun late => ?_, fun c k inTime placed => landingBayIssue_issues acts land may inTime placed⟩,
    fun a g e k only land waits src entry out up solo unjudged held =>
      landingCutoff_fails mounted hclk only land waits src entry out up solo unjudged held⟩
  refine run_eq (f := fun c => c.issueLanding since.toNat) ?_ (Nat.le_refl _)
  have late' : ¬ since.toNat ≤ Config.cutoffCycles := Nat.not_le.mpr late
  simp [Card.issueLanding, acts, late']

end Sys2Proof.Machine

/-! Commands that end one after the other, actions with nothing assigned, rollbacks and MARKs (R357, R366, R386, R392 to R395). -/

namespace Sys2Proof.Machine

open Sys2Proof

/-! Commands that end one after the other (R220, R330, R392). -/

/-- What `f` makes of a tag's entry where it ends the command of `tag x`, with `st` and `info`. -/
structure Ends {α : Type} (f : Card → α → Card) (tag : α → Tag) (g : Tag) (st : Status) (info : BitVec 24) : Prop where
  others : ∀ c x, tag x ≠ g → EntryStays (c.tagEntry g) ((f c x).tagEntry g)
  own : ∀ c x (e : TagEntry) k, tag x = g → c.tagEntry g = some { e with state := .outstanding k } →
    (f c x).tagEntry g = some { e with state := .completed st info }
  idle : ∀ c x, tag x = g → c.cmdOf g = none → (f c x).tagEntry g = c.tagEntry g

/-- Ended stays ended. -/
theorem Ends.stays {α : Type} {f : Card → α → Card} {tag : α → Tag} {g : Tag} {st : Status} {info : BitVec 24}
    (h : Ends f tag g st info) {e : TagEntry} {st' : Status} {info' : BitVec 24} (xs : List α) (c : Card)
    (done : c.tagEntry g = some { e with state := .completed st' info' }) :
    (xs.foldl f c).tagEntry g = some { e with state := .completed st' info' } := by
  induction xs generalizing c with
  | nil => exact done
  | cons x xs ih =>
    refine ih _ ?_
    by_cases own : tag x = g
    · rw [h.idle c x own (by simp [Card.cmdOf, done]), done]
    · exact (h.others c x own).completed done

/-- Each command named ends. -/
theorem Ends.foldl {α : Type} {f : Card → α → Card} {tag : α → Tag} {g : Tag} {st : Status} {info : BitVec 24}
    (h : Ends f tag g st info) {e : TagEntry} {k : Cmd} (xs : List α) (c : Card) (named : ∃ x ∈ xs, tag x = g)
    (entry : c.tagEntry g = some { e with state := .outstanding k }) :
    (xs.foldl f c).tagEntry g = some { e with state := .completed st info } := by
  induction xs generalizing c k with
  | nil =>
    obtain ⟨x, mem, -⟩ := named
    cases mem
  | cons x xs ih =>
    by_cases own : tag x = g
    · exact h.stays xs _ (h.own c x e k own entry)
    · obtain ⟨k', entry'⟩ := (h.others c x own).outstanding entry rfl
      obtain ⟨y, mem, is⟩ := named
      rcases List.mem_cons.mp mem with rfl | mem
      · exact absurd is own
      · exact ih _ ⟨y, mem, is⟩ entry'

/-- A command that ends with the same answer wherever it stands in the fold. -/
theorem Ends.finish {α : Type} (before : Card → α → Card) (tag : α → Tag) (g : Tag) (st : Status) (info : BitVec 24) (z : Bool)
    (ports : ∀ c x, (before c x).ports = c.ports) :
    Ends (fun c x => (before c x).finish (tag x) st info z) tag g st info := by
  have same (c : Card) (x : α) (t : Tag) : (before c x).tagEntry t = c.tagEntry t := by
    simp only [Card.tagEntry, ports]
  refine ⟨fun c x other => ?_, fun c x e k own entry => ?_, fun c x own idle => ?_⟩
  · rw [← same c x]
    exact Card.finish_stays _ st info z (Ne.symm other)
  · subst own
    exact Card.finish_tagEntry _ _ st info z (e := { e with state := .outstanding k }) ((same c x _).trans entry) rfl
  · subst own
    have idle' : (before c x).cmdOf (tag x) = none := by simpa only [Card.cmdOf, same] using idle
    rw [Card.finish_none st info z idle', same]

/-- An outstanding WRITE is among those at work. -/
theorem Card.mem_writeWorks {c : Card} {g : Tag} {e : TagEntry} {w : WriteWork} (entry : c.tagEntry g = some e)
    (out : e.state = .outstanding (.write w)) : (g, w) ∈ c.writeWorks := by
  refine List.mem_filterMap.mpr ⟨(g.toNat, e), KV.mem_of_find entry, ?_⟩
  simp [out]

/-! Work that takes positions leaves the flights alone where no action's bay has its position without being issued (R379). -/

/-- No action's bay has a position without being issued. -/
def Card.unassigned (c : Card) : Prop := ∀ a ∈ c.flights.acts, ∀ k, a.stage ≠ .assigned k

/-- Such a card's flights stay. -/
def FlightsStay (c d : Card) : Prop := c.unassigned → d.flights = c.flights

theorem FlightsStay.refl (c : Card) : FlightsStay c c := fun _ => rfl

theorem FlightsStay.trans {c d e : Card} (h : FlightsStay c d) (k : FlightsStay d e) : FlightsStay c e := by
  intro none
  have same := h none
  have none' : d.unassigned := by
    intro a mem
    rw [same] at mem
    exact none a mem
  rw [k none', same]

theorem FlightsStay.of_rest {c d : Card} (h : d.rest = c.rest) : FlightsStay c d := fun _ => congrArg Rest.flights h

theorem Card.noteActs_still (c : Card) : FlightsStay c c.noteActs := by
  intro none
  have idle (l : List Action) (h : ∀ a ∈ l, ∀ k, a.stage ≠ .assigned k) (d : Card) :
      (l.foldl (fun c a => match a.stage with
        | .assigned k =>
          if c.programIssued k then c.noteIssued a k (Config.treadCycles * (c.treads.ticks - a.begun)) else c
        | _ => c) d) = d := by
    induction l generalizing d with
    | nil => rfl
    | cons a r ih =>
      rw [List.foldl_cons]
      cases stage : a.stage with
      | assigned k => exact absurd stage (h a (by simp) k)
      | _ => exact ih (fun b mem => h b (by simp [mem])) d
  unfold Card.noteActs
  exact congrArg Card.flights (idle _ none c)

theorem Card.startGallery_still (c : Card) (w : Nat) (g : Gallery) : FlightsStay c (c.startGallery w g) := by
  have issued : ((g.taken.filter (fun h => !g.done.contains h)).foldl (fun c h => c.issueProgram (posKey w g.g h)) c).rest =
      c.rest := Rest.foldl _ (fun c h => Card.issueProgram_rest c _) _ _
  exact (FlightsStay.of_rest issued).trans (Card.noteActs_still _)

theorem Card.leaveGallery_still (c : Card) (w : Nat) : FlightsStay c (c.leaveGallery w) := by
  unfold Card.leaveGallery
  dsimp only
  split
  · exact .refl c
  · split
    · exact .refl c
    · split
      · split
        · exact .of_rest (by simp)
        · exact .of_rest (by simp)
      · exact (FlightsStay.of_rest (by simp)).trans (Card.startGallery_still _ _ _)

theorem Card.leaveBare_still (c : Card) (w cause : Nat) : FlightsStay c (c.leaveBare w cause) := by
  unfold Card.leaveBare
  dsimp only
  split
  · exact .refl c
  · exact fun none => Card.leaveGallery_still _ w none

theorem Card.tryParity_still (c : Card) (w : Nat) : FlightsStay c (c.tryParity w) := by
  unfold Card.tryParity
  dsimp only
  split
  · exact .refl c
  · split
    · exact .refl c
    · split
      · exact .refl c
      · split
        · exact .of_rest (c.addOwn_rest _ _ _ _ _)
        · split
          · exact .refl c
          · split
            · exact c.leaveBare_still w 2
            · exact .of_rest (c.addOwn_rest _ _ _ _ _)

theorem Card.fillTo_still (c : Card) (w n : Nat) : FlightsStay c (c.fillTo w n) := by
  unfold Card.fillTo
  split
  · exact .refl c
  · exact (FlightsStay.of_rest (Rest.foldl _ (fun c x => Card.fillGallery_rest c w _) _ _)).trans (Card.tryParity_still _ w)

theorem Card.continueWing_still (c : Card) (w : Nat) : FlightsStay c (c.continueWing w) := by
  unfold Card.continueWing Card.fillWing
  dsimp only
  split
  · exact .refl c
  · split
    · split
      · exact ((FlightsStay.of_rest (c.setOpen_rest _)).trans
          (.of_rest (Rest.foldl _ (fun c x => Card.startJob_rest c _ _ _) _ _))).trans (Card.fillTo_still _ w 383)
      · exact .of_rest (c.setOpen_rest _)
    · exact .refl c

theorem Card.prepare_still (c : Card) (user : Bool) (n : Nat) : FlightsStay c (c.prepare user n) := by
  induction n generalizing c with
  | zero => exact .refl c
  | succ k ih =>
    have opened : FlightsStay c (c.ensureOpen user) := .of_rest (c.ensureOpen_rest user)
    unfold Card.prepare
    dsimp only
    split
    · split
      · exact (opened.trans (Card.continueWing_still _ _)).trans (ih _)
      · exact opened
    · exact opened

/-- Taking a position for a bay (R430). -/
theorem Card.place_still (c : Card) (user fresh : Bool) (b : Bay) : FlightsStay c (c.place user fresh b).1 := by
  have key (d : Card) (w : Nat) (b : Bay) (h : FlightsStay c d) :
      FlightsStay c (match ({ d with media := { d.media with lastWing := some w } } : Card).assignIn w b with
        | (c, some k) => (c.draw user b.kind k, some k)
        | (c, none) => ((c, none) : Card × Option Nat)).1 := by
    have taken : FlightsStay c (({ d with media := { d.media with lastWing := some w } } : Card).assignIn w b).1 :=
      h.trans (.of_rest (({ d with media := { d.media with lastWing := some w } } : Card).assignIn_rest w b))
    split
    · next e =>
      rw [e] at taken
      exact taken.trans (.of_rest (Card.draw_rest _ _ _ _))
    · next e =>
      rw [e] at taken
      exact taken
  have ready := c.prepare_still user 4
  unfold Card.place
  dsimp only
  split
  · exact .refl c
  · split
    · exact ready
    · cases fresh
      · exact key _ _ _ ready
      · exact key _ _ _ (ready.trans (.of_rest (Card.stampBay_rest _ b)))

/-- A MARK's bay takes a position, or the MARK goes on waiting: no action changes (R357). -/
theorem Card.placeMark_acts {c : Card} (x : HeldMark × Nat) (none : c.unassigned) :
    (c.placeMark x).flights.acts = c.flights.acts := by
  have still := c.place_still false true (newBay .mark 0 0 x.2 (.mark x.1.value x.1.tread)) none
  unfold Card.placeMark Card.placeNew
  split
  · next e =>
    rw [e] at still
    exact congrArg Flights.acts still
  · rfl

theorem Card.placeDue_acts {c : Card} (none : c.unassigned) : c.placeDue.flights.acts = c.flights.acts := by
  have marks (l : List (HeldMark × Nat)) (d : Card) (h : d.unassigned) :
      (l.foldl Card.placeMark d).flights.acts = d.flights.acts := by
    induction l generalizing d with
    | nil => rfl
    | cons x r ih =>
      have one := Card.placeMark_acts x h
      have next : (d.placeMark x).unassigned := by
        intro a mem
        rw [one] at mem
        exact h a mem
      exact (ih _ next).trans one
  unfold Card.placeDue
  split
  · rfl
  · exact marks _ _ none

/-- A rollback that waits for its bay stays as it is (R386). -/
theorem Card.stepActs_rollback {c : Card} {a : Action} (only : c.flights.acts = [a]) (back : a.rollback = true)
    (stage : a.stage = .completing) : c.stepActs.flights.acts = [a] ∧ c.stepActs.ports = c.ports := by
  have none : c.unassigned := by
    intro x mem k
    rw [only, List.mem_singleton] at mem
    rw [mem, stage]
    exact fun h => ActStage.noConfusion h
  have acts := (Card.placeDue_acts none).trans only
  have step : c.placeDue.stepAct a = c.placeDue := by simp [Card.stepAct, stage, back]
  have set : c.stepActs = c.placeDue := by
    unfold Card.stepActs
    dsimp only
    rw [acts, List.foldl_cons, List.foldl_nil, step]
  rw [set]
  exact ⟨acts, c.placeDue_ports.1⟩

/-! Rollbacks (R386, R392 to R395). -/

theorem Card.disown_frame (c : Card) (w : WriteWork) : (c.disown w).ports = c.ports ∧ (c.disown w).phase = c.phase ∧
    (c.disown w).power = c.power ∧ (c.disown w).treads = c.treads ∧
    ∃ xs, (c.disown w).flights = { c.flights with absent := c.flights.absent ++ xs } := ⟨rfl, rfl, rfl, rfl, _, rfl⟩

/-- Ending the commands of a rollback's range moves of the flights only whose bays land with none (R222, R392). -/
theorem Card.rollCommands_flights (c : Card) (a : Action) :
    ∃ xs, (c.rollCommands a).flights = { c.flights with absent := xs } := by
  unfold Card.rollCommands
  generalize c.writeWorks.filter (fun x => c.ofRange a x.2.ord) = l
  induction l generalizing c with
  | nil => exact ⟨c.flights.absent, rfl⟩
  | cons x r ih =>
    obtain ⟨xs, rest⟩ := ih ((c.disown x.2).finish x.1 stRolledBack 0 false)
    refine ⟨xs, rest.trans ?_⟩
    rw [(Card.finish_frame _ _ _ _ _).2.2.2.2.2.1]
    rfl

theorem Card.rollCommands_ends {c : Card} {a : Action} {g : Tag} {e : TagEntry} {w : WriteWork}
    (entry : c.tagEntry g = some e) (out : e.state = .outstanding (.write w)) (low : c.flights.base ≤ w.ord)
    (high : w.ord ≤ a.closed) : (c.rollCommands a).tagEntry g = some { e with state := .completed stRolledBack 0 } := by
  have ends := Ends.finish (α := Tag × WriteWork) (fun c x => c.disown x.2) Prod.fst g stRolledBack 0 false (fun _ _ => rfl)
  have named : (g, w) ∈ c.writeWorks.filter (fun x => c.ofRange a x.2.ord) :=
    List.mem_filter.mpr ⟨Card.mem_writeWorks entry out, by simp [Card.ofRange, low, high]⟩
  exact ends.foldl _ c ⟨_, named, rfl⟩ (by rw [entry, ← out])

/-- The rollback of an execution (R392). -/
def Card.rollbackOf (c : Card) (h : Held) : Action :=
  { rollback := true, flight := h.flight, exec := c.treads.c, late := 0, src := h.src, closed := c.flights.openOrd,
    opened := c.flights.nextOrd, stage := .completing, begun := c.treads.ticks, bay := none, failed := false }

theorem rollbackExecute_begins {s : State} {h : Held} (mounted : s.card.phase = .mounted) (hclk : s.card.power.hclk = true)
    (held : s.card.flights.held = some h) (back : h.rollback = true) (at' : h.tread = s.card.treads.c)
    (first : s.card.firstOfTread = true) (idle : s.card.flights.acts = []) (ok : s.card.rollbackOk h.flight = true) :
    ∃ t, exec .rollbackExecute s = .next t ∧ t.card.flights.held = none ∧ t.card.flights.openOrd = s.card.flights.nextOrd ∧
      t.card.flights.acts = [s.card.rollbackOf h] ∧
      ∀ g e w, s.card.tagEntry g = some e → e.state = .outstanding (.write w) → s.card.flights.base ≤ w.ord →
        w.ord ≤ s.card.flights.openOrd → t.card.tagEntry g = some { e with state := .completed stRolledBack 0 } := by
  obtain ⟨t, next, b, ended⟩ := run_spec Card.rollbackExecute s
  generalize rolled : s.card.unhold.closeFlight.rollCommands (s.card.rollbackOf h) = d
  generalize begun : ({ d with flights := { d.flights with acts := d.flights.acts ++ [s.card.rollbackOf h] } } : Card).pumpAll =
    x at *
  have set : s.card.rollbackExecute = x.stepActs := by
    have executes : s.card.rollbackExecute = s.card.unhold.executeRollback h.flight h.src := by
      have ok' : s.card.unhold.rollbackOk h.flight = true := ok
      simp only [Card.rollbackExecute, held, mounted, hclk, back, at', first]
      simp [ok']
    have none : s.card.unhold.closeFlight.flights.acts.isEmpty = true := by simp [Card.unhold, Card.closeFlight, idle]
    rw [executes, ← begun, ← rolled]
    unfold Card.executeRollback
    dsimp only
    rw [if_pos none]
    rfl
  obtain ⟨xs, flights⟩ := s.card.unhold.closeFlight.rollCommands_flights (s.card.rollbackOf h)
  rw [rolled] at flights
  have start : x.flights = { d.flights with acts := d.flights.acts ++ [s.card.rollbackOf h] } := by
    rw [← begun]
    exact congrArg Rest.flights (Card.pumpAll_rest _)
  have only : x.flights.acts = [s.card.rollbackOf h] := by
    rw [start, flights]
    simp [Card.unhold, Card.closeFlight, idle]
  obtain ⟨acts, ports⟩ := Card.stepActs_rollback only rfl rfl
  have afar := (Card.stepActs_one only).1
  have flown (g : Flights → Nat × Option Held) (h : ∀ x due acts, g { x with due := due, acts := acts } = g x) :
      g x.stepActs.flights = g x.flights := by
    have := congrArg (fun n : Near => g n.flights) afar
    simpa [Card.afar, Card.near, h] using this
  have both := flown (fun x => (x.openOrd, x.held)) fun _ _ _ => rfl
  rw [start, flights] at both
  obtain ⟨open', held'⟩ := Prod.mk.inj both
  refine ⟨t, next, ?_, ?_, ?_, fun g e w entry out low high => ?_⟩
  · rw [ended, set]
    exact held'
  · rw [ended, set]
    exact open'
  · rw [ended, set]
    exact acts
  · have tagged := Card.rollCommands_ends (c := s.card.unhold.closeFlight) (a := s.card.rollbackOf h) entry out low high
    have pumped : x.ports = d.ports := by
      rw [← begun]
      exact congrArg Rest.ports (Card.pumpAll_rest _)
    rw [ended, set, Card.tagEntry]
    dsimp only
    rw [ports, pumped, ← rolled]
    exact tagged

theorem rollbackBayIssue_issues {s : State} {a : Action} {r : List Action} {since : BitVec 24} {l : Landed} {c : Card} {k : Nat}
    (acts : s.card.flights.acts = a :: r) (back : a.rollback = true) (may : s.card.mayIssue a = true)
    (last : s.card.flights.last = some l) (ok : s.card.rollbackOk a.flight = true) (inTime : since.toNat ≤ 281250)
    (placed : (s.card.rollCommands a).placeNew false (newBay .rollback 0 0 a.closed
      (.rollback ((s.card.rollCommands a).rollbackRec a l))) = (c, some k)) :
    ∃ t, exec (.rollbackBayIssue since) s = .next t ∧
      (∃ x, x ∈ t.card.flights.acts ∧ x.closed = a.closed ∧ x.flight = a.flight ∧
        x.stage = if c.programIssued k then .issued k else .assigned k) ∧
      ∃ b q, KV.find t.card.media.vest k = some b ∧ b.kind = .rollback ∧ b.body = .rollback q ∧
        q.flight = a.flight ∧ q.restored = l.prev ∧ q.landFirst = l.first ∧ q.landLast = l.last ∧
        q.base = s.card.flights.base ∧ q.closed = a.closed := by
  obtain ⟨t, next, b, ended⟩ := run_spec (fun c => c.issueRollback since.toNat) s
  have set : s.card.issueRollback since.toNat = c.lodgeAct a k since.toNat := by
    have inTime' : since.toNat ≤ Config.cutoffCycles := inTime
    simp only [Card.issueRollback, acts, back, may, ok, last, placed]
    simp [inTime']
  obtain ⟨xs, flights⟩ := s.card.rollCommands_flights a
  have near := (s.card.rollCommands a).placeNew_near false (newBay .rollback 0 0 a.closed
    (.rollback ((s.card.rollCommands a).rollbackRec a l)))
  rw [placed] at near
  obtain ⟨action, media⟩ := Card.lodgeAct_holds (k := k) (since := since.toNat)
    (Card.mem_acts_of_near near (a := a) (by simp [flights, acts]))
  obtain ⟨x, find, kind, -, -, -, -, body, -⟩ := Card.place_stands placed
  refine ⟨t, next, ?_, x, _, ?_, kind, body, rfl, rfl, rfl, rfl, ?_, rfl⟩
  · rw [ended]
    dsimp only
    rw [set]
    exact action
  · rw [ended]
    dsimp only
    rw [set, media]
    exact find
  · simp [Card.rollbackRec, flights]

/-- A rollback that the numbering no longer accepts (R318, R386). -/
theorem rollbackBayIssue_stale {s : State} {a : Action} {since : BitVec 24} {l : Landed} {g : Tag} {e : TagEntry} {k : Cmd}
    (acts : s.card.flights.acts = [a]) (back : a.rollback = true) (may : s.card.mayIssue a = true)
    (last : s.card.flights.last = some l) (no : s.card.rollbackOk a.flight = false) (src : a.src = .cmd g)
    (entry : s.card.tagEntry g = some e) (out : e.state = .outstanding k) :
    ∃ t, exec (.rollbackBayIssue since) s = .next t ∧ t.card.flights.acts = [] ∧
      t.card.tagEntry g = some { e with state := .completed stFlightStale (s.card.lastFlight.setWidth 24) } := by
  obtain ⟨t, next, b, ended⟩ := run_spec (fun c => c.issueRollback since.toNat) s
  have set : s.card.issueRollback since.toNat = ((s.card.removeAct a).staleAct a.src true).stepActs := by
    simp only [Card.issueRollback, acts, back, may, no, last]
    simp
  have entry' : (s.card.removeAct a).tagEntry g = some e := by simpa [Card.tagEntry] using entry
  have stale : (s.card.removeAct a).staleInfo = s.card.staleInfo := by
    simp [Card.staleInfo, Card.lastFlight, Card.removeAct]
  have finished := (s.card.removeAct a).finish_tagEntry g stFlightStale (s.card.removeAct a).staleInfo false entry' out
  have none : ((s.card.removeAct a).staleAct a.src true).flights.acts = [] := by
    rw [(Card.staleAct_frame _ _ _).2.2]
    simp [Card.removeAct, acts]
  obtain ⟨acts', ports, -⟩ := Card.stepActs_idle none
  refine ⟨t, next, ?_, ?_⟩
  · rw [ended]
    dsimp only
    rw [set, acts']
  · rw [ended, Card.tagEntry]
    dsimp only
    rw [set, ports, src]
    exact finished.trans (by rw [stale]; rfl)

/-- The cut-off fails the rollback whose bay is not issued (R395). -/
theorem Card.rollbackCutoff_fails {c : Card} {a : Action} (mounted : c.phase = .mounted) (hclk : c.power.hclk = true)
    (only : c.flights.acts = [a]) (back : a.rollback = true) (waits : ∀ n, a.stage ≠ .issued n) :
    c.rollbackCutoff = c.failRollback a := by
  unfold Card.rollbackCutoff
  rw [only]
  cases stage : a.stage with
  | issued n => exact absurd stage (waits n)
  | waiting => simp [back, stage, mounted, hclk]
  | completing => simp [back, stage, mounted, hclk]
  | assigned n => simp [back, stage, mounted, hclk]

theorem rollbackCutoff_fails {s : State} {a : Action} {g : Tag} {e : TagEntry} {k : Cmd} (mounted : s.card.phase = .mounted)
    (hclk : s.card.power.hclk = true) (only : s.card.flights.acts = [a]) (back : a.rollback = true)
    (waits : ∀ n, a.stage ≠ .issued n) (src : a.src = .cmd g) (entry : s.card.tagEntry g = some e)
    (out : e.state = .outstanding k) (up : s.card.portUp e.port = true) : ∃ t q, exec .rollbackCutoff s = .next t ∧
      t.card.flights.acts = [] ∧
      t.card.out = .resp e.port q :: (s.card.noticeNow ntRollbackFailed (a.flight.setWidth 24) ++ s.card.out) ∧
      q.kind = 0 ∧ q.code = g ∧ q.status = stOk ∧ q.info = 0 ∧
      t.card.tagEntry g = some { e with state := .completed stOk 0 } := by
  obtain ⟨t, next, b, ended⟩ := run_spec Card.rollbackCutoff s
  obtain ⟨q, sent, kind, code, status, told, completed, acts⟩ := Card.failAct_finish ntRollbackFailed (a.flight.setWidth 24)
    stOk 0 entry out up only _ (BalconyOnly.refl _)
  have set : s.card.rollbackCutoff = (((s.card.failAct a).notice ntRollbackFailed (a.flight.setWidth 24)).finish g stOk 0
      false).stepActs := by
    rw [Card.rollbackCutoff_fails mounted hclk only back waits]
    unfold Card.failRollback
    rw [src]
  obtain ⟨acts', ports, out', -⟩ := Card.stepActs_idle acts
  refine ⟨t, q, next, ?_, ?_, kind, code, status, told, ?_⟩
  · rw [ended, set]
    exact acts'
  · rw [ended, set]
    exact out'.trans sent
  · rw [ended, set, Card.tagEntry]
    dsimp only
    rw [ports]
    exact completed

/-- A MARK at its tread is placed in the open flight, or waits (R357, R366). -/
theorem markExecute_places {s : State} {m : HeldMark} (mounted : s.card.phase = .mounted) (hclk : s.card.power.hclk = true)
    (found : s.card.flights.marks.find? (fun x => x.tread == s.card.treads.c) = some m)
    (quiet : s.card.windowEnding = false) {c : Card}
    (is : c = { s.card with flights := { s.card.flights with marks := s.card.flights.marks.erase m } }) {p : Card × Option Nat}
    (placed : c.placeNew false (newBay .mark 0 0 s.card.flights.openOrd (.mark m.value m.tread)) = p) :
    ∃ t, exec .markExecute s = .next t ∧ t.card.flights.marks = s.card.flights.marks.erase m ∧
      (∀ k, p.2 = some k → ∃ b, KV.find t.card.media.vest k = some b ∧ b.kind = .mark ∧ b.ord = s.card.flights.openOrd ∧
        b.body = .mark m.value m.tread) ∧
      (p.2 = none → t.card.flights.due = s.card.flights.due ++ [(m, s.card.flights.openOrd)]) := by
  obtain ⟨t, next, b, ended⟩ := run_spec Card.markExecute s
  have set : s.card.markExecute = (c.placeMark (m, s.card.flights.openOrd)).pumpAll := by
    have now : s.card.phase = .mounted ∧ s.card.power.hclk = true ∧ (!s.card.windowEnding) = true :=
      ⟨mounted, hclk, by rw [quiet]; rfl⟩
    unfold Card.markExecute
    rw [found, is]
    exact if_pos now
  have pumped : t.card.flights = (c.placeMark (m, s.card.flights.openOrd)).flights ∧
      t.card.media = (c.placeMark (m, s.card.flights.openOrd)).media := by
    rw [ended, set]
    exact ⟨congrArg Rest.flights (Card.pumpAll_rest _), (Card.pumpAll_hallsOnly _).media⟩
  obtain ⟨flights, media⟩ := pumped
  have near := c.placeNew_near false (newBay .mark 0 0 s.card.flights.openOrd (.mark m.value m.tread))
  have marks := congrArg (fun n : Near => n.flights.marks) near
  rw [placed] at near marks
  obtain ⟨d, k⟩ := p
  cases k with
  | none =>
    have waits : c.placeMark (m, s.card.flights.openOrd) =
        { c with flights := { c.flights with due := c.flights.due ++ [(m, s.card.flights.openOrd)] } } := by
      simp only [Card.placeMark, placed]
    refine ⟨t, next, ?_, fun k is => ?_, fun _ => ?_⟩
    · rw [flights, waits, is]
    · cases is
    · rw [flights, waits, is]
  | some k =>
    have takes : c.placeMark (m, s.card.flights.openOrd) = d := by simp only [Card.placeMark, placed]
    refine ⟨t, next, ?_, fun j at' => ?_, fun is => ?_⟩
    · rw [flights, takes]
      exact marks.trans (by rw [is]; rfl)
    · obtain rfl := Option.some.inj at'
      obtain ⟨x, find, kind, -, -, ord, -, body, -⟩ := Card.place_stands placed
      exact ⟨x, by rw [media, takes]; exact find, kind, ord, body⟩
    · cases is

/-- Settles O51: the execution, the bay's issue, the failure at the cut-off, and a MARK. -/
theorem rollbackAndMarkActions : Obligations.RollbackAndMarkActions := by
  unfold Obligations.RollbackAndMarkActions
  refine fun s mounted hclk => ⟨fun h held back at' first idle ok =>
      rollbackExecute_begins mounted hclk held back at' first idle ok,
    fun a r since l acts back may last => ⟨fun ok inTime c k placed =>
      rollbackBayIssue_issues acts back may last ok inTime placed, fun g e k no only src entry out => ?_⟩,
    fun a g e k only back waits src entry out up => rollbackCutoff_fails mounted hclk only back waits src entry out up,
    fun m found quiet => markExecute_places mounted hclk found quiet rfl rfl⟩
  subst only
  exact rollbackBayIssue_stale acts back may last no src entry out

end Sys2Proof.Machine

/-! The views as flights land and are rolled back (R264, R266, R394, R420, R423). -/

namespace Sys2Proof.Machine

open Sys2Proof

/-! Sorting keeps equals in their order. -/

section Sorting

variable {α : Type} {le : α → α → Bool}

theorem mem_insertBy {x y : α} {l : List α} : y ∈ insertBy le x l ↔ y = x ∨ y ∈ l := by
  induction l with
  | nil => simp [insertBy]
  | cons z r ih =>
    unfold insertBy
    split
    · simp
    · simp only [List.mem_cons, ih]
      exact or_left_comm

theorem mem_sortBy {y : α} {l : List α} : y ∈ sortBy le l ↔ y ∈ l := by
  induction l with
  | nil => rfl
  | cons x r ih => rw [sortBy, mem_insertBy, ih, List.mem_cons]

theorem insertBy_sorted (total : ∀ x y, le x y = true ∨ le y x = true)
    (trans : ∀ x y z, le x y = true → le y z = true → le x z = true) {x : α} {l : List α}
    (h : l.Pairwise (fun x y => le x y = true)) : (insertBy le x l).Pairwise (fun x y => le x y = true) := by
  induction l with
  | nil => simp [insertBy]
  | cons y r ih =>
    obtain ⟨first, rest⟩ := List.pairwise_cons.mp h
    unfold insertBy
    split
    · next before =>
      refine List.pairwise_cons.mpr ⟨fun z mem => ?_, h⟩
      rcases List.mem_cons.mp mem with rfl | mem
      · exact before
      · exact trans x y z before (first z mem)
    · next after =>
      refine List.pairwise_cons.mpr ⟨fun z mem => ?_, ih rest⟩
      rcases mem_insertBy.mp mem with rfl | mem
      · exact (total y z).resolve_right after
      · exact first z mem

theorem sortBy_sorted (total : ∀ x y, le x y = true ∨ le y x = true)
    (trans : ∀ x y z, le x y = true → le y z = true → le x z = true) (l : List α) :
    (sortBy le l).Pairwise (fun x y => le x y = true) := by
  induction l with
  | nil => exact List.Pairwise.nil
  | cons x r ih => exact insertBy_sorted total trans ih

/-- What comes after an element put into a sorted list. -/
theorem insertBy_split {x : α} {l : List α} (trans : ∀ x y z, le x y = true → le y z = true → le x z = true)
    (h : l.Pairwise (fun x y => le x y = true)) :
    ∃ p q, insertBy le x l = p ++ x :: q ∧ ∀ y ∈ q, y ∈ l ∧ le x y = true := by
  induction l with
  | nil => exact ⟨[], [], rfl, fun y mem => by cases mem⟩
  | cons z r ih =>
    obtain ⟨first, rest⟩ := List.pairwise_cons.mp h
    unfold insertBy
    split
    · next before =>
      refine ⟨[], z :: r, rfl, fun y mem => ⟨mem, ?_⟩⟩
      rcases List.mem_cons.mp mem with rfl | mem
      · exact before
      · exact trans x z y before (first y mem)
    · obtain ⟨p, q, is, after⟩ := ih rest
      exact ⟨z :: p, q, by rw [is]; rfl, fun y mem => ⟨List.mem_cons_of_mem _ (after y mem).1, (after y mem).2⟩⟩

/-- An element put into a list comes after one that stands in it only where it does not come before that one. -/
theorem insertBy_into {x z : α} {q : List α} (p : List α) :
    ∃ p' q', insertBy le z (p ++ x :: q) = p' ++ x :: q' ∧ ∀ y ∈ q', y ∈ q ∨ (y = z ∧ le z x = false) := by
  induction p with
  | nil =>
    rw [List.nil_append]
    unfold insertBy
    split
    · exact ⟨[z], q, rfl, fun y mem => .inl mem⟩
    · next after =>
      refine ⟨[], insertBy le z q, rfl, fun y mem => ?_⟩
      rcases mem_insertBy.mp mem with rfl | mem
      · exact .inr ⟨rfl, by simpa using after⟩
      · exact .inl mem
  | cons w p ih =>
    rw [List.cons_append]
    unfold insertBy
    split
    · exact ⟨z :: w :: p, q, rfl, fun y mem => .inl mem⟩
    · obtain ⟨p', q', is, after⟩ := ih
      exact ⟨w :: p', q', by rw [is]; rfl, after⟩

/-- What comes after an element once the list is sorted stood after it and does not come before it, or stood before it and
comes after it. -/
theorem sortBy_split (total : ∀ x y, le x y = true ∨ le y x = true)
    (trans : ∀ x y z, le x y = true → le y z = true → le x z = true) (x : α) (pre post : List α) :
    ∃ p q, sortBy le (pre ++ x :: post) = p ++ x :: q ∧
      ∀ y ∈ q, (y ∈ post ∧ le x y = true) ∨ (y ∈ pre ∧ le y x = false) := by
  induction pre with
  | nil =>
    obtain ⟨p, q, is, after⟩ := insertBy_split trans (sortBy_sorted total trans post)
    exact ⟨p, q, is, fun y mem => .inl ⟨mem_sortBy.mp (after y mem).1, (after y mem).2⟩⟩
  | cons z pre ih =>
    obtain ⟨p, q, is, after⟩ := ih
    obtain ⟨p', q', into, later⟩ := insertBy_into (le := le) (x := x) (z := z) (q := q) p
    refine ⟨p', q', by rw [← into, ← is]; rfl, fun y mem => ?_⟩
    rcases later y mem with mem | ⟨rfl, no⟩
    · rcases after y mem with h | ⟨mem, no⟩
      · exact .inl h
      · exact .inr ⟨List.mem_cons_of_mem _ mem, no⟩
    · exact .inr ⟨List.mem_cons_self, no⟩

end Sorting

/-! Landing (R266, R373, R420, R423). -/

/-- A bay's map entry in the views. -/
def Views.at (v : Views) (n : Nat) : MapEntry := KV.getD v.map n .blank

theorem KV.getD_put_same {α : Type} (m : KV α) (k : Nat) (v d : α) : KV.getD (KV.put m k v) k d = v := by
  simp [KV.getD]

theorem KV.getD_put_other {α : Type} (m : KV α) {k j : Nat} (v d : α) (h : j ≠ k) :
    KV.getD (KV.put m k v) j d = KV.getD m j d := by
  simp only [KV.getD, KV.find_put_other m v h]

theorem Views.landOne_at_same (v : Views) (x : Change) : (v.landOne x).at x.bay = { v.at x.bay with landed := x.loc } :=
  KV.getD_put_same _ _ _ _

theorem Views.landOne_at_other (v : Views) {x : Change} {n : Nat} (h : n ≠ x.bay) : (v.landOne x).at n = v.at n :=
  KV.getD_put_other _ _ _ h

theorem Views.landAll_at (xs : List Change) (v : Views) (n : Nat) :
    ((xs.foldl Views.landOne v).at n).working = (v.at n).working ∧ ((xs.foldl Views.landOne v).at n).hmark = (v.at n).hmark ∧
    ((∀ x ∈ xs, x.bay ≠ n) → ((xs.foldl Views.landOne v).at n).landed = (v.at n).landed) ∧
    (xs.foldl Views.landOne v).changes = v.changes := by
  induction xs generalizing v with
  | nil => exact ⟨rfl, rfl, fun _ => rfl, rfl⟩
  | cons x xs ih =>
    obtain ⟨working, hmark, landed, changes⟩ := ih (v.landOne x)
    by_cases same : n = x.bay
    · subst same
      have one := v.landOne_at_same x
      refine ⟨working.trans (by rw [one]), hmark.trans (by rw [one]), fun none => absurd rfl (none x (by simp)), changes⟩
    · have one := v.landOne_at_other same
      exact ⟨working.trans (by rw [one]), hmark.trans (by rw [one]),
        fun none => (landed fun y mem => none y (by simp [mem])).trans (by rw [one]), changes⟩

/-- The last of a bay's changes to land gives its landed location. -/
theorem Views.landAll_last (p q : List Change) (x : Change) (v : Views) (last : ∀ y ∈ q, y.bay ≠ x.bay) :
    (((p ++ x :: q).foldl Views.landOne v).at x.bay).landed = x.loc := by
  rw [List.foldl_append, List.foldl_cons]
  have rest := (Views.landAll_at q ((p.foldl Views.landOne v).landOne x) x.bay).2.2.1 last
  rw [rest, Views.landOne_at_same]

/-- Changes of an ordinal range land: the working view and the marks stay, the changes go (R266). -/
theorem Views.land_keeps (v : Views) (lo hi n : Nat) : ((v.land lo hi).at n).working = (v.at n).working ∧
    ((v.land lo hi).at n).hmark = (v.at n).hmark ∧
    ((∀ x ∈ v.changes, ¬ (x.bay = n ∧ lo ≤ x.ord ∧ x.ord ≤ hi)) → ((v.land lo hi).at n).landed = (v.at n).landed) ∧
    (v.land lo hi).changes = v.changes.filter (fun x => !(decide (lo ≤ x.ord ∧ x.ord ≤ hi))) := by
  obtain ⟨working, hmark, landed, changes⟩ := Views.landAll_at
    (sortBy (fun a b => decide (a.ord ≤ b.ord)) (v.changes.filter (inOrdinals lo hi))) { v with undo := [] } n
  refine ⟨working, hmark, fun none => landed fun x mem same => ?_, ?_⟩
  · obtain ⟨mem, within⟩ := List.mem_filter.mp (mem_sortBy.mp mem)
    exact none x mem ⟨same, of_decide_eq_true within⟩
  · exact congrArg (List.filter fun x => !inOrdinals lo hi x) changes

/-- The newest of a bay's changes of the range is what its landed location becomes (R373). -/
theorem Views.land_takes {v : Views} {lo hi : Nat} {pre post : List Change} {x : Change} (is : v.changes = pre ++ x :: post)
    (within : lo ≤ x.ord ∧ x.ord ≤ hi) (older : ∀ y ∈ pre, (y.bay = x.bay ∧ lo ≤ y.ord ∧ y.ord ≤ hi) → y.ord ≤ x.ord)
    (newer : ∀ y ∈ post, (y.bay = x.bay ∧ lo ≤ y.ord ∧ y.ord ≤ hi) → y.ord < x.ord) :
    ((v.land lo hi).at x.bay).landed = x.loc := by
  have here : inOrdinals lo hi x = true := decide_eq_true within
  obtain ⟨p, q, sorted, after⟩ := sortBy_split (le := fun a b : Change => decide (a.ord ≤ b.ord))
    (fun a b => by simpa using Nat.le_total a.ord b.ord)
    (fun a b c h k => decide_eq_true (Nat.le_trans (of_decide_eq_true h) (of_decide_eq_true k))) x
    (pre.filter (inOrdinals lo hi)) (post.filter (inOrdinals lo hi))
  have taken : v.changes.filter (inOrdinals lo hi) = pre.filter (inOrdinals lo hi) ++ x :: post.filter (inOrdinals lo hi) := by
    rw [is, List.filter_append, List.filter_cons_of_pos here]
  unfold Views.land
  dsimp only
  rw [taken, sorted]
  refine Views.landAll_last p q x _ fun y mem same => ?_
  rcases after y mem with ⟨mem, le⟩ | ⟨mem, gt⟩
  · obtain ⟨mem, within⟩ := List.mem_filter.mp mem
    exact absurd (of_decide_eq_true le) (Nat.not_le.mpr (newer y mem ⟨same, of_decide_eq_true within⟩))
  · obtain ⟨mem, within⟩ := List.mem_filter.mp mem
    exact absurd (older y mem ⟨same, of_decide_eq_true within⟩) (of_decide_eq_false gt)

/-! A rollback (R394). -/

theorem KV.find_mapValue {α : Type} (m : KV α) (f : Nat → α → α) (k : Nat) :
    KV.find (m.map (fun x => (x.1, f x.1 x.2))) k = (KV.find m k).map (f k) := by
  induction m with
  | nil => rfl
  | cons x r ih =>
    obtain ⟨j, v⟩ := x
    rw [List.map_cons]
    unfold KV.find
    dsimp only
    split
    · next same => rw [same]; rfl
    · exact ih

/-- One bay's landed location goes back to what it was before the landing. -/
def MapEntry.undone (e : MapEntry) (l : Loc) : MapEntry :=
  { e with landed := l, hmark := e.hmark && decide (e.landed = l) }

theorem undoAll_at (us : List (Nat × Loc)) (m : KV MapEntry) (n : Nat) :
    ((∀ l, (n, l) ∉ us) → KV.getD (us.foldl (fun (m : KV MapEntry) x =>
      KV.put m x.1 ((KV.getD m x.1 .blank).undone x.2)) m) n .blank = KV.getD m n .blank) ∧
    ∀ pre l post, us = pre ++ (n, l) :: post → (∀ j, (n, j) ∉ post) → (KV.getD (us.foldl (fun (m : KV MapEntry) x =>
      KV.put m x.1 ((KV.getD m x.1 .blank).undone x.2)) m) n .blank).landed = l := by
  have still (us : List (Nat × Loc)) (m : KV MapEntry) (none : ∀ l, (n, l) ∉ us) :
      KV.getD (us.foldl (fun (m : KV MapEntry) x => KV.put m x.1 ((KV.getD m x.1 .blank).undone x.2)) m) n .blank =
        KV.getD m n .blank := by
    induction us generalizing m with
    | nil => rfl
    | cons u us ih =>
      have other : n ≠ u.1 := by
        rintro rfl
        exact none u.2 (by simp)
      exact (ih _ fun l mem => none l (by simp [mem])).trans (KV.getD_put_other _ _ _ other)
  refine ⟨still us m, fun pre l post is last => ?_⟩
  rw [is, List.foldl_append, List.foldl_cons, still post _ last, KV.getD_put_same]
  rfl

/-- The changes that remain, over the landed view (R264). -/
def reworked (xs : List Change) (m : KV MapEntry) : KV MapEntry :=
  xs.foldl (fun (m : KV MapEntry) x => KV.put m x.bay { KV.getD m x.bay .blank with working := x.loc }) m

theorem reworked_landed (xs : List Change) (m : KV MapEntry) (n : Nat) :
    (KV.getD (reworked xs m) n .blank).landed = (KV.getD m n .blank).landed := by
  induction xs generalizing m with
  | nil => rfl
  | cons x xs ih =>
    refine (ih _).trans ?_
    by_cases same : n = x.bay
    · subst same
      rw [KV.getD_put_same]
    · rw [KV.getD_put_other _ _ _ same]

theorem reworked_still (xs : List Change) (m : KV MapEntry) {n : Nat} (none : ∀ x ∈ xs, x.bay ≠ n) :
    KV.getD (reworked xs m) n .blank = KV.getD m n .blank := by
  induction xs generalizing m with
  | nil => rfl
  | cons x xs ih =>
    exact (ih _ fun y mem => none y (by simp [mem])).trans (KV.getD_put_other _ _ _ (Ne.symm (none x (by simp))))

theorem reworked_last (p q : List Change) (x : Change) (m : KV MapEntry) (last : ∀ y ∈ q, y.bay ≠ x.bay) :
    (KV.getD (reworked (p ++ x :: q) m) x.bay .blank).working = x.loc := by
  have split : reworked (p ++ x :: q) m = reworked q (KV.put (reworked p m) x.bay
      { KV.getD (reworked p m) x.bay .blank with working := x.loc }) := by
    unfold reworked
    rw [List.foldl_append, List.foldl_cons]
  rw [split, reworked_still q _ last, KV.getD_put_same]

/-- An entry whose working location is its landed one. -/
def MapEntry.grounded (e : MapEntry) : MapEntry := { e with working := e.landed }

theorem getD_grounded (m : KV MapEntry) (n : Nat) :
    KV.getD (m.map (fun x => (x.1, x.2.grounded))) n .blank = (KV.getD m n .blank).grounded := by
  have find := KV.find_mapValue m (fun _ e => e.grounded) n
  simp only [KV.getD, find]
  cases KV.find m n with
  | none => rfl
  | some e => rfl

/-- What reworking gives each bay: its landed location stays; its working location is that of the changes that remain, or the
landed one (R264). -/
theorem Views.rework_at (v : Views) (unmark : Bool) (n : Nat) : ((v.rework unmark).at n).landed = (v.at n).landed ∧
    ((v.rework unmark).at n).working =
      (KV.getD (reworked v.changes (v.map.map (fun x => (x.1, x.2.grounded)))) n .blank).working := by
  have find := KV.find_mapValue (reworked v.changes (v.map.map (fun x => (x.1, x.2.grounded))))
    (fun k e => { e with hmark := e.hmark && !(unmark && decide ((KV.getD v.map k .blank).working ≠ e.working)) }) n
  have entry : (v.rework unmark).at n = ((KV.find (reworked v.changes (v.map.map (fun x => (x.1, x.2.grounded)))) n).map
      (fun e => { e with hmark := e.hmark && !(unmark && decide ((KV.getD v.map n .blank).working ≠ e.working)) })).getD
      .blank := congrArg (·.getD .blank) find
  have landed := reworked_landed v.changes (v.map.map (fun x => (x.1, x.2.grounded))) n
  rw [getD_grounded] at landed
  rw [entry]
  refine ⟨?_, ?_⟩
  · refine Eq.trans ?_ landed
    unfold KV.getD
    cases KV.find (reworked v.changes (v.map.map (fun x => (x.1, x.2.grounded)))) n with
    | none => rfl
    | some e => rfl
  · unfold KV.getD
    cases KV.find (reworked v.changes (v.map.map (fun x => (x.1, x.2.grounded)))) n with
    | none => rfl
    | some e => rfl

/-- What a rollback of the last landing leaves of each bay (R394). -/
theorem Views.undoLanding_at (v : Views) (closed n : Nat) :
    ((∀ l, (n, l) ∉ v.undo) → ((v.undoLanding closed).at n).landed = (v.at n).landed) ∧
    (∀ pre l post, v.undo = pre ++ (n, l) :: post → (∀ j, (n, j) ∉ post) → ((v.undoLanding closed).at n).landed = l) ∧
    ((∀ x ∈ v.changes, x.bay = n → x.ord ≤ closed) →
      ((v.undoLanding closed).at n).working = ((v.undoLanding closed).at n).landed) ∧
    ∀ pre x post, v.changes = pre ++ x :: post → x.bay = n → closed < x.ord →
      (∀ y ∈ post, y.bay = x.bay → y.ord ≤ closed) → ((v.undoLanding closed).at n).working = x.loc := by
  obtain ⟨still, last⟩ := undoAll_at v.undo v.map n
  obtain ⟨landed, working⟩ := Views.rework_at { v with
    map := v.undo.foldl (fun (m : KV MapEntry) x => KV.put m x.1 ((KV.getD m x.1 .blank).undone x.2)) v.map, undo := []
    changes := v.changes.filter (fun x => decide (closed < x.ord)) } true n
  refine ⟨fun none => landed.trans (congrArg MapEntry.landed (still none)),
    fun pre l post is after => landed.trans (last pre l post is after), fun low => working.trans ?_,
    fun pre x post is bay above older => working.trans ?_⟩
  · have none : ∀ x ∈ v.changes.filter (fun x => decide (closed < x.ord)), x.bay ≠ n := by
      intro x mem same
      obtain ⟨mem, above⟩ := List.mem_filter.mp mem
      exact absurd (of_decide_eq_true above) (Nat.not_lt.mpr (low x mem same))
    rw [reworked_still _ _ none, getD_grounded]
    exact landed.symm
  · subst bay
    have kept : v.changes.filter (fun x => decide (closed < x.ord)) =
        pre.filter (fun x => decide (closed < x.ord)) ++ x :: post.filter (fun x => decide (closed < x.ord)) := by
      rw [is, List.filter_append, List.filter_cons_of_pos (by simpa using above)]
    dsimp only
    rw [kept]
    refine reworked_last _ _ x _ fun y mem same => ?_
    obtain ⟨mem, above⟩ := List.mem_filter.mp mem
    exact absurd (of_decide_eq_true above) (Nat.not_lt.mpr (older y mem same))

end Sys2Proof.Machine

/-! Landing and ROLLBACK bays programmed (R160, R266, R295, R313, R319, R372, R379, R394, R396, R527, R532). -/

namespace Sys2Proof.Machine

open Sys2Proof

/-! What the end of a landing has the twin link do (R527, R532 to R535). -/

/-- The card `d` is the card `c` but for the twin link, what has been sent, the ports' sequences and the Balcony's trace. -/
structure Heralds (c d : Card) : Prop where
  same : ∃ tw po b o, d = { c with twin := tw, ports := po, bal := b, out := o }
  tags : d.ports.tags = c.ports.tags
  low : lowCounts d.bal.counts = lowCounts c.bal.counts
  sent : ∃ l, d.out = l ++ c.out

theorem Heralds.refl (c : Card) : Heralds c c := ⟨⟨_, _, _, _, rfl⟩, rfl, rfl, [], rfl⟩

theorem Heralds.trans {c d e : Card} (h : Heralds c d) (k : Heralds d e) : Heralds c e := by
  obtain ⟨⟨_, _, _, _, is⟩, tags, low, l, sent⟩ := h
  obtain ⟨⟨tw, po, b, o, is'⟩, tags', low', l', sent'⟩ := k
  exact ⟨⟨tw, po, b, o, by rw [is', is]⟩, tags'.trans tags, low'.trans low, l' ++ l, by rw [sent', sent, List.append_assoc]⟩

theorem Heralds.of_twin (c : Card) (tw : Twin) : Heralds c { c with twin := tw } := ⟨⟨_, _, _, _, rfl⟩, rfl, rfl, [], rfl⟩

theorem Card.ev_heralds (c : Card) (n : Nat) (bs : List Byte) : Heralds c (c.ev n bs) := by
  have low := c.ev_low n bs
  obtain ⟨b, is⟩ := c.ev_balconyOnly n bs
  rw [is] at low ⊢
  exact ⟨⟨_, _, _, _, rfl⟩, rfl, low, [], rfl⟩

theorem Card.respond_heralds (c : Card) (p : Port) (kind : BitVec 2) (code : BitVec 6) (st : Status) (info : BitVec 24)
    (z : Bool) : Heralds c (c.respond p kind code st info z) := by
  have tags := c.respond_tags p kind code st info z
  by_cases up : c.portUp p = true
  · have is := Card.respond_eq (c := c) (p := p) kind code st info z up
    rw [is] at tags ⊢
    exact ⟨⟨_, _, _, _, rfl⟩, tags, rfl, [c.respNow p kind code st info z], rfl⟩
  · have is : c.respond p kind code st info z = c := if_neg up
    rw [is]
    exact .refl c

theorem Card.notice_heralds (c : Card) (code : BitVec 6) (info : BitVec 24) : Heralds c (c.notice code info) :=
  ((c.respond_heralds .ci 3 code 0 info false).trans (Card.respond_heralds _ .dci 3 code 0 info false)).trans
    (Card.ev_heralds _ _ _)

theorem Card.setPair_heralds (c : Card) (p : BitVec 8) (f : Flight) : Heralds c (c.setPair p f) := by
  unfold Card.setPair
  dsimp only
  split
  · exact ((Heralds.of_twin c _).trans (Card.ev_heralds _ _ _)).trans (Card.notice_heralds _ _ _)
  · exact (Heralds.of_twin c _).trans (Card.ev_heralds _ _ _)

theorem Card.judgeUp_heralds (c : Card) (n : Nat) : Heralds c (c.judgeUp n) := by
  induction n generalizing c with
  | zero =>
    unfold Card.judgeUp
    exact .refl c
  | succ n ih =>
    unfold Card.judgeUp
    split
    · next m v r b bs same _ _ =>
      obtain rfl : n = m := Nat.succ.inj same
      split
      · refine Heralds.trans ?_ (ih _)
        split
        · exact (Heralds.of_twin c _).trans (Card.setPair_heralds _ _ _)
        · exact (Heralds.of_twin c _).trans (Card.setPair_heralds _ _ _)
      · exact .refl c
    · exact .refl c

theorem Card.sendBurst_heralds (c : Card) (failed : Bool) : Heralds c (c.sendBurst failed) := by
  have send (d : Card) (o : Out) : Heralds d (d.send o) := ⟨⟨_, _, _, _, rfl⟩, rfl, rfl, [o], rfl⟩
  unfold Card.sendBurst
  dsimp only
  split
  · exact .refl c
  · exact ((Heralds.of_twin c _).trans (send _ _)).trans (Card.ev_heralds _ _ _)

theorem Card.twinEnd_heralds (c : Card) (f : Flight) (failed : Bool) : Heralds c (c.twinEnd f failed) := by
  unfold Card.twinEnd
  exact ((Heralds.of_twin c _).trans (Card.sendBurst_heralds _ failed)).trans (Card.judgeUp_heralds _ _)

/-! Answers (R239, R240). -/

/-- The command of a tag has been answered: its entry is completed, and its final response has gone out on its port. -/
def Card.answered (c t : Card) (g : Tag) (st : Status) (info : BitVec 24) : Prop :=
  ∀ e k, c.tagEntry g = some e → e.state = .outstanding k → t.tagEntry g = some { e with state := .completed st info } ∧
    (c.portUp e.port = true → ∃ r, .resp e.port r ∈ t.out ∧ r.kind = 0 ∧ r.code = g ∧ r.status = st ∧ r.info = info)

theorem Card.answered_finish {c d : Card} {g : Tag} (st : Status) (info : BitVec 24) (z : Bool)
    (entry : EntryStays (c.tagEntry g) (d.tagEntry g)) (dock : d.power.dock = c.power.dock) :
    c.answered (d.finish g st info z) g st info := by
  intro e k before out
  obtain ⟨k', entry'⟩ := entry.outstanding before out
  refine ⟨Card.finish_tagEntry d g st info z (e := { e with state := .outstanding k' }) entry' rfl, fun up => ?_⟩
  have up' : d.portUp e.port = true := by
    revert up
    unfold Card.portUp
    rw [dock]
    exact id
  obtain ⟨b, final⟩ := d.sendFinal_eq g st info z up'
  have sent := (d.finish_sends st info z entry' rfl).1.trans (by rw [final])
  rw [sent]
  exact ⟨_, List.mem_cons_self, rfl, rfl, rfl, rfl⟩

theorem Card.answered.heralds {c d e : Card} {g : Tag} {st : Status} {info : BitVec 24} (h : c.answered d g st info)
    (k : Heralds d e) : c.answered e g st info := by
  intro x cmd before out
  obtain ⟨entry, sent⟩ := h x cmd before out
  obtain ⟨l, later⟩ := k.sent
  refine ⟨by rw [← entry, Card.tagEntry, k.tags]; rfl, fun up => ?_⟩
  obtain ⟨r, mem, h⟩ := sent up
  exact ⟨r, by rw [later]; exact List.mem_append_right _ mem, h⟩

/-! With neither an action nor a MARK to place there is nothing to take further. -/

theorem Card.stepActs_none {c : Card} (acts : c.flights.acts = []) (due : c.flights.due = []) : c.stepActs = c := by
  have placed : c.placeDue = c := by
    unfold Card.placeDue
    split
    · rfl
    · rw [due, List.foldl_nil, ← due]
  unfold Card.stepActs
  dsimp only
  rw [placed, acts]
  rfl

/-! CLOSE's last steps (R160, R314). -/

/-- A window's end leaves the flights, the low counters and, but for inline reclaim's wings, the tags (R368). -/
structure WindowEnd (c d : Card) : Prop where
  flights : d.flights = c.flights
  low : lowCounts d.bal.counts = lowCounts c.bal.counts
  entry : ∀ t, EntryStays (c.tagEntry t) (d.tagEntry t)

theorem WindowEnd.refl (c : Card) : WindowEnd c c := ⟨rfl, rfl, fun _ => .refl _⟩

theorem WindowEnd.trans {c d e : Card} (h : WindowEnd c d) (k : WindowEnd d e) : WindowEnd c e :=
  ⟨k.flights.trans h.flights, k.low.trans h.low, fun t => (h.entry t).trans (k.entry t)⟩

theorem WindowEnd.of_rest {c d : Card} (h : d.rest = c.rest) (low : lowCounts d.bal.counts = lowCounts c.bal.counts) :
    WindowEnd c d := ⟨congrArg Rest.flights h, low, EntryStays.of_ports (congrArg Rest.ports h)⟩

theorem WindowEnd.foldl {α : Type} {f : Card → α → Card} (h : ∀ c x, WindowEnd c (f c x)) (l : List α) (c : Card) :
    WindowEnd c (l.foldl f c) := by
  induction l generalizing c with
  | nil => exact .refl c
  | cons x l ih => exact (h c x).trans (ih _)

theorem Card.cutErase_windowEnd (c : Card) (w : Nat) (hs : List Nat) : WindowEnd c (c.cutErase w hs) :=
  ⟨(c.cutErase_frame w hs).2.2.2.2.2.1, c.cutErase_low w hs, c.cutErase_stays w hs⟩

theorem Card.endErases_windowEnd (c : Card) (o : EraseOwner) : WindowEnd c (c.endErases o) := by
  have erases := WindowEnd.foldl (fun (c : Card) (x : Nat × WingErase) => c.cutErase_windowEnd x.1 (c.unbegun x.1 x.2))
    (c.halls.erases.filter (fun x => x.2.owner == o)) c
  exact ⟨erases.flights, erases.low, erases.entry⟩

theorem Card.cutWindow_windowEnd (c : Card) : WindowEnd c c.cutWindow := by
  have visit : WindowEnd c c.cutVisit := .of_rest c.cutVisit_rest (Card.keepJobs_low _ _)
  have moves : WindowEnd c.cutVisit (c.cutVisit.endMoves MoveWhy.windowed) :=
    .of_rest (Card.endMoves_rest _ _) (Card.endMoves_low _ _)
  exact (visit.trans moves).trans (Card.endErases_windowEnd _ _)

theorem Card.endOne_windowEnd (c : Card) (w : Window) (cause : Nat) : WindowEnd c (c.endOne w cause) := by
  have traced (d : Card) (bs : List Byte) : WindowEnd d (d.ev 18 bs) := .of_rest (d.ev_rest _ _) (d.ev_low _ _)
  have stopped : WindowEnd c { c with maint := { c.maint with running := c.maint.running.erase w } } :=
    ⟨rfl, rfl, fun _ => .refl _⟩
  unfold Card.endOne
  dsimp only
  refine WindowEnd.trans ?_ (traced _ _)
  split
  · exact stopped
  · exact stopped.trans (Card.cutWindow_windowEnd _)

theorem Card.dropWindows_windowEnd (c : Card) : WindowEnd c c.dropWindows := by
  have ended : WindowEnd c (c.endWindows 4) := .foldl (fun c w => c.endOne_windowEnd w 4) _ _
  exact ⟨ended.flights, ended.low, ended.entry⟩

theorem Card.abortErases_windowEnd (c : Card) : WindowEnd c c.abortErases :=
  .foldl (fun (c : Card) (x : Nat × WingErase) => c.cutErase_windowEnd x.1 (c.suspendedHalls x.1)) _ _

/-- DRAM in self-refresh, and the slot address CLOSE leaves (R160 steps 4 and 5). -/
def Card.refreshed (c : Card) : Card :=
  { c with views := { c.views with selfRefresh := true }, straps := { c.straps with closedSlot := c.straps.mountSlot } }

/-- With nothing held or in progress, CLOSE's last steps end its command and leave the flights but for MARKs (R160). -/
theorem Card.enterClosed_frame {c : Card} {g : Tag} (how : Nat) (acts : c.flights.acts = []) (held : c.flights.held = none)
    (hclk : c.power.hclk = true) : c.answered (c.enterClosed g how) g stOk (info3 how 0 0) ∧
    (c.enterClosed g how).phase = .closed ∧
    (c.enterClosed g how).flights = { c.flights with marks := [], due := [] } ∧
    (c.enterClosed g how).views = { c.views with selfRefresh := true } ∧ (c.enterClosed g how).power.lnd = false ∧
    lowCounts (c.enterClosed g how).bal.counts = lowCounts c.bal.counts := by
  have windows := c.dropWindows_windowEnd
  generalize cleared : ({ c.dropWindows with flights := { c.dropWindows.flights with
    held := none, marks := [], due := [], acts := [] } } : Card).sweep = d
  have dropped : c.dropActions = d := by
    unfold Card.dropActions
    dsimp only
    rw [windows.flights, acts, held, ← cleared, windows.flights]
    rfl
  have aborted := d.abortErases_windowEnd
  have flights : d.abortErases.flights = { c.flights with marks := [], due := [] } := by
    rw [aborted.flights, ← cleared]
    simp [windows.flights, acts, held]
  have far : d.abortErases.far = c.far := by
    rw [Card.abortErases_far, ← cleared]
    exact (Card.sweep_far _).trans c.dropWindows_far
  have low : lowCounts d.abortErases.bal.counts = lowCounts c.bal.counts := by
    rw [aborted.low, ← cleared]
    exact (Card.sweep_low _).trans windows.low
  have entry : EntryStays (c.tagEntry g) (d.abortErases.tagEntry g) := by
    refine (windows.entry g).trans (EntryStays.trans ?_ (aborted.entry g))
    rw [← cleared]
    exact .of_ports (by simp) g
  have power : d.abortErases.power = c.power := congrArg Far.power far
  have views : d.abortErases.views = c.views := congrArg Far.views far
  have shape : c.enterClosed g how = ((d.abortErases.refreshed.finish g stOk (info3 how 0 0) false).enter .closed).driveLnd := by
    unfold Card.enterClosed
    rw [dropped]
    rfl
  have answer := Card.answered_finish (c := c) (d := d.abortErases.refreshed) stOk (info3 how 0 0) false entry
    (congrArg Power.dock power)
  rw [shape]
  refine ⟨fun e k before out => ?_, by simp, by simp [Card.refreshed, flights], by simp [Card.refreshed, views], ?_, ?_⟩
  · obtain ⟨completed, sent⟩ := answer e k before out
    exact ⟨by simpa [Card.tagEntry] using completed, by simpa using sent⟩
  · rw [Card.driveLnd_lnd]
    simp [Card.refreshed, power, hclk]
  · rw [(Card.driveLnd_frame _).2.2.2.2.2.2.2.2.2.2.2.2.2.1]
    unfold Card.enter
    split
    · rw [Card.finish_low]
      exact low
    · rw [Card.ev_low]
      exact (Card.finish_low _ _ _ _ _).trans low

/-! A landing bay programmed (R379 step 5). -/

/-- The card once a landing's range has landed, before the answers (R266, R372, R379 step 5). -/
def Card.ashore (c : Card) (a : Action) (b : Bay) (r : LandingRec) : Card :=
  let l : Landed := { flight := r.flight, tread := r.tread, prev := r.prev, first := r.first, last := r.last,
                      seq := b.seq, digest := r.digest, slot := r.slot }
  let c := { c with
    views := c.views.land r.first r.last
    flights := { c.flights with
      base := a.opened, last := some l, before := c.flights.last, canRoll := true, moved := false, voided := 0,
      records := c.flights.records.filter (fun x => !(decide (r.first ≤ x.ord ∧ x.ord ≤ r.last))),
      absent := c.flights.absent.filter (fun x => decide (r.last < x.2)),
      digest := r.digest,
      history := c.addHistory { flight := r.flight, digest := r.digest, prev := r.prev } } }
  let c := (c.carryLosses r.flight b.seq r.losses).removeAct a
  (c.bump 7 1).ev 14 (leBytes 4 a.flight.toNat ++ [1])

theorem Card.landed_eq (c : Card) (a : Action) {b : Bay} {r : LandingRec} (body : b.body = .landing r) : c.landed a b =
    (match a.src with
      | .close _ => ((c.ashore a b r).twinEnd a.flight false).landingResponse a true
      | _ => ((c.ashore a b r).landingResponse a true).twinEnd a.flight false).stepActs := by
  unfold Card.landed
  rw [body]
  rfl

theorem Card.ashore_frame {c : Card} {a : Action} (b : Bay) (r : LandingRec) (only : c.flights.acts = [a])
    (held : c.flights.held = none) (hclk : c.power.hclk = true) :
    (c.ashore a b r).flights.acts = [] ∧ (c.ashore a b r).flights.held = none ∧
    (c.ashore a b r).flights.due = c.flights.due ∧ (c.ashore a b r).power.lnd = false ∧
    (c.ashore a b r).power.hclk = true ∧ (c.ashore a b r).power.dock = c.power.dock ∧
    (c.ashore a b r).views = c.views.land r.first r.last ∧ (c.ashore a b r).ports = c.ports ∧
    (c.ashore a b r).out = c.out ∧ (c.ashore a b r).twin = c.twin ∧ (c.ashore a b r).straps = c.straps ∧
    (c.ashore a b r).count 7 = (c.count 7 + 1) % 2 ^ 32 := by
  have power (d : Card) : d.driveLnd.power.hclk = d.power.hclk ∧ d.driveLnd.power.dock = d.power.dock := by
    unfold Card.driveLnd
    split <;> exact ⟨rfl, rfl⟩
  refine ⟨?_, ?_, ?_, ?_, ?_, ?_, ?_, ?_, ?_, ?_, ?_, ?_⟩
  · simp [Card.ashore, Card.removeAct, Card.carryLosses, only]
  · simp [Card.ashore, Card.removeAct, Card.carryLosses, held]
  · simp [Card.ashore, Card.removeAct, Card.carryLosses]
  · simp [Card.ashore, Card.removeAct, Card.carryLosses, Card.driveLnd_lnd, only, held, hclk]
  · simp [Card.ashore, Card.removeAct, Card.carryLosses, power, hclk]
  · simp [Card.ashore, Card.removeAct, Card.carryLosses, power]
  · simp [Card.ashore, Card.carryLosses]
  · simp [Card.ashore, Card.carryLosses]
  · simp [Card.ashore, Card.carryLosses]
  · simp [Card.ashore, Card.carryLosses]
  · simp [Card.ashore, Card.carryLosses]
  · unfold Card.ashore
    dsimp only
    rw [Card.count_ev, Card.count_bump_same _ _ (by decide)]
    refine congrArg (fun n => (n + 1) % 2 ^ 32) (Card.count_of_bal ?_ 7)
    simp [Card.carryLosses]

/-- What the answers at a landing's end leave of the card it has landed on: all but the rest of what CLOSE drops. -/
structure Ashore (d t : Card) : Prop where
  flights : ∃ m, t.flights = { d.flights with marks := m, due := [] }
  views : ∃ s, t.views = { d.views with selfRefresh := s }
  lnd : t.power.lnd = false
  count : t.count 7 = d.count 7

theorem Ashore.refl {d : Card} (due : d.flights.due = []) (lnd : d.power.lnd = false) : Ashore d d :=
  ⟨⟨d.flights.marks, by rw [← due]⟩, ⟨d.views.selfRefresh, rfl⟩, lnd, rfl⟩

theorem Ashore.heralds {d t u : Card} (h : Ashore d t) (k : Heralds t u) : Ashore d u := by
  obtain ⟨⟨_, _, _, _, is⟩, -, low, -⟩ := k
  refine ⟨by rw [is]; exact h.flights, by rw [is]; exact h.views, by rw [is]; exact h.lnd, ?_⟩
  exact (Card.count_of_low low (by decide)).trans h.count

theorem Ashore.finish {d t : Card} (h : Ashore d t) (g : Tag) (st : Status) (info : BitVec 24) (z : Bool) :
    Ashore d (t.finish g st info z) := by
  refine ⟨by simpa using h.flights, by simpa using h.views, by simpa using h.lnd, ?_⟩
  exact (Card.count_of_low (t.finish_low g st info z) (by decide)).trans h.count

/-- With nothing to take further that is the card. -/
theorem Ashore.stepActs {d t : Card} (h : Ashore d t) (acts : d.flights.acts = []) : t.stepActs = t := by
  obtain ⟨m, flights⟩ := h.flights
  exact Card.stepActs_none (by rw [flights]; exact acts) (by rw [flights])

section LandingEnds

variable {c : Card} {a : Action} {b : Bay} {r : LandingRec}

/-- Without CLOSE the answer comes first, and the verdict after it (R379 step 5). -/
theorem Card.landed_answers (body : b.body = .landing r) (only : c.flights.acts = [a]) (held : c.flights.held = none)
    (hclk : c.power.hclk = true) (src : ∀ g, a.src ≠ .close g) {t : Card} (answer : (c.ashore a b r).landingResponse a true = t)
    (ashore : Ashore (c.ashore a b r) t) :
    c.landed a b = t.twinEnd a.flight false ∧ Ashore (c.ashore a b r) (c.landed a b) := by
  have acts := (Card.ashore_frame b r only held hclk).1
  have told := ashore.heralds (t.twinEnd_heralds a.flight false)
  have is : c.landed a b = t.twinEnd a.flight false := by
    refine Eq.trans ?_ (told.stepActs acts)
    rw [c.landed_eq a body, ← answer]
    cases from' : a.src with
    | close g => exact absurd from' (src g)
    | _ => rfl
  exact ⟨is, is ▸ told⟩

/-- The card ashore, before the answers, is where they start. -/
theorem Card.ashore_start (only : c.flights.acts = [a]) (held : c.flights.held = none) (due : c.flights.due = [])
    (hclk : c.power.hclk = true) : Ashore (c.ashore a b r) (c.ashore a b r) := by
  obtain ⟨-, -, dueD, lnd, -⟩ := Card.ashore_frame b r only held hclk
  exact .refl (dueD.trans due) lnd

/-- A SYNC LAND's landing answers nobody. -/
theorem Card.landed_sync (body : b.body = .landing r) (only : c.flights.acts = [a]) (held : c.flights.held = none)
    (due : c.flights.due = []) (hclk : c.power.hclk = true) {n : Byte} (src : a.src = .sync n) :
    Ashore (c.ashore a b r) (c.landed a b) ∧
      (c.straps.role = .solo → c.twin.waits = [] → (c.landed a b).out = c.out) := by
  obtain ⟨-, -, -, -, -, -, -, -, out, twin, straps, -⟩ := Card.ashore_frame b r only held hclk
  obtain ⟨is, ashore⟩ := Card.landed_answers body only held hclk (fun g => by simp [src])
    (t := c.ashore a b r) (by simp only [Card.landingResponse, src]) (Card.ashore_start only held due hclk)
  refine ⟨ashore, fun solo unjudged => ?_⟩
  rw [is, Card.twinEnd_solo _ _ (by rw [straps]; exact solo) (by rw [twin]; exact unjudged), out]

/-- A LAND is answered (R319). -/
theorem Card.landed_cmd (body : b.body = .landing r) (only : c.flights.acts = [a]) (held : c.flights.held = none)
    (due : c.flights.due = []) (hclk : c.power.hclk = true) {g : Tag} (src : a.src = .cmd g) :
    Ashore (c.ashore a b r) (c.landed a b) ∧
      c.answered (c.landed a b) g stOk (info3 1 (if a.late = 0 then 0 else 1) 0) := by
  obtain ⟨-, -, -, -, -, dock, -, ports, -⟩ := Card.ashore_frame b r only held hclk
  obtain ⟨is, ashore⟩ := Card.landed_answers body only held hclk (fun g => by simp [src])
    (t := (c.ashore a b r).finish g stOk (info3 1 (if a.late = 0 then 0 else 1) 0) false)
    (by simp only [Card.landingResponse, src]; rfl) ((Card.ashore_start only held due hclk).finish _ _ _ _)
  refine ⟨ashore, ?_⟩
  rw [is]
  exact (Card.answered_finish stOk _ false (EntryStays.of_ports ports g) dock).heralds (Card.twinEnd_heralds _ _ _)

/-- A LAND-AFTER WRITE is answered once its inline work has ended (R295, R453). -/
theorem Card.landed_landAfter (body : b.body = .landing r) (only : c.flights.acts = [a]) (held : c.flights.held = none)
    (due : c.flights.due = []) (hclk : c.power.hclk = true) {g : Tag} (src : a.src = .landAfter g) :
    Ashore (c.ashore a b r) (c.landed a b) ∧ ∀ w, c.cmdOf g = some (.write w) →
      (w.inlineDone = true → c.answered (c.landed a b) g stOk (info3 1 0 0)) ∧
      (w.inlineDone = false → (c.landed a b).cmdOf g = some (.write { w with stage := .landed 1 })) := by
  obtain ⟨-, -, -, -, -, dock, -, ports, -⟩ := Card.ashore_frame b r only held hclk
  have start := Card.ashore_start (b := b) (r := r) only held due hclk
  have response : (c.ashore a b r).landingResponse a true = (c.ashore a b r).landedResponse g 1 := by
    simp only [Card.landingResponse, src]
    rfl
  have counted (w : WriteWork) : Ashore (c.ashore a b r) ((c.ashore a b r).countWritten w) ∧
      ((c.ashore a b r).countWritten w).ports = c.ports ∧
      ((c.ashore a b r).countWritten w).power.dock = c.power.dock := by
    unfold Card.countWritten
    split
    · exact ⟨start, ports, dock⟩
    · exact ⟨⟨start.flights, start.views, start.lnd, Card.count_bump_other _ _ (by decide)⟩, ports, dock⟩
  have ashore : Ashore (c.ashore a b r) ((c.ashore a b r).landedResponse g 1) := by
    unfold Card.landedResponse
    split
    · split
      · exact (counted _).1.finish _ _ _ _
      · exact ⟨by simpa using start.flights, by simpa using start.views, by simpa using start.lnd,
          Card.count_of_bal (Card.setCmd_frame _ _ _).2.2.2.2.2.2.2.2.2.2.2.2.2.1 7⟩
    · exact start
  obtain ⟨is, ended⟩ := Card.landed_answers body only held hclk (fun g => by simp [src]) response ashore
  refine ⟨ended, fun w cmd => ?_⟩
  have cmd' : (c.ashore a b r).cmdOf g = some (.write w) := by
    rw [← cmd]
    exact Card.cmdOf_of_tags (by rw [ports]) g
  refine ⟨fun done => ?_, fun busy => ?_⟩
  · have finished : (c.ashore a b r).landedResponse g 1 =
        ((c.ashore a b r).countWritten w).finish g stOk (info3 1 0 0) false := by
      simp only [Card.landedResponse, cmd', done]
      simp
    obtain ⟨-, ports', dock'⟩ := counted w
    rw [is, finished]
    exact (Card.answered_finish stOk _ false (EntryStays.of_ports ports' g) dock').heralds (Card.twinEnd_heralds _ _ _)
  · have waits : (c.ashore a b r).landedResponse g 1 = (c.ashore a b r).setCmd g (.write { w with stage := .landed 1 }) := by
      simp only [Card.landedResponse, cmd', busy]
      simp
    rw [is, waits]
    exact (Card.cmdOf_of_tags (Card.twinEnd_heralds _ _ _).tags g).trans (Card.setCmd_cmdOf _ g _ cmd')

/-- CLOSE is answered as the card is CLOSED, after the verdict (R160, R314). -/
theorem Card.landed_close (body : b.body = .landing r) (only : c.flights.acts = [a]) (held : c.flights.held = none)
    (hclk : c.power.hclk = true) {g : Tag} (src : a.src = .close g) :
    Ashore (c.ashore a b r) (c.landed a b) ∧ c.answered (c.landed a b) g stOk (info3 1 0 0) ∧
      (c.landed a b).phase = .closed ∧ (c.landed a b).views.selfRefresh = true := by
  obtain ⟨acts, heldD, dueD, lnd, hclkD, dock, -, ports, -⟩ := Card.ashore_frame b r only held hclk
  have herald := (c.ashore a b r).twinEnd_heralds a.flight false
  generalize told : (c.ashore a b r).twinEnd a.flight false = d at herald
  obtain ⟨⟨tw, po, ba, o, at'⟩, tags, low, l, sent⟩ := herald
  obtain ⟨answer, phase, flights, views, lnd', low'⟩ := Card.enterClosed_frame (c := d) (g := g) 1
    (by rw [at']; exact acts) (by rw [at']; exact heldD) (by rw [at']; exact hclkD)
  have ended : Ashore (c.ashore a b r) (d.enterClosed g 1) := by
    refine ⟨⟨[], by rw [flights, at']⟩, ⟨true, by rw [views, at']⟩, lnd', ?_⟩
    exact (Card.count_of_low (low'.trans low) (by decide))
  have is : c.landed a b = d.enterClosed g 1 := by
    have response : d.landingResponse a true = d.enterClosed g 1 := by
      unfold Card.landingResponse
      rw [src]
      exact if_pos rfl
    rw [c.landed_eq a body, src]
    dsimp only
    rw [told, response, ended.stepActs acts]
  rw [is]
  refine ⟨ended, fun e k before out => ?_, phase, by rw [views]⟩
  have dockD : d.power.dock = c.power.dock := by rw [at']; exact dock
  have before' : d.tagEntry g = some e := by rw [← before, Card.tagEntry, tags, ports]; rfl
  obtain ⟨completed, responded⟩ := answer e k before' out
  refine ⟨completed, fun up => responded ?_⟩
  revert up
  unfold Card.portUp
  rw [dockD]
  exact id

end LandingEnds

/-! A ROLLBACK bay programmed (R394, R396). -/

/-- The card once a rollback has taken the last landing back, before its answer (R394). -/
def Card.returned (c : Card) (a : Action) (r : RollbackRec) : Card :=
  let p := c.restoredLanding r.restored
  let c := { c.nextFree with
    views := c.views.undoLanding r.closed
    flights := { c.flights with
      base := a.opened, last := p, before := none, canRoll := false, voided := 0,
      records := c.flights.records.filter (fun x => decide (r.closed < x.ord)),
      absent := c.flights.absent.filter (fun x => decide (r.closed < x.2)),
      digest := (p.map Landed.digest).getD 0,
      history := c.flights.history.filter (fun d => d.flight != r.flight) } }
  ((c.removeAct a).bump 9 1).ev 15 (leBytes 4 r.flight.toNat ++ leBytes 4 r.restored.toNat)

theorem Card.returned_frame {c : Card} {a : Action} (r : RollbackRec) (only : c.flights.acts = [a]) :
    (∃ x y z w, (c.returned a r).flights = { c.flights with
      acts := [], base := a.opened, last := c.restoredLanding r.restored, before := none, canRoll := false, voided := 0,
      records := x, absent := y, digest := z, history := w }) ∧
    (c.returned a r).views = c.views.undoLanding r.closed ∧ (c.returned a r).ports = c.ports ∧
    (c.returned a r).power.dock = c.power.dock ∧ (c.returned a r).count 9 = (c.count 9 + 1) % 2 ^ 32 := by
  have dock (d : Card) : d.driveLnd.power.dock = d.power.dock := by
    unfold Card.driveLnd
    split <;> rfl
  refine ⟨⟨c.flights.records.filter (fun x => decide (r.closed < x.ord)),
    c.flights.absent.filter (fun x => decide (r.closed < x.2)), ((c.restoredLanding r.restored).map Landed.digest).getD 0,
    c.flights.history.filter (fun d => d.flight != r.flight), ?_⟩, ?_, ?_, ?_, ?_⟩
  · simp [Card.returned, Card.removeAct, Card.nextFree, only]
  · simp [Card.returned]
  · simp [Card.returned, Card.nextFree]
  · simp [Card.returned, Card.removeAct, Card.nextFree, dock]
  · unfold Card.returned
    dsimp only
    rw [Card.count_ev, Card.count_bump_same _ _ (by decide)]
    exact congrArg (fun n => (n + 1) % 2 ^ 32) (Card.count_of_bal (by simp [Card.nextFree]) 9)

/-- The rollback's command is answered; nothing else is left to do (R320, R394). -/
theorem Card.rolledBack_ends {c : Card} {a : Action} {b : Bay} {r : RollbackRec} (body : b.body = .rollback r)
    (only : c.flights.acts = [a]) (due : c.flights.due = []) :
    (c.rolledBack a b).flights = (c.returned a r).flights ∧ (c.rolledBack a b).views = (c.returned a r).views ∧
    (c.rolledBack a b).count 9 = (c.returned a r).count 9 ∧
    ∀ g, a.src = .cmd g → c.answered (c.rolledBack a b) g stOk (info3 1 0 0) := by
  obtain ⟨⟨_, _, _, _, flights⟩, -, ports, dock, -⟩ := Card.returned_frame r only
  have still (t : Card) (same : t.flights = (c.returned a r).flights) : t.stepActs = t :=
    Card.stepActs_none (by rw [same, flights]) (by rw [same, flights]; exact due)
  by_cases src : ∃ g, a.src = .cmd g
  · obtain ⟨g, src⟩ := src
    have is : c.rolledBack a b = (c.returned a r).finish g stOk (info3 1 0 0) false := by
      refine Eq.trans ?_ (still _ (by simp))
      unfold Card.rolledBack
      rw [body, src]
      rfl
    rw [is]
    refine ⟨by simp, by simp, Card.count_of_low (Card.finish_low _ _ _ _ _) (by decide), fun g' same => ?_⟩
    obtain rfl : g = g' := ActSrc.cmd.inj (src.symm.trans same)
    exact Card.answered_finish stOk _ false (EntryStays.of_ports ports g) dock
  · have is : c.rolledBack a b = c.returned a r := by
      refine Eq.trans ?_ (still _ rfl)
      unfold Card.rolledBack
      rw [body]
      cases from' : a.src with
      | cmd g => exact absurd ⟨g, from'⟩ src
      | _ => rfl
    rw [is]
    exact ⟨rfl, rfl, rfl, fun g same => absurd ⟨g, same⟩ src⟩

/-- The flight a rollback makes the last one again (R376, R394). -/
theorem Card.restoredLanding_flight (c : Card) (p : Flight) :
    ((c.restoredLanding p).map Landed.flight).getD 0 = p ∧
    ∀ l, c.flights.before = some l → l.flight = p → c.restoredLanding p = some l := by
  have lost : ((c.lostLanding p).map Landed.flight).getD 0 = p := by
    unfold Card.lostLanding
    split
    · next zero => exact zero.symm
    · rfl
  unfold Card.restoredLanding
  cases before : c.flights.before with
  | none => exact ⟨lost, fun l is => by cases is⟩
  | some b =>
    by_cases same : b.flight = p
    · exact ⟨by simp [same], fun l is _ => by simpa [same] using is⟩
    · refine ⟨by simpa [same] using lost, fun l is at' => ?_⟩
      obtain rfl := Option.some.inj is
      exact absurd at' same

/-- Settles O53: each source's answer, the views by their lemmas, the rest by what is left ashore. -/
theorem baysOfActionsLand : Obligations.BaysOfActionsLand := by
  unfold Obligations.BaysOfActionsLand
  refine fun c a b only held due hclk => ⟨fun r body => ?_, fun r body => ?_⟩
  · obtain ⟨acts, -, -, -, -, -, views, -, -, -, -, counted⟩ := Card.ashore_frame b r only held hclk
    have ended : Ashore (c.ashore a b r) (c.landed a b) := by
      cases src : a.src with
      | sync n => exact (Card.landed_sync body only held due hclk src).1
      | cmd g => exact (Card.landed_cmd body only held due hclk src).1
      | landAfter g => exact (Card.landed_landAfter body only held due hclk src).1
      | close g => exact (Card.landed_close body only held hclk src).1
    obtain ⟨⟨m, flights⟩, ⟨sr, views'⟩, lnd, count⟩ := ended
    rw [views] at views'
    have entry (n : Nat) : (c.landed a b).entry n = (c.views.land r.first r.last).at n := by
      rw [Card.entry, views']
      rfl
    have keeps (n : Nat) := c.views.land_keeps r.first r.last n
    refine ⟨by rw [flights]; exact acts, lnd, by rw [flights]; simp [Card.ashore, Card.removeAct, Card.carryLosses], ?_, ?_, ?_,
      ?_, ?_, count.trans counted, ?_, fun n => ?_, fun n none => ?_, fun pre x post is takes older newer => ?_,
      fun n src solo unjudged => (Card.landed_sync body only held due hclk src).2 solo unjudged,
      fun g src => (Card.landed_cmd body only held due hclk src).2,
      fun g w src cmd => (Card.landed_landAfter body only held due hclk src).2 w cmd,
      fun g src => (Card.landed_close body only held hclk src).2⟩
    · rw [flights]; simp [Card.ashore, Card.removeAct, Card.carryLosses]
    · rw [flights]; simp [Card.ashore, Card.removeAct, Card.carryLosses]
    · rw [flights]; simp [Card.ashore, Card.removeAct, Card.carryLosses]
    · rw [flights]; simp [Card.ashore, Card.removeAct, Card.carryLosses]
    · exact (c.landed_keeps a b).2.1
    · rw [views']
      exact (keeps 0).2.2.2
    · rw [entry]
      exact ⟨(keeps n).1, (keeps n).2.1⟩
    · rw [entry]
      exact (keeps n).2.2.1 none
    · rw [entry]
      exact Views.land_takes is takes.2 older newer
  · obtain ⟨⟨_, _, _, _, flightsR⟩, viewsR, -, -, countedR⟩ := Card.returned_frame r only
    obtain ⟨flights, views, counted, answer⟩ := Card.rolledBack_ends body only due
    rw [flightsR] at flights
    rw [viewsR] at views
    have entry (n : Nat) : (c.rolledBack a b).entry n = (c.views.undoLanding r.closed).at n := by
      rw [Card.entry, views]
      rfl
    have undone (n : Nat) := c.views.undoLanding_at r.closed n
    obtain ⟨restored, known⟩ := c.restoredLanding_flight r.restored
    refine ⟨by rw [flights], by rw [flights]; exact restored, fun l before same => by rw [flights]; exact known l before same,
      by rw [flights], by rw [flights], by rw [flights], ?_, views, counted.trans countedR, fun n none => ?_,
      fun pre n l post is last => ?_, fun n low => ?_, fun pre x post is above older => ?_, answer⟩
    · exact congrArg Keep.cells (c.rolledBack_keep a b)
    · rw [entry]
      exact (undone n).1 none
    · rw [entry]
      exact (undone n).2.1 pre l post is last
    · rw [entry]
      exact (undone n).2.2.1 low
    · rw [entry]
      exact (undone x.bay).2.2.2 pre x post is rfl above older

end Sys2Proof.Machine

/-! READ, VERIFY, READ STREAM and STOP (R259 to R282). -/

namespace Sys2Proof.Machine

open Sys2Proof

/-! What the card told of a command that is outstanding, and what it sends of a transfer. -/

/-- The final response as it goes out. -/
theorem Card.finish_out {c : Card} {t : Tag} {e : TagEntry} {k : Cmd} (st : Status) (info : BitVec 24) (z : Bool)
    (entry : c.tagEntry t = some e) (out : e.state = .outstanding k) (up : c.portUp e.port = true) :
    (c.finish t st info z).out = c.respNow e.port 0 t st info z :: c.out := by
  obtain ⟨b, final⟩ := c.sendFinal_eq t st info z up
  rw [(c.finish_sends st info z entry out).1, final]

/-- The card with a transfer sent for a command (R192). -/
def Card.sent (c : Card) (t : Tag) (e : TagEntry) (bytes : List Byte) : Card :=
  { c with freeCount := c.freeCount + 4,
           out := .c2h { tag := t, issue := e.issue, lanes := c.link.lanes, bytes := bytes, seed := c.freeCount } :: c.out }

theorem Card.sendC2h_eq {c : Card} {t : Tag} {e : TagEntry} (bytes : List Byte) (entry : c.tagEntry t = some e) :
    c.sendC2h t bytes = c.sent t e bytes := by
  unfold Card.sendC2h
  rw [entry]
  rfl

theorem Card.needLanes_up {c : Card} (t : Tag) (body : Card → Card) (up : c.link.mode = .up) : c.needLanes t body = body c := by
  simp [Card.needLanes, Card.linkUp, up]

/-- A command's work set, its tag outstanding. -/
theorem Card.setCmd_eq {c : Card} {t : Tag} {e : TagEntry} {j : Cmd} (k : Cmd) (entry : c.tagEntry t = some e)
    (out : e.state = .outstanding j) : c.setCmd t k = c.putTag t { e with state := .outstanding k } := by
  simp only [Card.setCmd, entry, out]

theorem Card.accept_count (c : Card) (op : Byte) (f : Frame) (k : Cmd) {n : Nat} (h : n ≠ 2) (h' : n ≠ 3) :
    (c.accept op f k).count n = c.count n := by
  have taken : (c.countTaken f.port).count n = c.count n := by
    unfold Card.countTaken
    cases f.port
    · exact Card.count_bump_other _ _ h
    · exact Card.count_bump_other _ _ h'
  rw [← taken]
  exact Card.count_ev _ _ _ _

/-! The reads of a list of pieces. -/

theorem Card.startReads_zeros {c : Card} {ps : List Piece} (p : Nat → Purpose) (strict : Bool)
    (zeros : ∀ x ∈ ps, x.src = .zero) : c.startReads ps p strict = c := by
  have stays {x : Piece × Nat} (mem : x ∈ ps.zipIdx) : x.1.src = .zero := zeros _ (List.fst_mem_of_mem_zipIdx mem)
  unfold Card.startReads
  generalize ps.zipIdx = l at stays
  induction l with
  | nil => rfl
  | cons x r ih =>
    simp only [List.foldl_cons, stays List.mem_cons_self]
    exact ih fun mem => stays (List.mem_cons_of_mem x mem)

theorem Card.markRefresh_freeCount (c : Card) (w trigger : Nat) : (c.markRefresh w trigger).freeCount = c.freeCount := by
  unfold Card.markRefresh
  dsimp only
  split <;> simp

theorem Card.storeLoss_freeCount (c : Card) (e : Loss) : (c.storeLoss e).freeCount = c.freeCount := by
  unfold Card.storeLoss
  generalize c.losses.store.any _ = known
  generalize decide (c.losses.store.length < Config.lossStore) = room
  cases known <;> cases room <;> simp

theorem Card.addLoss_freeCount (c : Card) (k : Nat) (source : LossSource) (blind : Bool) :
    (c.addLoss k source blind).freeCount = c.freeCount := by
  unfold Card.addLoss
  split
  · exact Card.storeLoss_freeCount _ _
  · rfl

theorem Card.notePiece_freeCount (c : Card) (p : Piece) (q : Purpose) (strict : Bool) (k : Nat) :
    (c.notePiece p q strict k).freeCount = c.freeCount := by
  unfold Card.notePiece
  (repeat' split) <;> simp [Card.markRefresh_freeCount, Card.addLoss_freeCount]

/-- Pieces that are all there call for no descriptor, and leave the free values. -/
theorem Card.startReads_freeCount {c : Card} {ps : List Piece} (p : Nat → Purpose) (strict : Bool)
    (ready : ∀ x ∈ ps, x.ready = true) : (c.startReads ps p strict).freeCount = c.freeCount := by
  have stays {x : Piece × Nat} (mem : x ∈ ps.zipIdx) : x.1.ready = true := ready _ (List.fst_mem_of_mem_zipIdx mem)
  unfold Card.startReads
  generalize ps.zipIdx = l at stays
  induction l generalizing c with
  | nil => rfl
  | cons x r ih =>
    rw [List.foldl_cons, ih fun mem => stays (List.mem_cons_of_mem x mem)]
    split
    · rw [if_pos (stays List.mem_cons_self)]
      exact Card.notePiece_freeCount _ _ _ _ _
    · rfl

/-- What a read ends with: LOST with the first lost bay's offset, or OK (R270). -/
def ReadWork.verdict (w : ReadWork) : Status × BitVec 24 :=
  match w.lostAt with
  | some o => (stLost, info3 o (o / 256) 0)
  | none => (stOk, 0)

theorem Card.finishRead_waits {c : Card} (t : Tag) {w : ReadWork} (waits : w.ready = false) : c.finishRead t w = c := by
  simp [Card.finishRead, waits]

theorem Card.finishRead_eq {c : Card} {t : Tag} {e : TagEntry} {w : ReadWork} (ready : w.ready = true)
    (up : c.link.mode = .up) (entry : c.tagEntry t = some e) : c.finishRead t w =
      ((c.sent t e (w.data c.dataKey)).countBytes (4096 * w.count)).finish t w.verdict.1 w.verdict.2 w.zeros := by
  unfold Card.finishRead ReadWork.verdict
  rw [if_pos ready, Card.needLanes_up t _ up]
  dsimp only
  rw [Card.sendC2h_eq _ entry]
  cases w.lostAt <;> rfl

theorem Card.finishVerify_eq {c : Card} {t : Tag} {e : TagEntry} {w : ReadWork} (ready : w.ready = true)
    (up : c.link.mode = .up) (entry : c.tagEntry t = some e) : c.finishVerify t w =
      (c.sent t e (w.pieces.map Piece.grade)).finish t stOk
        (info3 ((w.pieces.map Piece.grade).count 1) ((w.pieces.map Piece.grade).count 2) 0) false := by
  unfold Card.finishVerify
  rw [if_pos ready, Card.needLanes_up t _ up]
  dsimp only
  rw [Card.sendC2h_eq _ entry]

/-- Pieces without a place in them are there. -/
theorem Piece.ready_of_zero {p : Piece} (h : p.src = .zero) : p.ready = true := by
  simp [Piece.ready, h]

/-- Where the view has no bay at a place, its pieces are zeros that wait for nothing. -/
theorem Card.piecesOf_zero {c : Card} {v : Bool} {bays : List Nat} (h : ∀ b ∈ bays, ∀ k, c.resolve v b ≠ .at k) {p : Piece}
    (mem : p ∈ c.piecesOf v bays) : p.src = .zero ∧ p.val = .waiting := by
  obtain ⟨b, at_, rfl⟩ := List.mem_map.mp mem
  refine ⟨?_, rfl⟩
  rcases r : c.resolve v b with _ | _ | k
  · rfl
  · rfl
  · exact absurd r (h b at_ k)

theorem Card.prefetch_zero {c : Card} {strict : Bool} {p : Piece} (h : p.src = .zero) : c.prefetch strict p = p := by
  simp [Card.prefetch, h]

theorem flatMap_zeros {f : Nat → List Byte} (h : ∀ i, f i = List.replicate 4096 0) (n : Nat) :
    (List.range n).flatMap f = List.replicate (4096 * n) 0 := by
  induction n with
  | zero => rfl
  | succ n ih =>
    rw [List.range_succ, List.flatMap_append, ih, List.flatMap_singleton, h, List.replicate_append_replicate, Nat.mul_succ]

/-- Pieces of zeros that are read as they stand. -/
theorem ReadWork.zero_data {w : ReadWork} (key : Option (BitVec 512)) (h : ∀ p ∈ w.pieces, p.val = .waiting) :
    w.data key = List.replicate (4096 * w.count) 0 := by
  refine flatMap_zeros (fun i => ?_) _
  split
  · next p found =>
    unfold Piece.bytes
    rw [h p (List.mem_of_find?_eq_some found)]
  · rfl

theorem ReadWork.zero_zeros {w : ReadWork} (h : ∀ p ∈ w.pieces, p.val = .waiting) (some_ : 1 ≤ w.count) : w.zeros = true := by
  refine List.any_eq_true.mpr ⟨0, List.mem_range.mpr some_, ?_⟩
  split
  · next p found => simp [h p (List.mem_of_find?_eq_some found)]
  · rfl

theorem ReadWork.zero_lostAt {w : ReadWork} (h : ∀ p ∈ w.pieces, p.val = .waiting) : w.lostAt = none := by
  simp only [ReadWork.lostAt, Option.map_eq_none_iff, List.find?_eq_none]
  intro p mem
  simp [h p mem]

/-! READ on a card whose link is up (R267 to R273). -/

/-- A READ's work as it is accepted (R267). -/
def Card.readOf (c : Card) (f : Frame) : ReadWork :=
  { sector := f.sector.toNat, count := f.count.toNat, view := f.flags.getLsbD 0,
    pieces := (c.piecesOf (f.flags.getLsbD 0) (baysOf f.sector.toNat f.count.toNat)).map (c.prefetch false) }

theorem Card.accept_readOf (c : Card) (op : Byte) (f g : Frame) (k : Cmd) : (c.accept op f k).readOf g = c.readOf g := by
  obtain ⟨b, h⟩ := c.accept_eq op f k
  rw [h]
  rfl

/-- The card that has accepted a READ and started its reads. -/
def Card.reading (c : Card) (f : Frame) (k : Cmd) (w : ReadWork) (p : Nat → Purpose) (strict : Bool) : Card :=
  (c.setCmd f.tag k).startReads w.pieces p strict

theorem Card.doRead_up {c : Card} {f : Frame} (inside : c.rangeOk f = true) (up : c.link.mode = .up) :
    c.doRead f = (c.reading f (.read (c.readOf f)) (c.readOf f) (.cmd f.tag) false).finishRead f.tag (c.readOf f) := by
  rw [Card.doRead, if_pos inside, Card.needLanes_up _ _ up]
  rfl

theorem Rest.ports_eq {c d : Card} (h : d.rest = c.rest) : d.ports = c.ports := congrArg Rest.ports h

/-- The reads of a command leave what goes out, the link, the key and the ports (R267). -/
theorem Card.reading_frame (c : Card) (f : Frame) (k : Cmd) (w : ReadWork) (p : Nat → Purpose) (strict : Bool) :
    (c.reading f k w p strict).ports = (c.setCmd f.tag k).ports ∧ (c.reading f k w p strict).far = c.far := by
  unfold Card.reading
  exact ⟨Rest.ports_eq (Card.startReads_rest _ _ _ _), (Card.startReads_far _ _ _ _).trans (Card.setCmd_far _ _ _)⟩

theorem Card.reading_tagEntry {c : Card} {op : Byte} {f : Frame} {j : Cmd} (k : Cmd) (w : ReadWork) (p : Nat → Purpose)
    (strict : Bool) (taken : c.working op f j) : (c.reading f k w p strict).working op f k := by
  unfold Card.working Card.tagEntry
  rw [(c.reading_frame f k w p strict).1, Card.setCmd_eq k taken rfl]
  exact Card.putTag_tagEntry _ _ _

theorem Card.portUp_congr {c d : Card} (dock : d.power.dock = c.power.dock) (p : Port) : d.portUp p = c.portUp p := by
  simp only [Card.portUp, dock]

theorem Card.dataKey_congr {c d : Card} (h : d.alcove = c.alcove) : d.dataKey = c.dataKey := by
  simp only [Card.dataKey, Card.profile, h]

/-- The bytes a command's transfer carries, by its entry. -/
def Card.transfer (c : Card) (t : Tag) (e : TagEntry) (bytes : List Byte) : Out :=
  .c2h { tag := t, issue := e.issue, lanes := c.link.lanes, bytes := bytes, seed := c.freeCount }

/-- A transfer and the final response after it. -/
theorem Card.sent_finished {c : Card} {t : Tag} {e : TagEntry} {k : Cmd} (bytes : List Byte) (st : Status)
    (info : BitVec 24) (z : Bool) (entry : c.tagEntry t = some e) (out : e.state = .outstanding k)
    (port : c.portUp e.port = true) :
    ((c.sent t e bytes).finish t st info z).out = c.respNow e.port 0 t st info z :: c.transfer t e bytes :: c.out ∧
      ((c.sent t e bytes).finish t st info z).tagEntry t = some { e with state := .completed st info } :=
  ⟨Card.finish_out (c := c.sent t e bytes) _ _ _ entry out port,
    Card.finish_tagEntry (c.sent t e bytes) _ _ _ _ entry out⟩

/-- A READ whose bays are there is answered (R268, R270). -/
theorem Card.finishRead_done {c : Card} {t : Tag} {e : TagEntry} {k : Cmd} {w : ReadWork} (ready : w.ready = true)
    (up : c.link.mode = .up) (entry : c.tagEntry t = some e) (out : e.state = .outstanding k) (port : c.portUp e.port = true) :
    (c.finishRead t w).out =
        c.respNow e.port 0 t w.verdict.1 w.verdict.2 w.zeros :: c.transfer t e (w.data c.dataKey) :: c.out ∧
      (c.finishRead t w).tagEntry t = some { e with state := .completed w.verdict.1 w.verdict.2 } := by
  rw [Card.finishRead_eq ready up entry]
  exact ⟨Card.finish_out _ _ _ entry out port, Card.finish_tagEntry _ _ _ _ _ entry out⟩

/-- User bytes read are counted by BC-01 (R585). -/
theorem Card.count_countBytes (c : Card) (n : Nat) : (c.countBytes n).count 1 = (c.count 1 + n) % 2 ^ 64 := by
  simp [Card.countBytes, Card.count, Card.bump, KV.getD, KV.find_put_same]

/-- The ports READ, READ STREAM and VERIFY come by have their answers go out there. -/
theorem Card.admits_portUp {c : Card} {op : Byte} {f : Frame} (admits : c.admits op f = true) : c.portUp f.port = true := by
  unfold Card.admits at admits
  simp only [Bool.and_eq_true] at admits
  obtain ⟨⟨⟨⟨⟨⟨receives, -⟩, -⟩, -⟩, -⟩, -⟩, -⟩ := admits
  exact Card.portUp_of_receives receives

/-- Only a MOUNTED card reads (R139). -/
theorem Card.admits_read_mounted {c : Card} {f : Frame} (admits : c.admits opRead f = true) : c.phase = .mounted := by
  unfold Card.admits at admits
  simp only [Bool.and_eq_true, Option.isNone_iff_eq_none] at admits
  obtain ⟨⟨-, state⟩, -⟩ := admits
  unfold Card.step7 at state
  rw [if_neg (fun h => absurd h.1 (by decide))] at state
  split at state
  · simp [show opRead ≠ opInquire by decide] at state
  · revert state
    cases c.phase <;> simp [stateAnswer, opRead, opInquire, opMount, opClose, opForceClose, dockOnly, opFormat, opSanitize,
      opAlcoveLoad, opAlcoveSwap]

/-- Z is the low bit of a MOUNTED card's flags (R251). -/
theorem Card.flags_z {c : Card} (mounted : c.phase = .mounted) (z : Bool) : (c.flags z).getLsbD 0 = z := by
  have high (b : Bool) {i : Nat} (h : 0 < i) : (flagBit b i).getLsbD 0 = false := by
    cases b
    · simp [flagBit]
    · simp [flagBit]; omega
  rw [Card.flags, if_pos (.inl mounted)]
  simp only [BitVec.getLsbD_or, high _ (show 0 < 1 by decide), high _ (show 0 < 2 by decide), high _ (show 0 < 3 by decide),
    high _ (show 0 < 4 by decide), high _ (show 0 < 5 by decide), high _ (show 0 < 6 by decide),
    high _ (show 0 < 7 by decide), Bool.or_false]
  cases z <;> rfl


theorem Card.accept_freeCount (c : Card) (op : Byte) (f : Frame) (k : Cmd) : (c.accept op f k).freeCount = c.freeCount := by
  obtain ⟨b, h⟩ := c.accept_eq op f k
  rw [h]

theorem Card.accept_out (c : Card) (op : Byte) (f : Frame) (k : Cmd) : (c.accept op f k).out = c.out := by
  obtain ⟨b, h⟩ := c.accept_eq op f k
  rw [h]

/-- A response's flags and sequence are those of the card before its command was taken. -/
theorem Card.accept_respNow (c : Card) (op : Byte) (f : Frame) (k : Cmd) (p : Port) (kind : BitVec 2) (code : BitVec 6)
    (st : Status) (info : BitVec 24) (z : Bool) :
    (c.accept op f k).respNow p kind code st info z = c.respNow p kind code st info z := by
  obtain ⟨b, h⟩ := c.accept_eq op f k
  rw [h]
  rfl

/-- READ and VERIFY of nothing but zeros start no descriptor. -/
theorem Card.reading_zeros {c : Card} {op : Byte} {f : Frame} {j : Cmd} (k : Cmd) {w : ReadWork} (p : Nat → Purpose)
    (strict : Bool) (taken : c.working op f j) (zeros : ∀ x ∈ w.pieces, x.src = .zero) :
    c.reading f k w p strict = c.putTag f.tag (entryOf op f (.outstanding k)) := by
  unfold Card.reading
  rw [Card.startReads_zeros p strict zeros, Card.setCmd_eq k taken rfl]
  rfl

/-- A READ of sectors without data (R268). -/
theorem Card.readOf_zeros {c : Card} {f : Frame}
    (h : ∀ b, b ∈ baysOf f.sector.toNat f.count.toNat → ∀ k, c.resolve (f.flags.getLsbD 0) b ≠ .at k) :
    ∀ x ∈ (c.readOf f).pieces, x.src = .zero ∧ x.val = .waiting := by
  intro x mem
  obtain ⟨y, at_, rfl⟩ := List.mem_map.mp mem
  have zero := Card.piecesOf_zero h at_
  rw [Card.prefetch_zero zero.1]
  exact zero

theorem Card.far_reading {c : Card} {op : Byte} {f : Frame} {j : Cmd} (k : Cmd) (w : ReadWork) (p : Nat → Purpose)
    (strict : Bool) : ((c.accept op f j).reading f k w p strict).far = c.far :=
  ((c.accept op f j).reading_frame f k w p strict).2.trans (by
    obtain ⟨b, h⟩ := c.accept_eq op f j
    rw [h]
    rfl)


/-- A READ taken on a card whose link is up: its reads start, and it is answered where they are all there. -/
theorem Card.doRead_accepted {c : Card} {f : Frame} (k : Cmd) (inside : c.rangeOk f = true) (up : c.link.mode = .up) :
    (c.accept opRead f k).doRead f = ((c.accept opRead f k).reading f (.read (c.readOf f)) (c.readOf f) (.cmd f.tag)
      false).finishRead f.tag (c.readOf f) := by
  rw [Card.doRead_up (by simpa using inside) (by simpa using up), Card.accept_readOf]

/-- What a READ whose bays are all at hand sends, and how it ends (R268, R270). -/
theorem Card.doRead_ready {c : Card} {f : Frame} (k : Cmd) (admits : c.admits opRead f = true) (inside : c.rangeOk f = true)
    (up : c.link.mode = .up) (ready : (c.readOf f).ready = true) :
    ((c.accept opRead f k).doRead f).out =
        ((c.accept opRead f k).reading f (.read (c.readOf f)) (c.readOf f) (.cmd f.tag) false).respNow f.port 0 f.tag
          (c.readOf f).verdict.1 (c.readOf f).verdict.2 (c.readOf f).zeros ::
        .c2h { tag := f.tag, issue := f.issue, lanes := c.link.lanes, seed := c.freeCount,
               bytes := (c.readOf f).data c.dataKey } :: c.out ∧
      ((c.accept opRead f k).doRead f).ended opRead f (c.readOf f).verdict.1 (c.readOf f).verdict.2 := by
  rw [Card.doRead_accepted k inside up]
  set w := c.readOf f with hw
  set d := (c.accept opRead f k).reading f (.read w) w (.cmd f.tag) false with hd
  have far : d.far = c.far := Card.far_reading _ _ _ _
  have link := Far.link_eq far
  have entry : d.working opRead f (.read w) := Card.reading_tagEntry _ _ _ _ (c.accept_working opRead f k)
  have free : d.freeCount = c.freeCount :=
    (Card.startReads_freeCount _ _ (List.all_eq_true.mp ready)).trans (by simp [Card.accept_freeCount])
  have port : d.portUp f.port = true := by
    rw [Card.portUp_congr (congrArg Power.dock (congrArg Far.power far))]
    exact Card.admits_portUp admits
  obtain ⟨sent, ended⟩ := Card.finishRead_done ready (by rw [link]; exact up) entry rfl port
  refine ⟨?_, ended⟩
  rw [sent, Card.transfer, link, free, Card.dataKey_congr (congrArg Far.alcove far), Far.out_eq far]
  rfl

theorem Card.respNow_eq (c : Card) (p : Port) (kind : BitVec 2) (code : BitVec 6) (st : Status) (info : BitVec 24) (z : Bool) :
    ∃ r, c.respNow p kind code st info z = .resp p r ∧ r.kind = kind ∧ r.code = code ∧ r.status = st ∧ r.info = info ∧
      r.flags = c.flags z := ⟨_, rfl, rfl, rfl, rfl, rfl, rfl⟩

/-- READ comes by CI alone (R233). -/
theorem Card.admits_read_ci {c : Card} {f : Frame} (admits : c.admits opRead f = true) : f.port = .ci := by
  unfold Card.admits at admits
  simp only [Bool.and_eq_true] at admits
  obtain ⟨⟨⟨-, entitle⟩, -⟩, -⟩ := admits
  revert entitle
  cases f.port
  · exact fun _ => rfl
  · exact fun h => absurd h (by decide)


theorem Card.readOf_count (c : Card) (f : Frame) : (c.readOf f).count = f.count.toNat := rfl

theorem Card.rangeOk_count {c : Card} {f : Frame} (inside : c.rangeOk f = true) : 1 ≤ f.count.toNat := by
  simp only [Card.rangeOk, Bool.and_eq_true, decide_eq_true_eq] at inside
  exact inside.1.1

/-! VERIFY of bays with no sector written (R280, R281). -/

/-- A VERIFY's pieces: a bay with no sector written is not read (R280). -/
def Card.verifyOf (c : Card) (f : Frame) : ReadWork :=
  { sector := f.sector.toNat, count := f.count.toNat, view := f.flags.getLsbD 0,
    pieces := ((c.piecesOf (f.flags.getLsbD 0) (baysOf f.sector.toNat f.count.toNat)).map (fun p => match p.src with
      | .at k => if (c.bayAt k).any (fun b => b.mask != 0) then p else { p with src := .zero }
      | .zero => p)).map (c.prefetch true) }

theorem Card.accept_verifyOf (c : Card) (op : Byte) (f g : Frame) (k : Cmd) : (c.accept op f k).verifyOf g = c.verifyOf g := by
  obtain ⟨b, h⟩ := c.accept_eq op f k
  rw [h]
  rfl

theorem Card.doVerify_up {c : Card} {f : Frame} (inside : c.rangeOk f = true) (up : c.link.mode = .up) :
    c.doVerify f = (c.reading f (.verify (c.verifyOf f)) (c.verifyOf f) (.verify f.tag) true).finishVerify f.tag
      (c.verifyOf f) := by
  rw [Card.doVerify, if_pos inside, Card.needLanes_up _ _ up]
  rfl

theorem Card.verifyOf_zeros {c : Card} {f : Frame}
    (h : ∀ b, b ∈ baysOf f.sector.toNat f.count.toNat → ∀ k, c.resolve (f.flags.getLsbD 0) b = .at k →
      ∀ x, c.bayAt k = some x → x.mask = 0) : ∀ p ∈ (c.verifyOf f).pieces, p.src = .zero := by
  intro p mem
  obtain ⟨q, at_, rfl⟩ := List.mem_map.mp mem
  obtain ⟨r, at_', rfl⟩ := List.mem_map.mp at_
  obtain ⟨b, bay, rfl⟩ := List.mem_map.mp at_'
  have zero {q : Piece} (h : q.src = .zero) : (c.prefetch true q).src = .zero := by rw [Card.prefetch_zero h, h]
  rcases place : c.resolve (f.flags.getLsbD 0) b with _ | _ | k
  · exact zero rfl
  · exact zero rfl
  · have unwritten : (c.bayAt k).any (fun b => b.mask != 0) = false := by
      cases found : c.bayAt k with
      | none => rfl
      | some x => simp [h b bay k place x found]
    simp only [Loc.source, unwritten, Bool.false_eq_true, if_false]
    exact zero rfl

theorem Card.verifyOf_length (c : Card) (f : Frame) :
    (c.verifyOf f).pieces.length = (baysOf f.sector.toNat f.count.toNat).length := by
  simp [Card.verifyOf, Card.piecesOf]

theorem Piece.grades_zero {ps : List Piece} (h : ∀ p ∈ ps, p.src = .zero) :
    ps.map Piece.grade = List.replicate ps.length 3 := by
  rw [List.eq_replicate_iff]
  refine ⟨List.length_map _, fun g mem => ?_⟩
  obtain ⟨p, at_, rfl⟩ := List.mem_map.mp mem
  simp [Piece.grade, h p at_]

/-- A VERIFY of nothing but unwritten bays is answered at once. -/
theorem Card.doVerify_zeros {c : Card} {f : Frame} (k : Cmd) (admits : c.admits opVerify f = true)
    (inside : c.rangeOk f = true) (up : c.link.mode = .up) (zeros : ∀ p ∈ (c.verifyOf f).pieces, p.src = .zero) :
    ((c.accept opVerify f k).doVerify f).out = c.respNow f.port 0 f.tag stOk 0 false ::
        .c2h { tag := f.tag, issue := f.issue, lanes := c.link.lanes, seed := c.freeCount,
               bytes := List.replicate (baysOf f.sector.toNat f.count.toNat).length 3 } :: c.out ∧
      ((c.accept opVerify f k).doVerify f).ended opVerify f stOk 0 := by
  rw [Card.doVerify_up (by simpa using inside) (by simpa using up), Card.accept_verifyOf]
  set w := c.verifyOf f with hw
  rw [Card.reading_zeros _ _ _ (c.accept_working opVerify f k) zeros]
  set d := (c.accept opVerify f k).putTag f.tag (entryOf opVerify f (.outstanding (.verify w))) with hd
  have entry : d.working opVerify f (.verify w) := Card.putTag_tagEntry _ _ _
  have link : d.link = c.link := Card.accept_link _ _ _ _
  have port : d.portUp f.port = true := by
    obtain ⟨b, h⟩ := c.accept_eq opVerify f k
    rw [hd, h]
    exact Card.admits_portUp (c := c) admits
  have three : (List.replicate w.pieces.length (3 : Byte)).count 1 = 0 ∧
      (List.replicate w.pieces.length (3 : Byte)).count 2 = 0 := by
    simp [List.count_replicate]
  rw [Card.finishVerify_eq (List.all_eq_true.mpr fun p mem => Piece.ready_of_zero (zeros p mem)) (by rw [link]; exact up) entry,
    Piece.grades_zero zeros, three.1, three.2, Card.verifyOf_length]
  obtain ⟨out, ended⟩ := Card.sent_finished (List.replicate (baysOf f.sector.toNat f.count.toNat).length 3) stOk
    (info3 0 0 0) false entry rfl port
  refine ⟨?_, ended⟩
  have told : d.respNow f.port 0 f.tag stOk 0 false = c.respNow f.port 0 f.tag stOk 0 false :=
    Card.accept_respNow c opVerify f k _ _ _ _ _ _
  have free : d.freeCount = c.freeCount := Card.accept_freeCount c opVerify f k
  rw [out, Card.transfer, link, free]
  exact congrArg₂ List.cons told (congrArg₂ List.cons rfl (Card.accept_out c opVerify f k))

/-- Settles O34: a READ's pieces and its answer by `ReadWork`; zeros, at hand, or waiting. -/
theorem readAndVerify : Obligations.ReadAndVerify := by
  unfold Obligations.ReadAndVerify
  refine ⟨fun s f admits up inside empty => ?_, fun s f w admits up inside work => ?_, fun s f admits up inside empty => ?_⟩
  · have zeros := Card.readOf_zeros empty
    have waits : ∀ p ∈ (s.card.readOf f).pieces, p.val = .waiting := fun p mem => (zeros p mem).2
    have ready : (s.card.readOf f).ready = true :=
      List.all_eq_true.mpr fun p mem => Piece.ready_of_zero (zeros p mem).1
    have verdict : (s.card.readOf f).verdict = (stOk, 0) := by rw [ReadWork.verdict, ReadWork.zero_lostAt waits]
    obtain ⟨out, ended⟩ := Card.doRead_ready (.read .empty) admits inside up ready
    rw [verdict, ReadWork.zero_zeros waits (Card.rangeOk_count inside), ReadWork.zero_data _ waits] at out
    rw [verdict] at ended
    obtain ⟨t, next, ⟨b, set⟩, counts⟩ := run_counts (fun c => c.receive opRead f (.read .empty) (fun c => c.doRead f)) s
    rw [Card.receive_of_admits _ _ admits] at set counts
    refine ⟨t, next, ?_, ?_, ?_⟩
    · rw [set]
      exact ended
    · rw [set]
      dsimp only
      rw [out, Card.reading_zeros _ _ _ (s.card.accept_working opRead f _) fun p mem => (zeros p mem).1]
      exact congrArg₂ List.cons (Card.accept_respNow s.card opRead f _ _ _ _ _ _ _) rfl
    · change t.card.count 1 = _
      rw [counts 1 (by decide), Card.doRead_accepted _ inside up,
        Card.finishRead_eq ready (by rw [Far.link_eq (Card.far_reading _ _ _ _)]; exact up)
          (Card.reading_tagEntry _ _ _ _ (s.card.accept_working opRead f _)),
        Card.count_of_low (Card.finish_low _ _ _ _ _) (by decide), Card.count_countBytes,
        Card.reading_zeros _ _ _ (s.card.accept_working opRead f _) fun p mem => (zeros p mem).1]
      refine congrArg (fun n => (n + 4096 * f.count.toNat) % 2 ^ 64) ?_
      exact Card.accept_count s.card opRead f _ (by decide) (by decide)
  · obtain rfl : w = s.card.readOf f := work
    refine ⟨fun ready => ?_, fun waits => ?_⟩
    · obtain ⟨out, ended⟩ := Card.doRead_ready (.read .empty) admits inside up ready
      obtain ⟨t, next, b, set⟩ := run_spec (fun c => c.receive opRead f (.read .empty) (fun c => c.doRead f)) s
      rw [Card.receive_of_admits _ _ admits] at set
      obtain ⟨r, told, kind, code, status, info, flags⟩ := Card.respNow_eq
        ((s.card.accept opRead f (.read .empty)).reading f (.read (s.card.readOf f)) (s.card.readOf f) (.cmd f.tag) false)
        f.port 0 f.tag (s.card.readOf f).verdict.1 (s.card.readOf f).verdict.2 (s.card.readOf f).zeros
      rw [told, Card.admits_read_ci admits] at out
      refine ⟨t, r, next, ?_, kind, code, ?_, fun whole => ?_, fun o lost => ?_⟩
      · rw [set]
        exact out
      · rw [flags, Card.flags_z]
        exact (Far.phase_eq (Card.far_reading _ _ _ _)).trans (Card.admits_read_mounted admits)
      · have verdict : (s.card.readOf f).verdict = (stOk, 0) := by rw [ReadWork.verdict, whole]
        rw [verdict] at status ended
        refine ⟨status, ?_⟩
        rw [set]
        exact ended
      · have verdict : (s.card.readOf f).verdict = (stLost, info3 o (o / 256) 0) := by rw [ReadWork.verdict, lost]
        rw [verdict] at status info ended
        refine ⟨status, info, ?_⟩
        rw [set]
        exact ended
    · obtain ⟨t, next, b, set⟩ := run_spec (fun c => c.receive opRead f (.read .empty) (fun c => c.doRead f)) s
      rw [Card.receive_of_admits _ _ admits, Card.doRead_accepted _ inside up, Card.finishRead_waits _ waits] at set
      refine ⟨t, next, ?_, ?_⟩
      · rw [set]
        exact Far.out_eq (Card.far_reading _ _ _ _)
      · rw [set]
        exact Card.reading_tagEntry _ _ _ _ (s.card.accept_working opRead f _)
  · obtain ⟨out, ended⟩ := Card.doVerify_zeros (.verify .empty) admits inside up (Card.verifyOf_zeros empty)
    obtain ⟨t, next, b, set⟩ := run_spec (fun c => c.receive opVerify f (.verify .empty) (fun c => c.doVerify f)) s
    rw [Card.receive_of_admits _ _ admits] at set
    refine ⟨t, next, ?_, ?_⟩
    · rw [set]
      exact ended
    · rw [set]
      exact out

end Sys2Proof.Machine

/-! READ STREAM and STOP (R267, R274 to R279). -/

namespace Sys2Proof.Machine

open Sys2Proof

/-- A stream with the segment it goes on with resolved (R267, R274). -/
def Card.segmentOf (c : Card) (s : StreamWork) : StreamWork :=
  { s with cur := { sector := s.next, count := segmentLen s.next s.stop, view := s.view, pieces :=
      (c.piecesOf s.view (baysOf s.next (segmentLen s.next s.stop))).map (c.prefetch false) } }

/-- A segment that opens: the work is the command's, and nothing goes out. -/
theorem Card.openSegment_frame {c : Card} {t : Tag} {e : TagEntry} {k : Cmd} (s : StreamWork)
    (entry : c.tagEntry t = some e) (out : e.state = .outstanding k) :
    (c.openSegment t s).tagEntry t = some { e with state := .outstanding (.stream (c.segmentOf s)) } ∧
      (c.openSegment t s).out = c.out := by
  have ports : (c.openSegment t s).ports = (c.setCmd t (.stream (c.segmentOf s))).ports :=
    Rest.ports_eq (Card.startReads_rest _ _ _ _)
  refine ⟨?_, Far.out_eq (Card.openSegment_far _ _ _)⟩
  rw [Card.tagEntry, ports, Card.setCmd_eq _ entry out]
  exact Card.putTag_tagEntry _ _ _

theorem Card.accept_segmentOf (c : Card) (op : Byte) (f : Frame) (k : Cmd) (s : StreamWork) :
    (c.accept op f k).segmentOf s = c.segmentOf s := by
  obtain ⟨b, h⟩ := c.accept_eq op f k
  rw [h]
  rfl

/-- The card that has sent a stream's segment, and the stream after it (R275). -/
def Card.segmentSent (c : Card) (t : Tag) (e : TagEntry) (s : StreamWork) : Card :=
  (c.sent t e (s.cur.data c.dataKey)).countBytes (4096 * s.cur.count)

def StreamWork.done (s : StreamWork) : StreamWork :=
  { s with sent := s.sent + 1, zeros := s.zeros || s.cur.zeros, next := s.next + s.cur.count }

theorem Card.segmentStart_sends {c : Card} {t : Tag} {e : TagEntry} {s : StreamWork} (entry : c.tagEntry t = some e)
    (out : e.state = .outstanding (.stream s)) (hclk : c.power.hclk = true) (up : c.link.mode = .up)
    (ready : s.cur.ready = true) (same : c.sourcesNow s = s.cur.pieces.map Piece.src) :
    c.segmentStart t = match s.cur.lostAt with
      | some o => (c.segmentSent t e s).finish t stLost (info3 o (o / 256) 0) s.done.zeros
      | none => if s.done.next < s.stop then
          ((c.segmentSent t e s).interim t (BitVec.ofNat 24 s.sent)).openSegment t s.done
        else (c.segmentSent t e s).endStream t s.done := by
  unfold Card.segmentStart
  simp only [Card.cmdOf_some entry out, ready, hclk, same, and_self, if_true, ne_eq, not_true_eq_false, if_false,
    Card.needLanes_up t _ up, Card.sendC2h_eq _ entry]
  rfl

/-- An INTERIM of an outstanding command as it goes out; its entry stays. -/
theorem Card.interim_sends {c : Card} {t : Tag} {e : TagEntry} {k : Cmd} (info : BitVec 24) (entry : c.tagEntry t = some e)
    (out : e.state = .outstanding k) (up : c.portUp e.port = true) :
    (c.interim t info).out = c.respNow e.port 1 t stOk info false :: c.out ∧
      (c.interim t info).tagEntry t = some e := by
  have is : c.interim t info = c.respond e.port 1 t stOk info false := by
    simp only [Card.interim, entry, out, Card.sendInterim]
  obtain ⟨sends, tags⟩ := Card.respond_sends 1 t stOk info false up
  rw [is]
  exact ⟨sends, by rw [Card.tagEntry, tags]; exact entry⟩

/-- Settles O35: the segment's transfer, then what its end calls for. -/
theorem streamRule : Obligations.StreamRule := by
  unfold Obligations.StreamRule
  refine ⟨fun s f total admits up length nonempty inside => ?_, fun s g e w entry out port hclk up ready same => ?_,
    fun s g hclk => ?_⟩
  · change total = s.card.streamTotal f at length
    subst length
    obtain ⟨t, next, b, set⟩ := run_spec (fun c => c.receive opStream f (.stream (.start false 0 0)) (fun c => c.doStream f)) s
    have taken := s.card.accept_working opStream f (.stream (.start false 0 0))
    rw [Card.receive_of_admits _ _ admits, Card.doStream_eq, Card.accept_capacity,
      if_pos (by rw [Card.accept_streamTotal]; exact ⟨by omega, inside⟩), Card.needLanes_up _ _ (by simpa using up),
      Card.accept_streamTotal] at set
    obtain ⟨work, sent⟩ := Card.openSegment_frame
      (.start (f.flags.getLsbD 0) f.sector.toNat (f.sector.toNat + s.card.streamTotal f)) taken rfl
    refine ⟨t, next, ?_, ?_⟩
    · rw [set]
      exact sent.trans (Card.accept_out _ _ _ _)
    · rw [set]
      refine work.trans ?_
      rw [Card.accept_segmentOf]
      simp only [Card.segmentOf, StreamWork.start, segmentLen, Nat.add_sub_cancel_left]
      rfl
  · intro sent z
    have starts := Card.segmentStart_sends entry out hclk up ready same
    have up' : (s.card.segmentSent g e w).portUp e.port = true := by rw [port]; rfl
    have now : (s.card.segmentSent g e w).tagEntry g = some e := entry
    have transfer : (s.card.segmentSent g e w).out = sent :: s.card.out := rfl
    obtain ⟨t, next, b, set⟩ := run_spec (fun c => c.segmentStart g) s
    rw [starts] at set
    have final {st : Status} {info : BitVec 24}
        (h : t.card = { (s.card.segmentSent g e w).finish g st info z with bal := b }) :
        t.card.out = s.card.respNow .ci 0 g st info z :: sent :: s.card.out ∧
          t.card.tagEntry g = some { e with state := .completed st info } := by
      rw [h]
      refine ⟨?_, Card.finish_tagEntry _ _ _ _ _ now out⟩
      refine (Card.finish_out st info z now out up').trans ?_
      rw [transfer, port]
      rfl
    refine ⟨t, next, fun whole more => ?_, fun whole last => final ?_, fun o lost => final ?_⟩
    · have more' : w.done.next < w.stop := more
      rw [whole] at set
      dsimp only at set
      rw [if_pos more'] at set
      obtain ⟨told, stays⟩ := Card.interim_sends (BitVec.ofNat 24 w.sent) now out up'
      obtain ⟨work, quiet⟩ := Card.openSegment_frame w.done stays out
      refine ⟨?_, ((s.card.segmentSent g e w).interim g (BitVec.ofNat 24 w.sent)).segmentOf w.done, ?_, rfl, rfl, rfl, rfl, rfl,
        rfl⟩
      · rw [set]
        refine quiet.trans (told.trans ?_)
        rw [transfer, port]
        rfl
      · rw [set]
        exact Card.cmdOf_some work rfl
    · have last' : ¬ w.done.next < w.stop := Nat.not_lt.mpr last
      rw [whole] at set
      dsimp only at set
      rw [if_neg last'] at set
      exact set
    · rw [lost] at set
      exact set
  · refine run_eq (f := fun c => c.segmentStart g) (d := s.card) ?_ (Nat.le_refl _)
    unfold Card.segmentStart
    split
    · simp [hclk]
    · rfl

/-! STOP (R277). -/

theorem Card.admits_tagOpen {c : Card} {op : Byte} {f : Frame} (admits : c.admits op f = true) : c.tagOpen f = true := by
  unfold Card.admits at admits
  simp only [Bool.and_eq_true] at admits
  obtain ⟨⟨⟨⟨⟨⟨-, -⟩, opened⟩, -⟩, -⟩, -⟩, -⟩ := admits
  exact opened

/-- An admitted frame's tag has no command outstanding (R245). -/
theorem Card.admits_unused {c : Card} {op : Byte} {f : Frame} (admits : c.admits op f = true) : c.cmdOf f.tag = none := by
  have opened := Card.admits_tagOpen admits
  unfold Card.tagOpen at opened
  unfold Card.cmdOf
  cases entry : c.tagEntry f.tag with
  | none => rfl
  | some e =>
    cases state : e.state with
    | outstanding k => simp [entry, state] at opened
    | completed st info => simp [state]

/-- Taking a frame leaves the other tags. -/
theorem Card.accept_tagEntry_other (c : Card) (op : Byte) (f : Frame) (k : Cmd) {g : Tag} (other : g ≠ f.tag) :
    (c.accept op f k).tagEntry g = c.tagEntry g := by
  obtain ⟨b, h⟩ := c.accept_eq op f k
  rw [h]
  exact Card.putTag_tagEntry_other c (entryOf op f (.outstanding k)) other

/-- A STOP that has been taken does not name a stream that waits for its LANE-CHECK: it names itself, or the one it named. -/
theorem Card.accept_cutStream {c : Card} {f : Frame} {g : Tag} (h : g = f.tag ∨ c.cutStream g = false) :
    (c.accept opStop f .timed).cutStream g = false := by
  by_cases self : g = f.tag
  · have entry : (c.accept opStop f .timed).tagEntry g = some (entryOf opStop f (.outstanding .timed)) :=
      self ▸ c.accept_working opStop f .timed
    rw [Card.cutStream, entry]
    refine Bool.and_eq_false_imp.mpr fun h => absurd h ?_
    simp [entryOf, opStop, opStream]
  · rw [Card.cutStream, Card.accept_tagEntry_other _ _ _ _ self, Card.accept_link]
    exact h.resolve_left self

theorem Card.doStop_other {c : Card} {f : Frame} (no : ∀ w, c.cmdOf (f.arg.setWidth 6) ≠ some (.stream w)) :
    c.doStop f = if c.cutStream (f.arg.setWidth 6) then c else c.finish f.tag stOk 0 false := by
  unfold Card.doStop
  dsimp only
  split
  · next w cmd => exact absurd cmd (no w)
  · rfl

/-- Settles O36: a stream's end and the STOP's, or the STOP's alone. -/
theorem stopRule : Obligations.StopRule := by
  unfold Obligations.StopRule
  intro s f g admits named
  set a := s.card.accept opStop f .timed with ha
  have taken : a.working opStop f .timed := s.card.accept_working opStop f .timed
  obtain ⟨t, next, b, set⟩ := run_spec (fun c => c.receive opStop f .timed (fun c => c.doStop f)) s
  rw [Card.receive_of_admits _ _ admits, ← ha] at set
  refine ⟨t, next, fun e w entry out ci port => ?_, fun no => ⟨fun ends => ?_, fun other cut => ?_⟩⟩
  · have other : f.tag ≠ g := by
      intro same
      have := Card.admits_unused admits
      rw [same, Card.cmdOf_some entry out] at this
      cases this
    have still : a.tagEntry g = some e := (Card.accept_tagEntry_other _ _ _ _ other.symm).trans entry
    have stream : a.cmdOf (f.arg.setWidth 6) = some (.stream w) := named ▸ Card.cmdOf_some still out
    have does : a.doStop f =
        (a.finish g stOk (info3 w.sent (w.sent / 256) 0) w.zeros).finish f.tag stOk (info3 1 0 0) false := by
      simp only [Card.doStop, stream, Card.endStream]
      rw [named]
    rw [does] at set
    set d := a.finish g stOk (info3 w.sent (w.sent / 256) 0) w.zeros with hd
    have ended : d.tagEntry g = some { e with state := .completed stOk (info3 w.sent (w.sent / 256) 0) } :=
      Card.finish_tagEntry _ _ _ _ _ still out
    have own : d.working opStop f .timed :=
      ((a.finish_stays _ _ _ other).cmdOf.1 (fun w => by simp [Card.cmdOf_some taken rfl])).trans taken
    have first := Card.finish_out stOk (info3 w.sent (w.sent / 256) 0) w.zeros still out (by rw [ci]; rfl)
    have second := Card.finish_out stOk (info3 1 0 0) false own rfl
      (show d.portUp f.port = true by rw [port]; rfl)
    refine ⟨?_, ?_, ?_⟩
    · rw [set]
      exact Card.finish_tagEntry _ _ _ _ _ own rfl
    · rw [set]
      refine ((d.finish_stays _ _ _ other.symm).cmdOf.1 fun w => ?_).trans ended
      simp [Card.cmdOf, ended]
    · rw [set]
      obtain ⟨q, told, kind, code, status, -⟩ := a.respNow_eq e.port 0 g stOk (info3 w.sent (w.sent / 256) 0) w.zeros
      obtain ⟨r, told', kind', code', -⟩ := d.respNow_eq f.port 0 f.tag stOk (info3 1 0 0) false
      rw [told, ci, ha, Card.accept_out] at first
      refine ⟨r, q, second.trans ?_, code', code, kind', kind, status⟩
      rw [first, ← port]
      exact congrArg₂ List.cons told' rfl
  · have whole : a.cutStream g = false := Card.accept_cutStream ends
    have not : ∀ w, a.cmdOf (f.arg.setWidth 6) ≠ some (.stream w) := by
      intro w
      rw [← named]
      by_cases self : g = f.tag
      · rw [self, Card.cmdOf_some taken rfl]
        simp
      · rw [Card.cmdOf, Card.accept_tagEntry_other _ _ _ _ self]
        exact no w
    rw [Card.doStop_other not, ← named, whole, if_neg Bool.false_ne_true] at set
    refine ⟨?_, fun h otherTag notWrite => ?_⟩
    · rw [set]
      exact Card.finish_tagEntry _ _ _ _ _ taken rfl
    · have still := Card.accept_tagEntry_other s.card opStop f .timed otherTag
      rw [set]
      refine ((a.finish_stays _ _ _ otherTag).cmdOf.1 fun w => ?_).trans still
      rw [Card.cmdOf, still]
      exact notWrite w
  · have still := Card.accept_tagEntry_other s.card opStop f .timed other
    have cut' : a.cutStream g = true := by
      rw [Card.cutStream, still, Card.accept_link]
      exact cut
    have not : ∀ w, a.cmdOf (f.arg.setWidth 6) ≠ some (.stream w) := by
      intro w
      rw [← named, Card.cmdOf, still]
      exact no w
    rw [Card.doStop_other not, ← named, cut', if_pos rfl] at set
    rw [set]
    exact ⟨taken, Card.accept_out _ _ _ _, still⟩

end Sys2Proof.Machine

/-! INQUIRE on CI and on DCI (R192, R323 to R327). -/

namespace Sys2Proof.Machine

open Sys2Proof

/-! What the pages follow: a frame taken on an open tag leaves them. -/

/-- An entry set over one that a filter passes by leaves what the filter gives. -/
theorem KV.filterMap_put {α β : Type} {g : Nat × α → Option β} (m : KV α) {k : Nat} {v : α} (new : g (k, v) = none)
    (old : ∀ e, KV.find m k = some e → g (k, e) = none) : (KV.put m k v).filterMap g = m.filterMap g := by
  induction m with
  | nil => simp [KV.put, new]
  | cons x r ih =>
    obtain ⟨j, w⟩ := x
    unfold KV.put
    split
    · rw [List.filterMap_cons_none new]
    · split
      · next same =>
        subst same
        rw [List.filterMap_cons_none new, List.filterMap_cons_none (old w (by simp [KV.find]))]
      · next other =>
        have rest := ih fun e found => old e (by simpa [KV.find, Ne.symm other] using found)
        simp only [List.filterMap_cons, rest]

/-- A frame that is no WRITE, taken on an open tag, leaves the WRITEs outstanding. -/
theorem Card.accept_writeWorks {c : Card} {op : Byte} {f : Frame} {k : Cmd} (unused : c.cmdOf f.tag = none)
    (no : ∀ w, k ≠ .write w) : (c.accept op f k).writeWorks = c.writeWorks := by
  obtain ⟨b, h⟩ := c.accept_eq op f k
  rw [h]
  refine KV.filterMap_put _ ?_ fun e found => ?_
  · cases k with
    | write w => exact absurd rfl (no w)
    | _ => rfl
  · have entry : c.tagEntry f.tag = some e := found
    cases state : e.state with
    | outstanding j => rw [Card.cmdOf_some entry state] at unused; cases unused
    | completed st info => rfl

theorem Card.accept_openCmds {c : Card} {op : Byte} {f : Frame} {k : Cmd} (unused : c.cmdOf f.tag = none)
    (no : ∀ w, k ≠ .write w) : (c.accept op f k).openCmds = c.openCmds := by
  have works := Card.accept_writeWorks (op := op) unused no
  obtain ⟨b, h⟩ := c.accept_eq op f k
  have flights : (c.accept op f k).flights = c.flights := by rw [h]
  simp only [Card.openCmds, Card.unanswered, works, flights]

/-- The pages show no more of the ports than how many commands are open. -/
theorem Card.page_congr {c : Card} {p : Ports} {b : Balcony} (opened : ({ c with ports := p, bal := b } : Card).openCmds = c.openCmds)
    (n : Nat) : ({ c with ports := p, bal := b } : Card).page n = c.page n := by
  have two : ({ c with ports := p, bal := b } : Card).page2 = c.page2 := by
    unfold Card.page2
    rw [opened]
    rfl
  unfold Card.page
  rw [two]
  rfl

theorem Card.accept_page {c : Card} {op : Byte} {f : Frame} {k : Cmd} (unused : c.cmdOf f.tag = none)
    (no : ∀ w, k ≠ .write w) (n : Nat) : (c.accept op f k).page n = c.page n := by
  have opened := Card.accept_openCmds (op := op) unused no
  obtain ⟨b, h⟩ := c.accept_eq op f k
  rw [h] at opened ⊢
  exact Card.page_congr opened n

/-! A page's 4,096 bytes and its eight parts (R256, R323). -/

theorem pokeAt_length (p : List Byte) (k : Nat) (bs : List Byte) : p.length ≤ (pokeAt p k bs).length := by
  simp only [pokeAt, List.length_append, List.length_take, List.length_drop]
  omega

theorem pageOf_length (fields : List (Nat × List Byte)) : (pageOf fields).length = 4096 := by
  have grows (l : List (Nat × List Byte)) (p : List Byte) :
      p.length ≤ (l.foldl (fun p f => pokeAt p f.1 f.2) p).length := by
    induction l generalizing p with
    | nil => exact Nat.le_refl _
    | cons f r ih => exact (pokeAt_length p f.1 f.2).trans (ih _)
  have := grows fields (List.replicate 4096 0)
  rw [List.length_replicate] at this
  rw [pageOf, List.length_take]
  omega

theorem Card.page_length (c : Card) (n : Nat) : (c.page n).length = 4096 := pageOf_length _

theorem pieces_flatten {α : Type} (n fuel : Nat) (l : List α) : (pieces n fuel l).flatten = l := by
  induction fuel generalizing l with
  | zero => simp [pieces]
  | succ k ih =>
    unfold pieces
    split
    · simp
    · rw [List.flatten_cons, ih, List.take_append_drop]

theorem pieces_page {l : List Byte} (h : l.length = 4096) : (pieces 516 8 l).length = 8 := by
  simp [pieces, h]

/-! The responses of a page on DCI (R256). -/

/-- One part of a page as it goes out on DCO. -/
def Card.part (c : Card) (t : Tag) (n : Nat) (s : Byte) (kind : BitVec 2) (x : List Byte × Nat) : Out :=
  .ext { kind := kind, code := t, status := stOk, flags := c.flags false, info := info3 x.2 n 0,
         seq := s + BitVec.ofNat 8 x.2 } x.1

/-- The card with responses sent on DCO, and its sequence there. -/
def Card.saying (c : Card) (s : Byte) (l : List Out) : Card :=
  { c with ports := { c.ports with seqDco := s }, out := l ++ c.out }

theorem Card.saying_sendExt {c : Card} (s : Byte) (l : List Out) (kind : BitVec 2) (t : Tag) (info : BitVec 24)
    (payload : List Byte) (dock : c.power.dock = true) : (c.saying s l).sendExt kind t info payload = c.saying (s + 1)
      (.ext { kind := kind, code := t, status := stOk, flags := c.flags false, info := info, seq := s } payload :: l) := by
  unfold Card.sendExt
  rw [if_pos (show (c.saying s l).power.dock = true from dock)]
  rfl

theorem ofNat_succ_seq (s : Byte) (k : Nat) : s + BitVec.ofNat 8 k + 1 = s + BitVec.ofNat 8 (k + 1) := by
  rw [BitVec.ofNat_add, ← BitVec.add_assoc]
  rfl

/-- The INTERIMs of a page's first parts. -/
theorem Card.saying_foldl {c : Card} (t : Tag) (n : Nat) (s : Byte) (ps : List (List Byte)) (k : Nat) (l : List Out)
    (dock : c.power.dock = true) :
    (ps.zipIdx k).foldl (fun c x => c.sendExt 1 t (info3 x.2 n 0) x.1) (c.saying (s + BitVec.ofNat 8 k) l) =
      c.saying (s + BitVec.ofNat 8 (k + ps.length)) (((ps.zipIdx k).map (c.part t n s 1)).reverse ++ l) := by
  induction ps generalizing k l with
  | nil => rfl
  | cons x r ih =>
    rw [List.zipIdx_cons, List.foldl_cons, Card.saying_sendExt _ _ _ _ _ _ dock, ofNat_succ_seq, ih (k + 1), List.length_cons,
      Nat.add_right_comm k 1, Nat.add_assoc, List.map_cons, List.reverse_cons, List.append_assoc]
    rfl

/-- A page on DCI: its parts' responses, and its command's end. -/
theorem Card.sendParts_sends {c : Card} {t : Tag} {e : TagEntry} (init : List (List Byte)) (last : List Byte)
    (dock : c.power.dock = true) (entry : c.tagEntry t = some e) :
    (c.sendParts t (init ++ [last])).out =
        c.part t (init.length + 1) c.ports.seqDco 0 (last, init.length) ::
          ((init.zipIdx.map (c.part t (init.length + 1) c.ports.seqDco 1)).reverse ++ c.out) ∧
      (c.sendParts t (init ++ [last])).tagEntry t =
        some { e with state := .completed stOk (info3 init.length (init.length + 1) 0) } := by
  have interims := Card.saying_foldl t (init.length + 1) c.ports.seqDco init 0 [] dock
  rw [Nat.zero_add, List.append_nil] at interims
  have base : c.saying (c.ports.seqDco + BitVec.ofNat 8 0) [] = c := by
    simp [Card.saying]
  rw [base] at interims
  unfold Card.sendParts
  dsimp only
  rw [List.dropLast_concat, List.length_append, List.length_singleton, interims, List.getLastD_concat, Nat.add_sub_cancel]
  set d := c.saying (c.ports.seqDco + BitVec.ofNat 8 init.length)
    (init.zipIdx.map (c.part t (init.length + 1) c.ports.seqDco 1)).reverse with hd
  have entry' : d.tagEntry t = some e := entry
  simp only [entry']
  refine ⟨?_, Card.putTag_tagEntry _ _ _⟩
  rw [hd, Card.saying_sendExt _ _ _ _ _ _ dock]
  obtain ⟨b, h⟩ := Card.traceFinal_balconyOnly (c.saying (c.ports.seqDco + BitVec.ofNat 8 init.length + 1)
    (.ext { kind := 0, code := t, status := stOk, flags := c.flags false, info := info3 init.length (init.length + 1) 0,
            seq := c.ports.seqDco + BitVec.ofNat 8 init.length } last ::
      (init.zipIdx.map (c.part t (init.length + 1) c.ports.seqDco 1)).reverse)) e.port t stOk
      (info3 init.length (init.length + 1) 0) false
  rw [h]
  rfl

/-! Page 3's losses (R326). -/

/-- Once page 3 has been sent no listed loss is unreported. -/
theorem Card.reportLosses_flagP (c : Card) : c.reportLosses.flagP = false := by
  rw [Card.flagP, List.any_eq_false]
  intro e mem
  have reported : e ∈ (c.losses.store.take Config.lossList).map (fun e => { e with reported := true }) := by
    rcases Nat.le_total c.losses.store.length Config.lossList with short | long
    · have mem' := List.mem_of_mem_take mem
      simp only [Card.reportLosses, List.drop_eq_nil_of_le short, List.append_nil] at mem'
      exact mem'
    · simp only [Card.lossList, Card.reportLosses] at mem
      rwa [List.take_left' (by simpa using long)] at mem
  obtain ⟨x, -, rfl⟩ := List.mem_map.mp reported
  simp


theorem Card.afterPage_frame (c : Card) (n : Nat) : (c.afterPage n).ports = c.ports ∧ (c.afterPage n).out = c.out := by
  unfold Card.afterPage
  split <;> exact ⟨rfl, rfl⟩

theorem Card.afterPage_three {c : Card} {a : BitVec 32} (three : a = 3) : (c.afterPage a.toNat).flagP = false := by
  subst three
  exact Card.reportLosses_flagP c

/-- A page on CI, and its command's end (R192, R323). -/
theorem Card.sendPage_sends {c : Card} {t : Tag} {e : TagEntry} {k : Cmd} (n : Nat) (entry : c.tagEntry t = some e)
    (out : e.state = .outstanding k) (port : c.portUp e.port = true) :
    (c.sendPage t n).out = c.respNow e.port 0 t stOk 0 false :: c.transfer t e (c.page n) :: c.out ∧
      (c.sendPage t n).tagEntry t = some { e with state := .completed stOk 0 } := by
  unfold Card.sendPage
  rw [Card.sendC2h_eq _ entry]
  obtain ⟨sent, ended⟩ := Card.sent_finished (c.page n) stOk 0 false entry out port
  obtain ⟨ports, same⟩ := ((c.sent t e (c.page n)).finish t stOk 0 false).afterPage_frame n
  exact ⟨same.trans sent, by rw [Card.tagEntry, ports]; exact ended⟩

/-- The parts of a page: seven INTERIMs' and the final one. -/
theorem Card.page_parts (c : Card) (n : Nat) : ∃ init last, pieces 516 8 (c.page n) = init ++ [last] ∧ init.length = 7 := by
  have length := pieces_page (c.page_length n)
  have some_ : pieces 516 8 (c.page n) ≠ [] := by
    intro none
    rw [none] at length
    cases length
  refine ⟨_, _, (List.dropLast_concat_getLast some_).symm, ?_⟩
  rw [List.length_dropLast, length]

/-- The eight parts as one list, the last one's kind final. -/
theorem Card.parts_kinds (c : Card) (t : Tag) (s : Byte) {init : List (List Byte)} (last : List Byte) (seven : init.length = 7) :
    ((init ++ [last]).zipIdx.map (fun x => Out.ext
      { kind := if x.2 = 7 then 0 else 1, code := t, status := stOk, flags := c.flags false, info := info3 x.2 8 0,
        seq := s + BitVec.ofNat 8 x.2 } x.1)).reverse =
      c.part t 8 s 0 (last, 7) :: (init.zipIdx.map (c.part t 8 s 1)).reverse := by
  have first : ∀ x ∈ init.zipIdx, (if x.2 = 7 then (0 : BitVec 2) else 1) = 1 := by
    intro x mem
    have := List.snd_lt_of_mem_zipIdx mem
    rw [if_neg (by omega)]
  rw [List.zipIdx_append, List.map_append, List.reverse_append, List.zipIdx_singleton, seven]
  refine congrArg (c.part t 8 s 0 (last, 7) :: ·) (congrArg List.reverse (List.map_congr_left fun x mem => ?_))
  rw [first x mem]
  rfl

/-- Settles O44: the page as a transfer, as eight responses, or waiting for the hold's end. -/
theorem inquireRule : Obligations.InquireRule := by
  unfold Obligations.InquireRule
  intro s f admits page
  set a := s.card.accept opInquire f (.inquire f.arg.toNat) with ha
  have taken : a.working opInquire f (.inquire f.arg.toNat) := s.card.accept_working opInquire f (.inquire f.arg.toNat)
  have shown : a.page f.arg.toNat = page := Card.accept_page (Card.admits_unused admits) (by simp) f.arg.toNat
  have link : a.link = s.card.link := Card.accept_link _ _ _ _
  obtain ⟨t, next, b, set⟩ := run_spec (fun c => c.receive opInquire f (.inquire f.arg.toNat) (fun c => c.doInquire f)) s
  rw [Card.receive_of_admits _ _ admits, ← ha] at set
  refine ⟨fun ci hold up => ⟨t, next, ?_⟩, fun ci hold => ⟨t, next, ?_⟩, fun dci => ⟨t, pieces 516 8 page, next, ?_⟩,
    fun g e n entry out port hold up hclk => ?_⟩
  · have does : a.doInquire f = a.sendPage f.tag f.arg.toNat := by
      simp only [Card.doInquire, ci, link, hold, Bool.false_eq_true, if_false]
      exact Card.needLanes_up _ _ (by rw [link]; exact up)
    obtain ⟨sent, ended⟩ := Card.sendPage_sends (c := a) f.arg.toNat taken rfl (show a.portUp f.port = true by rw [ci]; rfl)
    rw [does] at set
    rw [set]
    refine ⟨ended, fun three => Card.afterPage_three three, sent.trans ?_⟩
    rw [shown, Card.transfer, link, Card.accept_freeCount, Card.accept_out]
    exact congrArg₂ List.cons ((Card.accept_respNow _ _ _ _ _ _ _ _ _ _).trans (by rw [← ci]; rfl)) rfl
  · have does : a.doInquire f = a := by
      simp only [Card.doInquire, ci, link, hold, if_true]
    rw [does] at set
    rw [set]
    exact ⟨taken, Card.accept_out _ _ _ _⟩
  · have does : a.doInquire f = (a.sendParts f.tag (pieces 516 8 page)).afterPage f.arg.toNat := by
      simp only [Card.doInquire, dci, shown]
    have dock : a.power.dock = true := by
      have := Card.admits_portUp admits
      rw [dci] at this
      obtain ⟨b', h⟩ := s.card.accept_eq opInquire f (.inquire f.arg.toNat)
      rw [ha, h]
      exact this
    obtain ⟨init, last, parts, seven⟩ := s.card.page_parts f.arg.toNat
    obtain ⟨sent, ended⟩ := Card.sendParts_sends (c := a) init last dock taken
    rw [seven] at sent ended
    rw [does, parts] at set
    obtain ⟨ports, same⟩ := (a.sendParts f.tag (init ++ [last])).afterPage_frame f.arg.toNat
    rw [set]
    refine ⟨?_, fun three => Card.afterPage_three three, pieces_page (s.card.page_length f.arg.toNat), pieces_flatten _ _ _, ?_⟩
    · exact (congrArg (fun p : Ports => KV.find p.tags f.tag.toNat) ports).trans ended
    · rw [parts, Card.parts_kinds _ _ _ _ seven]
      refine same.trans (sent.trans ?_)
      have told (k : BitVec 2) (x : List Byte × Nat) : a.part f.tag 8 a.ports.seqDco k x =
          s.card.part f.tag 8 s.card.ports.seqDco k x := by
        obtain ⟨b', h⟩ := s.card.accept_eq opInquire f (.inquire f.arg.toNat)
        rw [ha, h]
        rfl
      rw [told, Card.accept_out]
      exact congrArg₂ List.cons rfl (congrArg (fun l => List.reverse l ++ s.card.out) (List.map_congr_left fun x _ => told 1 x))
  · obtain ⟨sent, ended⟩ := Card.sendPage_sends (c := s.card) n entry out (by rw [port]; rfl)
    obtain ⟨t, next, b, set⟩ := run_spec (fun c => c.deferredPage g) s
    have does : s.card.deferredPage g = s.card.sendPage g n := by
      simp [Card.deferredPage, Card.cmdOf_some entry out, hold, up, hclk, Card.linkUp]
    rw [does] at set
    refine ⟨t, next, ?_⟩
    rw [set]
    refine ⟨ended, sent.trans ?_⟩
    rw [port]
    rfl

end Sys2Proof.Machine

/-! DISCARD.H (R302, R303). -/

namespace Sys2Proof.Machine

open Sys2Proof

/-! What a command's end takes back of the vestibule, and puts nothing in. -/

/-- No bay is new in the vestibule. -/
def VestShrinks (c d : Card) : Prop := ∀ k, KV.find c.media.vest k = none → KV.find d.media.vest k = none

theorem VestShrinks.trans {c d e : Card} (h : VestShrinks c d) (k : VestShrinks d e) : VestShrinks c e :=
  fun j none => k j (h j none)

theorem VestShrinks.of_media {c d : Card} (h : d.media.vest = c.media.vest) : VestShrinks c d := fun k none => by rwa [h]

theorem VestShrinks.foldl {α : Type} {f : Card → α → Card} (h : ∀ c x, VestShrinks c (f c x)) (l : List α) (c : Card) :
    VestShrinks c (l.foldl f c) := by
  induction l generalizing c with
  | nil => exact fun _ none => none
  | cons x r ih => exact (h c x).trans (ih _)

theorem HallsOnly.vestShrinks {c d : Card} (h : HallsOnly c d) : VestShrinks c d := .of_media (by rw [h.media])

theorem KV.find_drop_none {α : Type} (m : KV α) (k : Nat) {j : Nat} (missing : KV.find m j = none) :
    KV.find (KV.drop m k) j = none := by
  induction m with
  | nil => exact missing
  | cons x r ih =>
    obtain ⟨i, v⟩ := x
    have differ : i ≠ j := by
      rintro rfl
      simp [KV.find] at missing
    rw [KV.find, if_neg differ] at missing
    unfold KV.drop
    split
    · exact missing
    · rw [KV.find, if_neg differ]
      exact ih missing

theorem Card.untake_vestShrinks (c : Card) (k : Nat) : VestShrinks c (c.untake k) := by
  have same := (c.keepDescs_hallsOnly (fun d => d != .program k)).vestShrinks
  exact fun j none => KV.find_drop_none _ k (same j none)

theorem Card.sweep_vestShrinks (c : Card) : VestShrinks c c.sweep :=
  VestShrinks.foldl (fun c (x : Nat × Bay) => c.untake_vestShrinks x.1) _ c

theorem Card.setCmd_media (c : Card) (t : Tag) (k : Cmd) : (c.setCmd t k).media = c.media := by simp

theorem Card.passOver_vest (c : Card) : c.passOver.media.vest = c.media.vest := by
  simp [Card.passOver, Card.newPass]

theorem Card.awaitErase_vest (c : Card) (w : Nat) : (c.awaitErase w).media.vest = c.media.vest := by
  unfold Card.awaitErase
  dsimp only
  split
  · exact Card.passOver_vest _
  · rfl

theorem Card.cutErase_vestShrinks (c : Card) (w : Nat) (hs : List Nat) : VestShrinks c (c.cutErase w hs) := by
  have ended (d : Card) (o : EraseOwner) : ((d.awaitErase w).inlineErased w o).media.vest = d.media.vest := by
    have waits : (d.awaitErase w).media.vest = d.media.vest := d.awaitErase_vest w
    unfold Card.inlineErased
    split
    · split
      · rw [Card.setCmd_media, waits]
      · exact waits
    · exact waits
  unfold Card.cutErase
  split
  · exact .of_media rfl
  · next e _ =>
    have kept := (c.keepDescs_hallsOnly (fun d => match d with
      | .erase v h => v != w || !hs.contains h
      | _ => true)).vestShrinks
    have cut (d : Card) := (HallsOnly.foldl (fun (c : Card) h =>
      (c.setDie (dieNo h (dieRow w)) { c.die (dieNo h (dieRow w)) with erase := none }).complete (.erase w h) .aborted)
      (fun c h => (c.setDie_hallsOnly _ _).trans (Card.complete_hallsOnly _ _ _))
      (hs.filter (fun h => d.holdsErase (dieNo h (dieRow w)) w)) d).vestShrinks
    refine kept.trans ((cut _).trans ?_)
    dsimp only
    split
    · exact .of_media (ended _ _)
    · exact .of_media rfl

theorem Card.dropWork_vestShrinks (c : Card) (t : Tag) : VestShrinks c (c.dropWork t) := by
  have before : VestShrinks c ((c.keepJobs (fun x => x.2.purpose.tag != some t)).endMoves (fun y => y == .inline t)) :=
    ((c.keepJobs_hallsOnly _).trans (Card.endMoves_hallsOnly _ _)).vestShrinks
  have erases (d : Card) : VestShrinks d (d.endErases (.inline t)) :=
    VestShrinks.foldl (fun c (x : Nat × WingErase) => c.cutErase_vestShrinks x.1 _) _ d
  exact (before.trans (erases _)).trans (Card.sweep_vestShrinks _)

theorem Card.finish_vestShrinks (c : Card) (t : Tag) (st : Status) (info : BitVec 24) (z : Bool) :
    VestShrinks c (c.finish t st info z) := by
  unfold Card.finish
  split
  · split
    · refine VestShrinks.trans (.of_media ?_) (Card.dropWork_vestShrinks _ t)
      simp
    · exact .of_media rfl
  · exact .of_media rfl

/-! The marks of a DISCARD.H (R302). -/

/-- The marks leave all but the map. -/
theorem Card.markH_viewsOnly (bays : List Nat) (c : Card) : ∃ v, bays.foldl Card.markH c = { c with views := v } := by
  induction bays generalizing c with
  | nil => exact ⟨c.views, rfl⟩
  | cons b r ih =>
    obtain ⟨v, h⟩ := ih (c.markH b)
    exact ⟨v, h⟩

theorem Card.markH_entry (bays : List Nat) (c : Card) (b : Nat) : (bays.foldl Card.markH c).entry b =
    if b ∈ bays then { c.entry b with hmark := true } else c.entry b := by
  induction bays generalizing c with
  | nil => rfl
  | cons x r ih =>
    have one : (c.markH x).entry b = if b = x then { c.entry b with hmark := true } else c.entry b := by
      by_cases same : b = x
      · subst same
        rw [if_pos rfl]
        exact KV.getD_put_same _ _ _ _
      · rw [if_neg same]
        exact KV.getD_put_other _ _ _ same
    rw [List.foldl_cons, ih, one]
    by_cases same : b = x <;> by_cases mem : b ∈ r <;> simp [same, mem]

theorem Card.markH_resolve (bays : List Nat) (c : Card) (view : Bool) (b : Nat) :
    (bays.foldl Card.markH c).resolve view b = if b ∈ bays then .zeroed else c.resolve view b := by
  unfold Card.resolve
  rw [Card.markH_entry]
  by_cases mem : b ∈ bays <;> simp [mem]

/-- Settles O39: the marks are in the map, and the command ends. -/
theorem discardHRule : Obligations.DiscardHRule := by
  unfold Obligations.DiscardHRule
  intro s f admits free
  set a := s.card.accept opDiscardH f .timed with ha
  have taken : a.working opDiscardH f .timed := s.card.accept_working opDiscardH f .timed
  obtain ⟨t, next, b, set⟩ := run_spec (fun c => c.receive opDiscardH f .timed (fun c => c.doDiscardH f)) s
  rw [Card.receive_of_admits _ _ admits, ← ha, Card.doDiscardH, free] at set
  set bays := wholeBays f.sector.toNat f.count.toNat
  obtain ⟨v, marked⟩ := Card.markH_viewsOnly bays a
  set d := bays.foldl Card.markH a with hd
  have entry : d.working opDiscardH f .timed := by rw [marked]; exact taken
  have port : d.portUp f.port = true := by
    obtain ⟨b', h⟩ := s.card.accept_eq opDiscardH f .timed
    rw [marked, ha, h]
    exact Card.admits_portUp (c := s.card) admits
  refine ⟨t, next, ?_⟩
  rw [set]
  refine ⟨Card.finish_tagEntry _ _ _ _ _ entry rfl, ?_, ?_, fun k none => ?_, ?_, fun view b => ?_⟩
  · refine (Card.finish_out _ _ _ entry rfl port).trans (congrArg₂ List.cons ?_ ?_)
    · rw [marked]
      exact Card.accept_respNow s.card opDiscardH f .timed _ _ _ _ _ _
    · rw [marked]
      exact Card.accept_out _ _ _ _
  · have cells := congrArg Keep.cells (Card.finish_keep d f.tag stOk 0 false)
    rw [marked] at cells ⊢
    refine cells.trans ?_
    obtain ⟨b', h⟩ := s.card.accept_eq opDiscardH f .timed
    rw [ha, h]
    rfl
  · refine Card.finish_vestShrinks d f.tag stOk 0 false k ?_
    obtain ⟨b', h⟩ := s.card.accept_eq opDiscardH f .timed
    rw [marked, ha, h]
    exact none
  · have flights : (d.finish f.tag stOk 0 false).flights = d.flights := by simp
    refine flights.trans ?_
    obtain ⟨b', h⟩ := s.card.accept_eq opDiscardH f .timed
    rw [marked, ha, h]
  · have views : (d.finish f.tag stOk 0 false).views = d.views := by simp
    have same : (d.finish f.tag stOk 0 false).resolve view b = d.resolve view b := by
      unfold Card.resolve Card.entry
      rw [views]
    refine same.trans ((Card.markH_resolve bays a view b).trans ?_)
    obtain ⟨b', h⟩ := s.card.accept_eq opDiscardH f .timed
    rw [ha, h]
    rfl

end Sys2Proof.Machine

/-! What a WRITE or DISCARD.Z programs, and how it enters the working view (R264, R265, R284 to R288, R299). -/

namespace Sys2Proof.Machine

open Sys2Proof

/-! The DATA bay of a command (R284, R288). -/

/-- One sector's bit in a mask. -/
def maskStep (m : BitVec 16) (x : Option Sector × Nat) : BitVec 16 := if x.1.isSome then m ||| (1#16 <<< x.2) else m

theorem maskStep_getLsbD (m : BitVec 16) (x : Option Sector) (k : Nat) {n : Nat} (h : n < 16) :
    (maskStep m (x, k)).getLsbD n = (m.getLsbD n || (decide (n = k) && x.isSome)) := by
  have bit : (1#16 <<< k).getLsbD n = decide (n = k) := by
    rw [BitVec.getLsbD_shiftLeft, BitVec.getLsbD_one]
    by_cases same : n = k
    · simp [same, show k < 16 by omega]
    · simp [same, h]
      omega
  unfold maskStep
  cases x with
  | none => simp
  | some s => simp [bit]

theorem maskStep_foldl (l : List (Option Sector)) (k : Nat) (m : BitVec 16) {n : Nat} (h : n < 16) :
    ((l.zipIdx k).foldl maskStep m).getLsbD n = (m.getLsbD n || (decide (k ≤ n) && (l.getD (n - k) none).isSome)) := by
  induction l generalizing k m with
  | nil => simp
  | cons x r ih =>
    rw [List.zipIdx_cons, List.foldl_cons, ih, maskStep_getLsbD m x k h]
    rcases Nat.lt_trichotomy n k with less | rfl | more
    · simp [show ¬ k + 1 ≤ n by omega, show ¬ k ≤ n by omega, show n ≠ k by omega]
    · simp
    · obtain ⟨j, rfl⟩ := Nat.exists_eq_add_of_lt more
      simp [show k + j + 1 - (k + 1) = j by omega, show k + j + 1 - k = j + 1 by omega, show k + 1 ≤ k + j + 1 by omega,
        show k ≤ k + j + 1 by omega, show k + j + 1 ≠ k by omega]

theorem maskOf_getLsbD (l : List (Option Sector)) {n : Nat} (h : n < 16) :
    (maskOf l).getLsbD n = (l.getD n none).isSome := by
  have fold := maskStep_foldl l 0 0 h
  refine Eq.trans (show (maskOf l).getLsbD n = (l.zipIdx.foldl maskStep 0).getLsbD n from rfl) (fold.trans ?_)
  simp

/-- A DATA bay's sector is what the command has for it. -/
theorem WriteWork.dataBay_cell (w : WriteWork) (key : Option (BitVec 512)) (b : Nat) {n : Nat} (h : n < 16) :
    (w.dataBay key b).cell n = w.cell key b n := by
  have at_ : ((List.range 16).map (w.cell key b)).getD n none = w.cell key b n := by
    simp [List.getD, h]
  have bit : (w.dataBay key b).written n = (w.cell key b n).isSome :=
    (maskOf_getLsbD ((List.range 16).map (w.cell key b)) h).trans (by rw [at_])
  unfold Bay.cell
  rw [bit]
  cases found : w.cell key b n with
  | none => rfl
  | some x => exact at_.trans found

/-- A sector read under the key and for the place it was written with. -/
theorem Sector.read_same (key : Option (BitVec 512)) (n : Nat) (bytes : List Byte) :
    ({ key := key, tweak := n, plain := bytes } : Sector).read key n = bytes := by
  simp [Sector.read]

theorem WriteWork.dataBay_sector (w : WriteWork) (key : Option (BitVec 512)) (b : Nat) {n : Nat} (h : n < 16) :
    (w.dataBay key b).sector key n =
      if w.covers (16 * b + n) then (if w.discard then none else some (w.sectorData (16 * b + n)))
      else match w.merges.find? (fun p => p.bay == b) with
        | some p => (match p.val with
          | .got y => y.sector key n
          | _ => none)
        | none => none := by
  have is : (w.dataBay key b).sector key n = (w.cell key b n).map (fun x => x.read key (16 * b + n)) :=
    congrArg (Option.map _) (w.dataBay_cell key b h)
  rw [is]
  unfold WriteWork.cell
  split
  · split
    · rfl
    · simp only [Option.map_some, Sector.read_same]
  · cases w.merges.find? (fun p => p.bay == b) with
    | none => rfl
    | some p =>
      cases found : p.val with
      | got y => cases bytes : y.sector key n <;> simp [found, bytes, Sector.read_same]
      | _ => simp [found]

theorem WriteWork.mem_toProgram {w : WriteWork} {key : Option (BitVec 512)} {b : Nat} {x : Bay}
    (mem : (some b, x) ∈ w.toProgram key) : x = w.dataBay key b := by
  unfold WriteWork.toProgram at mem
  split at mem
  · simp at mem
    exact mem.2.symm
  · simp at mem
    exact mem.2.symm

/-! A command's changes (R264, R299). -/

/-- The changes of a list, in order, as they stand in a view's map. -/
theorem Views.apply_map (v : Views) (x : Change) (b : Nat) : KV.getD (v.apply x).map b .blank =
    if x.bay = b then { KV.getD v.map b .blank with working := x.loc, hmark := false } else KV.getD v.map b .blank := by
  unfold Views.apply
  by_cases same : x.bay = b
  · subst same
    rw [if_pos rfl]
    exact KV.getD_put_same _ _ _ _
  · rw [if_neg same]
    exact KV.getD_put_other _ _ _ (Ne.symm same)

theorem Views.apply_landed (xs : List Change) (v : Views) (b : Nat) :
    (KV.getD (xs.foldl Views.apply v).map b .blank).landed = (KV.getD v.map b .blank).landed :=
  foldl_same (fun v : Views => (KV.getD v.map b .blank).landed) Views.apply
    (fun v x => by rw [Views.apply_map]; split <;> rfl) xs v

theorem Views.apply_untouched {xs : List Change} {b : Nat} (no : ∀ x ∈ xs, x.bay ≠ b) (v : Views) :
    KV.getD (xs.foldl Views.apply v).map b .blank = KV.getD v.map b .blank := by
  induction xs generalizing v with
  | nil => rfl
  | cons x r ih =>
    rw [List.foldl_cons, ih fun y mem => no y (List.mem_cons_of_mem x mem), Views.apply_map,
      if_neg (no x List.mem_cons_self)]

/-- A bay that is changed to one place only resolves there. -/
theorem Views.apply_resolved {xs : List Change} {b : Nat} {l : Loc} (all : ∀ x ∈ xs, x.bay = b → x.loc = l) (v : Views)
    (some_ : (∃ x ∈ xs, x.bay = b) ∨
      (KV.getD v.map b .blank).working = l ∧ (KV.getD v.map b .blank).hmark = false) :
    (KV.getD (xs.foldl Views.apply v).map b .blank).working = l ∧
      (KV.getD (xs.foldl Views.apply v).map b .blank).hmark = false := by
  induction xs generalizing v with
  | nil => simpa using some_
  | cons x r ih =>
    refine ih (fun y mem => all y (List.mem_cons_of_mem x mem)) _ ?_
    rw [Views.apply_map]
    by_cases here : x.bay = b
    · exact .inr (by rw [if_pos here]; exact ⟨all x List.mem_cons_self here, rfl⟩)
    · rw [if_neg here]
      refine some_.imp_left fun ⟨y, mem, at_⟩ => ⟨y, ?_, at_⟩
      rcases List.mem_cons.mp mem with rfl | mem
      · exact absurd at_ here
      · exact mem

theorem WriteWork.mem_changes {w : WriteWork} {x : Change} (mem : x ∈ w.changes) :
    (∃ y ∈ w.bays, y.bay = some x.bay ∧ x.loc = .at y.key) ∨
      w.discard = true ∧ x.bay ∈ wholeBays w.sector w.count ∧ x.loc = .zeroed := by
  rcases List.mem_append.mp mem with bays | zeros
  · obtain ⟨y, at_, made⟩ := List.mem_filterMap.mp bays
    obtain ⟨n, bay, rfl⟩ := Option.map_eq_some_iff.mp made
    exact .inl ⟨y, at_, bay, rfl⟩
  · split at zeros
    · next discard =>
      obtain ⟨n, at_, rfl⟩ := List.mem_map.mp zeros
      exact .inr ⟨discard, at_, rfl⟩
    · cases zeros

theorem WriteWork.changes_of_bay {w : WriteWork} {y : BayWork} {b : Nat} (mem : y ∈ w.bays) (bay : y.bay = some b) :
    ∃ x ∈ w.changes, x.bay = b :=
  ⟨_, List.mem_append_left _ (List.mem_filterMap.mpr ⟨y, mem, by rw [bay]; rfl⟩), rfl⟩

/-! The final OK (R265, R286). -/

/-- A WRITE or DISCARD.Z that completes: its changes in the working view, and its final OK. -/
theorem Card.completeWrite_eq {c : Card} {g : Tag} {w : WriteWork} (notLand : w.landAfter = none) (done : w.inlineDone = true)
    (acts : c.flights.acts = []) (due : c.flights.due = []) :
    c.completeWrite g w = ((c.applyWrite g w).countWritten w).finish g stOk 0 false := by
  have counted (d : Card) : (d.countWritten w).flights = d.flights := by
    unfold Card.countWritten
    split <;> rfl
  have flights : (((c.applyWrite g w).countWritten w).finish g stOk 0 false).flights = (c.applyWrite g w).flights := by
    simp [counted]
  have kept : (c.applyWrite g w).flights.acts = c.flights.acts ∧ (c.applyWrite g w).flights.due = c.flights.due := by
    simp [Card.applyWrite, Card.applyAll, Card.setWrite]
  simp only [Card.completeWrite, notLand, done, if_true]
  exact Card.stepActs_none (by rw [flights, kept.1, acts]) (by rw [flights, kept.2, due])

theorem Card.completeWrite_map {c : Card} {g : Tag} {w : WriteWork} (notLand : w.landAfter = none) (done : w.inlineDone = true)
    (acts : c.flights.acts = []) (due : c.flights.due = []) :
    (c.completeWrite g w).views.map = (w.changes.foldl Views.apply c.views).map := by
  have counted (d : Card) : (d.countWritten w).views = d.views := by
    unfold Card.countWritten
    split <;> rfl
  rw [Card.completeWrite_eq notLand done acts due]
  simp [counted, Card.applyWrite, Card.applyAll, Card.setWrite]

/-- Settles O40: the bays by `dataBay_sector`, the views by the changes in order. -/
theorem writeAppliedAtOk : Obligations.WriteAppliedAtOk := by
  unfold Obligations.WriteAppliedAtOk
  refine ⟨fun w key b x mem => ?_, fun c g e w entry out => ⟨fun stage => ?_, fun notLand done acts due => ?_⟩⟩
  · obtain rfl := WriteWork.mem_toProgram mem
    exact ⟨rfl, rfl, rfl, fun n h => w.dataBay_sector key b h⟩
  · simp only [Card.advanceWrite, Card.cmdOf_some entry out, stage]
  · have map := Card.completeWrite_map (g := g) notLand done acts due
    have entries (b : Nat) : (c.completeWrite g w).entry b = KV.getD (w.changes.foldl Views.apply c.views).map b .blank :=
      congrArg (fun m => KV.getD m b MapEntry.blank) map
    refine ⟨?_, fun b => ?_, fun x b mem bay only notWhole => ?_, fun b discard whole => ?_, fun b untouched notWhole => ?_⟩
    · have entry' : ((c.applyWrite g w).countWritten w).tagEntry g =
          some { e with state := .outstanding (.write { w with applied := true }) } := by
        have counted (d : Card) : (d.countWritten w).ports = d.ports := by
          unfold Card.countWritten
          split <;> rfl
        have applied : ({ c.applyAll w.changes with flights := { (c.applyAll w.changes).flights with
            records := (c.applyAll w.changes).flights.records ++ [w.record] } } : Card).tagEntry g = some e := entry
        rw [Card.tagEntry, counted, Card.applyWrite, Card.setWrite, Card.setCmd_eq _ applied out]
        exact Card.putTag_tagEntry _ _ _
      rw [Card.completeWrite_eq notLand done acts due]
      exact Card.finish_tagEntry _ _ _ _ _ (e := { e with state := .outstanding (.write { w with applied := true }) }) entry' rfl
    · rw [entries]
      exact Views.apply_landed _ _ _
    · obtain ⟨working, mark⟩ := Views.apply_resolved (xs := w.changes) (l := .at x.key) (b := b) (fun y change at_ => by
        rcases WriteWork.mem_changes change with ⟨z, z_mem, z_bay, loc⟩ | ⟨discard, whole, -⟩
        · rw [loc, only z z_mem (by rw [z_bay, at_])]
        · exact absurd ⟨discard, at_ ▸ whole⟩ notWhole) c.views (.inl (WriteWork.changes_of_bay mem bay))
      rw [Card.resolve, entries, mark]
      exact working
    · have last : w.changes = (w.bays.filterMap (fun b => b.bay.map (fun n =>
          ({ ord := w.ord, bay := n, loc := .at b.key, mask := (w.dataBay none n).mask } : Change)))) ++
          (wholeBays w.sector w.count).map (fun n => { ord := w.ord, bay := n, loc := .zeroed, mask := 0 }) := by
        rw [WriteWork.changes, discard]
        rfl
      obtain ⟨working, mark⟩ := Views.apply_resolved
        (xs := (wholeBays w.sector w.count).map (fun n => ({ ord := w.ord, bay := n, loc := .zeroed, mask := 0 } : Change)))
        (l := .zeroed) (b := b) (fun y change _ => by
          obtain ⟨n, -, rfl⟩ := List.mem_map.mp change
          rfl) ((w.bays.filterMap (fun b => b.bay.map (fun n =>
          ({ ord := w.ord, bay := n, loc := .at b.key, mask := (w.dataBay none n).mask } : Change)))).foldl Views.apply c.views)
        (.inl ⟨_, List.mem_map.mpr ⟨b, whole, rfl⟩, rfl⟩)
      rw [Card.resolve, entries, last, List.foldl_append, mark]
      exact working
    · rw [entries]
      refine Views.apply_untouched (fun y change at_ => ?_) _
      rcases WriteWork.mem_changes change with ⟨z, z_mem, z_bay, -⟩ | ⟨discard, whole, -⟩
      · exact untouched z z_mem (by rw [z_bay, at_])
      · exact notWhole ⟨discard, at_ ▸ whole⟩

end Sys2Proof.Machine

/-! WRITE, its GO and its delayed merges (R283, R289, R369, R452). -/

namespace Sys2Proof.Machine

open Sys2Proof

/-! Inline reclaim leaves of every command all but a WRITE's inline work (R452). -/

/-- A WRITE's work but for its inline reclaim. -/
def WriteWork.core (w : WriteWork) : WriteWork :=
  { w with inlineErases := [], inlineMoves := 0, inlineDue := 0, inlineEmpty := [], inlined := false }

/-- An entry as it was, a WRITE's but for its inline reclaim. -/
def EntryInline (a b : Option TagEntry) : Prop :=
  b = a ∨ ∃ e w v, a = some e ∧ e.state = .outstanding (.write w) ∧ WriteWork.core v = w.core ∧
    b = some { e with state := .outstanding (.write v) }

/-- Every tag's entry is as it was, a WRITE's but for its inline reclaim. -/
def InlineWork (c d : Card) : Prop := ∀ t, EntryInline (c.tagEntry t) (d.tagEntry t)

theorem InlineWork.of_tags {c d : Card} (h : d.ports.tags = c.ports.tags) : InlineWork c d :=
  fun t => .inl (by simp only [Card.tagEntry, h])

theorem InlineWork.refl (c : Card) : InlineWork c c := .of_tags rfl

theorem InlineWork.of_rest {c d : Card} (h : d.rest = c.rest) : InlineWork c d := .of_tags (by rw [Rest.ports_eq h])

theorem InlineWork.of_near {c d : Card} (h : d.near = c.near) : InlineWork c d :=
  .of_tags (by rw [show d.ports = c.ports from congrArg Near.ports h])

theorem EntryInline.trans {a b d : Option TagEntry} (h : EntryInline a b) (k : EntryInline b d) : EntryInline a d := by
  rcases h with rfl | ⟨e, w, v, ha, hw, core, rfl⟩
  · exact k
  · rcases k with rfl | ⟨e', w', v', hb, hw', core', rfl⟩
    · exact .inr ⟨e, w, v, ha, hw, core, rfl⟩
    · obtain rfl := Option.some.inj hb
      simp only [TagState.outstanding.injEq, Cmd.write.injEq] at hw'
      subst hw'
      exact .inr ⟨e, w, v', ha, hw, core'.trans core, rfl⟩

theorem InlineWork.trans {c d e : Card} (h : InlineWork c d) (k : InlineWork d e) : InlineWork c e :=
  fun t => (h t).trans (k t)

theorem InlineWork.foldl {α : Type} {f : Card → α → Card} (h : ∀ c x, InlineWork c (f c x)) (l : List α) (c : Card) :
    InlineWork c (l.foldl f c) := by
  induction l generalizing c with
  | nil => exact .refl c
  | cons x r ih => exact (h c x).trans (ih _)

theorem EntryStays.inline {a b : Option TagEntry} (h : EntryStays a b) : EntryInline a b := by
  rcases h with h | ⟨e, w, l, ha, hw, h⟩
  · exact .inl h
  · exact .inr ⟨e, w, { w with inlineErases := l }, ha, hw, rfl, h⟩

/-- A tag with a command outstanding. -/
theorem Card.entry_of_cmdOf {c : Card} {t : Tag} {k : Cmd} (cmd : c.cmdOf t = some k) :
    ∃ e, c.tagEntry t = some e ∧ e.state = .outstanding k := by
  unfold Card.cmdOf at cmd
  split at cmd
  · next e entry =>
    split at cmd
    · next j state =>
      obtain rfl := Option.some.inj cmd
      exact ⟨e, entry, state⟩
    · cases cmd
  · cases cmd

/-- A WRITE goes on being that WRITE. -/
theorem InlineWork.write {c d : Card} (h : InlineWork c d) {t : Tag} {w : WriteWork} (cmd : c.cmdOf t = some (.write w)) :
    ∃ v, d.cmdOf t = some (.write v) ∧ v.core = w.core := by
  obtain ⟨e, entry, state⟩ := Card.entry_of_cmdOf cmd
  rcases h t with same | ⟨e', w', v, entry', state', core, now⟩
  · exact ⟨w, Card.cmdOf_some (same.trans entry) state, rfl⟩
  · obtain rfl : e' = e := Option.some.inj (entry'.symm.trans entry)
    obtain rfl : w' = w := by simpa [state] using state'.symm
    exact ⟨v, Card.cmdOf_some now rfl, core⟩

theorem Card.setInline_inline (c : Card) (t : Tag) {f : WriteWork → WriteWork} (core : ∀ k, (f k).core = k.core) :
    InlineWork c (c.setInline t f) := by
  unfold Card.setInline
  split
  · next k cmd =>
    obtain ⟨e, entry, state⟩ := Card.entry_of_cmdOf cmd
    intro u
    rw [Card.setCmd_eq _ entry state]
    by_cases same : u = t
    · subst same
      exact .inr ⟨e, k, f k, entry, state, core k, Card.putTag_tagEntry _ _ _⟩
    · exact .inl (Card.putTag_tagEntry_other _ _ same)
  · exact .refl c

theorem Card.countInline_inline (c : Card) (t : Tag) (n : Nat) : InlineWork c (c.countInline t n) :=
  c.setInline_inline t (f := fun w => { w with inlineMoves := w.inlineMoves - 1, inlineDue := w.inlineDue + n }) fun _ => rfl

theorem Card.startErase_inline (c : Card) (w : Nat) (o : EraseOwner) : InlineWork c (c.startErase w o) :=
  .of_rest (Card.startErase_rest c w o)

theorem Card.inlineErase_inline (c : Card) (t : Tag) (w : Nat) : InlineWork c (c.inlineErase t w) := by
  unfold Card.inlineErase
  refine InlineWork.trans (c.setInline_inline t fun k => ?_) (Card.startErase_inline _ _ _)
  rfl

theorem Card.inlineSpent_inline (c : Card) (t : Tag) (w : Nat) : InlineWork c (c.inlineSpent t w) := by
  unfold Card.inlineSpent
  exact (InlineWork.of_rest (Card.awaitErase_rest c w)).trans (Card.setInline_inline _ t fun _ => rfl)

theorem Card.inlineTry_inline (c : Card) (t : Tag) (w : Nat) : InlineWork c (c.inlineTry t w) := by
  unfold Card.inlineTry
  split
  · exact Card.inlineErase_inline _ _ _
  · split
    · exact .refl c
    · exact c.setInline_inline t fun _ => rfl

theorem Card.moveBack_inline (c : Card) (id : Nat) (m : Move) : InlineWork c (c.moveBack id m) := by
  unfold Card.moveBack
  dsimp only
  split
  · exact (InlineWork.of_tags rfl).trans (Card.countInline_inline _ _ _)
  · exact .of_tags rfl

theorem Card.moveLost_inline (c : Card) (id : Nat) (blind : Bool) : InlineWork c (c.moveLost id blind) := by
  unfold Card.moveLost
  split
  · have lost (d : Card) (k : Nat) : InlineWork d ((d.addLoss k .service blind).dropMove id) :=
      (InlineWork.of_rest (Card.addLoss_rest _ _ _ _)).trans (.of_tags rfl)
    dsimp only
    split
    · exact (lost _ _).trans (Card.countInline_inline _ _ _)
    · exact lost _ _
  · exact .refl c

/-- The position a relocation's copy takes (R416, R431, R467). -/
def Card.copyPlace (c : Card) (m : Move) (b : Bay) : Card × Option Nat :=
  match m.why, c.maint.young with
  | .staticLevel, some (y, target) =>
    if y = keyWing m.src ∧ c.vestRoom false then c.assignIn target b else (c, none)
  | w, _ => if w.isInline && c.quietNow then (c, none) else c.place false false b

theorem Card.copyPlace_near (c : Card) (m : Move) (b : Bay) : (c.copyPlace m b).1.near = c.near := by
  unfold Card.copyPlace
  split
  · split
    · exact Near.of_rest (Card.assignIn_rest _ _ _)
    · rfl
  · split
    · rfl
    · exact Card.place_near _ _ _ _

theorem Card.copyBay_eq (c : Card) (id : Nat) (m : Move) (b : Bay) : c.copyBay id m b =
    match (c.copyPlace m { b with reloc := true }).2 with
    | some k => (({ (c.copyPlace m { b with reloc := true }).1 with halls := { (c.copyPlace m { b with reloc := true }).1.halls with
        moves := KV.put (c.copyPlace m { b with reloc := true }).1.halls.moves id { m with dst := some k } } } : Card).draw false
          b.kind k).pump (keyDie k)
    | none => c.moveBack id m := rfl

theorem Card.copyBay_inline (c : Card) (id : Nat) (m : Move) (b : Bay) : InlineWork c (c.copyBay id m b) := by
  rw [Card.copyBay_eq]
  split
  · have moved (d : Card) (k : Nat) : InlineWork d
        { d with halls := { d.halls with moves := KV.put d.halls.moves id { m with dst := some k } } } := .of_tags rfl
    have rest (e : Card) (k : Nat) : InlineWork e ((e.draw false b.kind k).pump (keyDie k)) :=
      .of_rest ((Card.pump_rest _ _).trans (Card.draw_rest _ _ _ _))
    exact ((InlineWork.of_near (c.copyPlace_near m _)).trans (moved _ _)).trans (rest _ _)
  · exact c.moveBack_inline id m

theorem Card.startMove_inline (c : Card) (k : Nat) (why : MoveWhy) : InlineWork c (c.startMove k why) := by
  have begun (d : Card) (id : Nat) (m : Move) : InlineWork d
      { d with halls := { d.halls with moves := KV.put d.halls.moves id m } } := .of_tags rfl
  have new : InlineWork c c.newId.1 := .of_tags rfl
  unfold Card.startMove
  dsimp only
  split
  · exact (new.trans (begun _ _ _)).trans (Card.copyBay_inline _ _ _ _)
  · split
    · have lost (d : Card) : InlineWork d ((d.bump 58 1).markRefresh (keyWing k) 2) :=
        .of_rest ((Card.markRefresh_rest _ _ _).trans (Card.bump_rest _ _ _))
      exact ((new.trans (begun _ _ _)).trans (lost _)).trans (Card.moveLost_inline _ _ _)
    · exact (new.trans (begun _ _ _)).trans (.of_rest (Card.startJob_rest _ _ _ _))

theorem Card.inlineTake_inline (c : Card) (t : Tag) (due w : Nat) : InlineWork c (c.inlineTake t due w) := by
  unfold Card.inlineTake
  dsimp only
  refine InlineWork.trans (c.setInline_inline t fun k => ?_) (InlineWork.foldl (fun c x => c.startMove_inline x _) _ _)
  rfl

theorem Card.newVictim_inline (c : Card) : InlineWork c c.newVictim.1 := by
  have traced (d : Card) (w : Nat) : InlineWork d (d.traceVictim w true) := .of_rest (Card.traceVictim_rest _ _ _)
  have victim (d : Card) (v : Option (Nat × Nat)) : InlineWork d { d with maint := { d.maint with victim := v } } := .of_tags rfl
  unfold Card.newVictim
  split
  · exact (victim _ _).trans (traced _ _)
  · exact victim _ _

theorem Card.inlineMore_inline (c : Card) (t : Tag) (n : Nat) : InlineWork c (c.inlineMore t n) := by
  induction n generalizing c with
  | zero =>
    unfold Card.inlineMore
    exact .refl c
  | succ n ih =>
    unfold Card.inlineMore
    split
    · next m k next _ =>
      obtain rfl := Nat.succ.inj next
      split
      · exact .refl c
      · split
        · exact c.inlineTake_inline t _ _
        · split
          · exact (c.inlineErase_inline t _).trans (ih _)
          · have new := c.newVictim_inline
            split
            · next d chosen =>
              rw [chosen] at new
              refine new.trans (Card.setInline_inline _ t fun k => ?_)
              rfl
            · next d w _ chosen =>
              rw [chosen] at new
              split
              · exact (new.trans (Card.inlineSpent_inline _ _ _)).trans (ih _)
              · exact new.trans (Card.inlineTake_inline _ _ _ _)
    · exact .refl c

theorem Card.inlineStep_inline (c : Card) (t : Tag) : InlineWork c (c.inlineStep t) := by
  unfold Card.inlineStep
  split
  · split
    · exact .refl c
    · split
      · refine c.setInline_inline t fun k => ?_
        rfl
      · have more := c.inlineMore_inline t 8
        dsimp only
        split
        · exact more.trans (InlineWork.foldl (fun c w => c.inlineTry_inline t w) _ _)
        · exact more
  · exact .refl c

theorem Card.inlineVictim_inline (c : Card) : InlineWork c c.inlineVictim.1 := by
  unfold Card.inlineVictim
  split
  · exact .refl c
  · exact c.newVictim_inline

theorem Card.inlineReclaim_inline (c : Card) (t : Tag) (b : Nat) : InlineWork c (c.inlineReclaim t b) := by
  have begun : InlineWork c (c.setInline t (fun k => { k with inlined := true })) := c.setInline_inline t fun _ => rfl
  unfold Card.inlineReclaim
  dsimp only
  split
  · have one := begun.trans (Card.inlineErase_inline (c.setInline t (fun k => { k with inlined := true })) t (by assumption))
    split
    · exact one.trans (Card.inlineErase_inline _ _ _)
    · exact one
  · have chosen := begun.trans (Card.inlineVictim_inline (c.setInline t (fun k => { k with inlined := true })))
    split
    · next d is =>
      rw [is] at chosen
      exact chosen
    · next d w v is =>
      rw [is] at chosen
      split
      · exact (chosen.trans (Card.inlineSpent_inline _ _ _)).trans (Card.inlineStep_inline _ _)
      · refine (chosen.trans (Card.setInline_inline _ t fun k => ?_)).trans (Card.inlineStep_inline _ _)
        rfl

theorem Card.breakQuiet_inline (c : Card) : InlineWork c c.breakQuiet := by
  have ended : InlineWork c ((c.maint.running.filter Window.quiet).foldl (fun c w => c.endOne w 3) c) :=
    fun t => ((WindowEnd.foldl (fun c (w : Window) => c.endOne_windowEnd w 3) _ c).entry t).inline
  have pumped (d : Card) : InlineWork d d.pumpAll := .of_rest (Card.pumpAll_rest d)
  have told (d : Card) (code : BitVec 6) (info : BitVec 24) : InlineWork d (d.notice code info) := .of_tags (Card.notice_tags _ _ _)
  unfold Card.breakQuiet
  split
  · exact (ended.trans (pumped _)).trans (told _ _ _)
  · exact .refl c


/-- What only the Balcony's fields tell apart has the same commands. -/
theorem BalconyOnly.cmdOf {c d : Card} (h : BalconyOnly c d) (t : Tag) : d.cmdOf t = c.cmdOf t := by
  obtain ⟨b, rfl⟩ := h
  rfl

theorem BalconyOnly.cells {c d : Card} (h : BalconyOnly c d) : d.media.cells = c.media.cells := by
  obtain ⟨b, rfl⟩ := h
  rfl

theorem Card.cells_of_keep {c d : Card} (h : d.keep.cells = c.keep.cells) : d.media.cells = c.media.cells := h

/-! WRITE is accepted and waits for its GO (R283). -/

theorem Card.setWrite_cmdOf {c : Card} {t : Tag} {e : TagEntry} {k : Cmd} (w : WriteWork) (entry : c.tagEntry t = some e)
    (out : e.state = .outstanding k) : (c.setWrite t w).cmdOf t = some (.write w) := by
  rw [Card.setWrite, Card.setCmd_eq _ entry out]
  exact Card.cmdOf_some (Card.putTag_tagEntry _ _ _) rfl

/-- The card with a WRITE taken: its dies served, its marks weighed, a quiet window broken where it must be. -/
def Card.writeTaken (c : Card) (f : Frame) : Card :=
  let d := (((c.setWrite f.tag (c.newWrite f false)).pumpAll).evalMarks).breakQuiet
  if d.mayInline then d.inlineReclaim f.tag (c.newWrite f false).credit else d

theorem Card.doWrite_taken {c : Card} {f : Frame} (free : c.writeRefusal opWrite f = none) (up : c.link.mode = .up) :
    c.doWrite f = c.writeTaken f := by
  simp only [Card.doWrite, free]
  exact Card.needLanes_up _ _ up

theorem Card.writeTaken_inline (c : Card) (f : Frame) :
    InlineWork (c.setWrite f.tag (c.newWrite f false)) (c.writeTaken f) := by
  have served (d : Card) : InlineWork d d.pumpAll.evalMarks.breakQuiet :=
    ((InlineWork.of_rest (Card.pumpAll_rest d)).trans (.of_rest (Card.evalMarks_rest _))).trans (Card.breakQuiet_inline _)
  unfold Card.writeTaken
  dsimp only
  split
  · exact (served _).trans (Card.inlineReclaim_inline _ _ _)
  · exact served _

/-- A WRITE taken, and its work since: it waits for its GO (R283). -/
theorem WriteWork.taken {c : Card} {f : Frame} {v : WriteWork} (core : v.core = (c.newWrite f false).core) :
    v.stage = .waitGo ∧ v.sector = f.sector.toNat ∧ v.count = f.count.toNat ∧ v.discard = false ∧
      v.ord = c.flights.openOrd ∧ v.credit = (baysOf f.sector.toNat f.count.toNat).length ∧ v.applied = false ∧
      v.landAfter = (if f.flags.getLsbD 0 then some f.arg else none) := by
  cases v
  simp only [WriteWork.core, Card.newWrite, WriteWork.mk.injEq] at core
  obtain ⟨discard, sector, count, ord, -, landAfter, stage, credit, -, -, -, -, -, -, -, -, -, -, -, applied⟩ := core
  subst discard sector count ord stage credit applied
  exact ⟨rfl, rfl, rfl, rfl, rfl, rfl, rfl, by simpa using landAfter⟩

/-! The GO (R191, R237, R283). -/

/-- The transfer a WRITE's GO asks for. -/
def WriteWork.asked (w : WriteWork) : Xfer :=
  { bytes := 4096 * w.count, frames := [], trailers := [], failed := 0, cause := none }

/-- A WRITE whose GO is out. -/
def WriteWork.gone (w : WriteWork) : WriteWork := { w with stage := .data, xfer := some w.asked }

/-- A WRITE whose data is on its way waits for it. -/
theorem Card.advanceWrite_data {c : Card} {t : Tag} {w : WriteWork} (cmd : c.cmdOf t = some (.write w))
    (data : w.stage = .data) : c.advanceWrite t = c := by
  simp only [Card.advanceWrite, cmd, data]

/-- A WRITE or DISCARD.Z whose merge reads begin (R288). -/
def Card.mergesOf (c : Card) (w : WriteWork) : WriteWork :=
  { w with mergesIssued := true, merges := (partBays w.sector w.count).map c.mergePiece }

/-- A WRITE whose merge reads have begun goes on as it is. -/
theorem Card.issueMerges_cmdOf {c : Card} {t : Tag} {w : WriteWork} (cmd : c.cmdOf t = some (.write w)) :
    (c.issueMerges t w).cmdOf t = some (.write (if w.mergesIssued then w else c.mergesOf w)) := by
  obtain ⟨e, entry, out⟩ := Card.entry_of_cmdOf cmd
  unfold Card.issueMerges
  split
  · exact cmd
  · dsimp only
    rw [← Card.setWrite_cmdOf (c.mergesOf w) entry out,
      Card.cmdOf_of_tags (congrArg Ports.tags (Rest.ports_eq (Card.startReads_rest _ _ _ _)))]
    rfl

theorem Card.issueMerges_out (c : Card) (t : Tag) (w : WriteWork) : (c.issueMerges t w).out = c.out := by
  unfold Card.issueMerges Card.setWrite
  split
  · rfl
  · exact (Far.out_eq (Card.startReads_far _ _ _ _)).trans (by simp)

theorem Card.openXfer_of_cmdOf {c : Card} {t : Tag} {w : WriteWork} {x : Xfer} (cmd : c.cmdOf t = some (.write w))
    (data : w.stage = .data) (xfer : w.xfer = some x) : c.openXfer t = some (w, x) := by
  simp only [Card.openXfer, cmd, data, xfer]

/-- A WRITE that waits for its GO gets it, or goes on waiting. -/
theorem Card.writeGo_eq {c : Card} {t : Tag} {e : TagEntry} {w : WriteWork} (entry : c.tagEntry t = some e)
    (out : e.state = .outstanding (.write w)) (waits : w.stage = .waitGo) (hclk : c.power.hclk = true) :
    c.writeGo t = if c.mayGo w then
        let d := (((c.respond e.port 2 t stOk 0 false).ev 2 ([t.setWidth 8] ++ leBytes 2 w.credit)).setWrite t w.gone)
        if w.delayed then d else d.issueMerges t w.gone
      else if c.breakQuiet.mayInline && w.inlineDone then c.breakQuiet.inlineReclaim t w.credit else c.breakQuiet := by
  unfold Card.writeGo
  simp only [entry, Card.cmdOf_some entry out, waits, hclk, ne_eq, not_true_eq_false, Bool.not_true]
  rfl

/-- Settles O37: the work by what its core keeps, the GO's response, and the merges that begin. -/
theorem writeRule : Obligations.WriteRule := by
  unfold Obligations.WriteRule
  refine ⟨fun s f admits up free => ?_, fun s g e w entry out port waits hclk => ?_, fun s g hclk => ⟨?_, ?_⟩,
    fun s g w cmd delayed hclk => ⟨fun shares => ?_, fun alone waits => ?_, fun alone data unissued => ?_⟩⟩
  · set a := s.card.accept opWrite f .timed with ha
    have taken : a.working opWrite f .timed := s.card.accept_working opWrite f .timed
    obtain ⟨b', h⟩ := s.card.accept_eq opWrite f .timed
    have flights : a.flights = s.card.flights := by rw [ha, h]
    obtain ⟨t, next, b, set⟩ := run_spec (fun c => c.receive opWrite f .timed (fun c => c.doWrite f)) s
    rw [Card.receive_of_admits _ _ admits, ← ha, Card.doWrite_taken free (by rw [ha, Card.accept_link]; exact up)] at set
    obtain ⟨v, cmd, core⟩ := (a.writeTaken_inline f).write (Card.setWrite_cmdOf (a.newWrite f false) taken rfl)
    obtain ⟨stage, sector, count, discard, ord, credit, applied, landAfter⟩ := WriteWork.taken core
    rw [flights] at ord
    refine ⟨t, v, next, ?_, stage, sector, count, discard, ord, credit, applied, landAfter, ?_⟩
    · exact (BalconyOnly.cmdOf ⟨b, set⟩ _).trans cmd
    · have cells := (a.doWrite_keeps f).2.2.1
      rw [Card.doWrite_taken free (by rw [ha, Card.accept_link]; exact up)] at cells
      refine (BalconyOnly.cells ⟨b, set⟩).trans ((Card.cells_of_keep cells).trans ?_)
      rw [ha, h]
  · obtain ⟨t, next, b, set⟩ := run_spec (fun c => c.writeGo g) s
    rw [Card.writeGo_eq entry out waits hclk] at set
    refine ⟨t, next, fun may => ?_, fun mayNot => ?_⟩
    · rw [if_pos may] at set
      dsimp only at set
      have up : s.card.portUp e.port = true := by rw [port]; rfl
      obtain ⟨sends, tags⟩ := Card.respond_sends (c := s.card) 2 g stOk 0 false up
      set r := (s.card.respond e.port 2 g stOk 0 false).ev 2 ([g.setWidth 8] ++ leBytes 2 w.credit) with hr
      have still : r.tagEntry g = some e := by
        rw [Card.tagEntry, hr, Rest.ports_eq (Card.ev_rest _ _ _), tags]
        exact entry
      have cmd : (r.setWrite g w.gone).cmdOf g = some (.write w.gone) := Card.setWrite_cmdOf _ still out
      have told : (r.setWrite g w.gone).out = s.card.respNow .ci 2 g stOk 0 false :: s.card.out := by
        rw [Card.setWrite, Far.out_eq (Card.setCmd_far _ _ _), hr, Far.out_eq (Card.ev_far _ _ _), sends, port]
      have data : w.gone.stage = .data := rfl
      split at set
      · refine ⟨?_, w.gone, w.asked, ?_, rfl, rfl, rfl, rfl, rfl⟩
        · rw [set]
          exact told
        · exact Card.openXfer_of_cmdOf ((BalconyOnly.cmdOf ⟨b, set⟩ _).trans cmd) data rfl
      · have merging := Card.issueMerges_cmdOf cmd
        have sent := ((r.setWrite g w.gone).issueMerges_out g w.gone).trans told
        split at merging
        · refine ⟨?_, w.gone, w.asked, ?_, rfl, rfl, rfl, rfl, rfl⟩
          · rw [set]
            exact sent
          · exact Card.openXfer_of_cmdOf ((BalconyOnly.cmdOf ⟨b, set⟩ _).trans merging) data rfl
        · refine ⟨?_, (r.setWrite g w.gone).mergesOf w.gone, w.asked, ?_, rfl, rfl, rfl, rfl, rfl⟩
          · rw [set]
            exact sent
          · exact Card.openXfer_of_cmdOf ((BalconyOnly.cmdOf ⟨b, set⟩ _).trans merging) rfl rfl
    · rw [if_neg (by simp [mayNot])] at set
      have stays : InlineWork s.card (if s.card.breakQuiet.mayInline && w.inlineDone then
          s.card.breakQuiet.inlineReclaim g w.credit else s.card.breakQuiet) := by
        split
        · exact s.card.breakQuiet_inline.trans (Card.inlineReclaim_inline _ _ _)
        · exact s.card.breakQuiet_inline
      obtain ⟨v, cmd, core⟩ := stays.write (Card.cmdOf_some entry out)
      refine ⟨v, ?_, ?_⟩
      · exact (BalconyOnly.cmdOf ⟨b, set⟩ _).trans cmd
      · exact (congrArg WriteWork.stage core).trans waits
  · refine run_eq (f := fun c => c.writeGo g) (d := s.card) ?_ (Nat.le_refl _)
    unfold Card.writeGo
    split
    · simp [hclk]
    · rfl
  · refine run_eq (f := fun c => c.delayedStart g) (d := s.card) ?_ (Nat.le_refl _)
    unfold Card.delayedStart
    split
    · simp [hclk]
    · rfl
  · refine run_eq (f := fun c => c.delayedStart g) (d := s.card) ?_ (Nat.le_refl _)
    simp [Card.delayedStart, cmd, shares]
  · obtain ⟨e, entry, out⟩ := Card.entry_of_cmdOf cmd
    obtain ⟨t, next, b, set⟩ := run_spec (fun c => c.delayedStart g) s
    have does : s.card.delayedStart g = s.card.setWrite g { w with delayed := false } := by
      simp only [Card.delayedStart, cmd, delayed, hclk, alone, waits, Bool.not_false, and_self, if_true]
    refine ⟨t, next, ?_⟩
    rw [does] at set
    exact (BalconyOnly.cmdOf ⟨b, set⟩ _).trans (Card.setWrite_cmdOf _ entry out)
  · obtain ⟨e, entry, out⟩ := Card.entry_of_cmdOf cmd
    obtain ⟨t, next, b, set⟩ := run_spec (fun c => c.delayedStart g) s
    have does : s.card.delayedStart g = ((s.card.setWrite g { w with delayed := false }).issueMerges g
        { w with delayed := false }).advanceWrite g := by
      simp only [Card.delayedStart, cmd, delayed, hclk, alone, data, Bool.not_false, and_self, if_true]
    have merging := Card.issueMerges_cmdOf (Card.setWrite_cmdOf { w with delayed := false } entry out)
    rw [if_neg (by simp [unissued])] at merging
    have pieces : (s.card.setWrite g { w with delayed := false }).mergePiece = s.card.mergePiece := by
      rw [Card.setWrite, Card.setCmd_eq _ entry out]
      rfl
    rw [Card.mergesOf, pieces] at merging
    refine ⟨t, next, ?_⟩
    rw [does, Card.advanceWrite_data merging data] at set
    exact (BalconyOnly.cmdOf ⟨b, set⟩ _).trans merging

end Sys2Proof.Machine

/-! DISCARD.Z (R288, R289, R299, R300, R430). -/

namespace Sys2Proof.Machine

open Sys2Proof

theorem Near.ports_eq {c d : Card} (h : d.near = c.near) : d.ports = c.ports := congrArg Near.ports h

theorem Near.far_eq {c d : Card} (h : d.near = c.near) : d.far = c.far := congrArg Near.far h

theorem KV.put_put_same {α : Type} (m : KV α) (k : Nat) (v w : α) : KV.put (KV.put m k v) k w = KV.put m k w := by
  induction m with
  | nil => simp [KV.put]
  | cons x r ih =>
    obtain ⟨j, u⟩ := x
    by_cases less : k < j
    · simp [KV.put, less]
    · by_cases same : k = j
      · simp [KV.put, same]
      · simp [KV.put, less, same, ih]

theorem Card.setWrite_media (c : Card) (t : Tag) (w : WriteWork) : (c.setWrite t w).media = c.media := Card.setCmd_media _ _ _

theorem Card.placeNew_stands {c : Card} {user : Bool} {b : Bay} {k : Nat} (h : (c.placeNew user b).2 = some k) :
    b.stands (c.placeNew user b).1.media.vest k :=
  Card.place_stands (c := c) (user := user) (fresh := true) (Prod.ext rfl h)

/-- A work set twice is the last one. -/
theorem Card.setWrite_setWrite {c : Card} {t : Tag} {e : TagEntry} {k : Cmd} (v w : WriteWork) (entry : c.tagEntry t = some e)
    (out : e.state = .outstanding k) : (c.setWrite t v).setWrite t w = c.setWrite t w := by
  have now : (c.putTag t { e with state := .outstanding (.write v) }).tagEntry t =
      some { e with state := .outstanding (.write v) } := Card.putTag_tagEntry _ _ _
  rw [Card.setWrite, Card.setWrite, Card.setWrite, Card.setCmd_eq _ entry out, Card.setCmd_eq _ now rfl, Card.setCmd_eq _ entry out]
  simp only [Card.putTag, KV.put_put_same]

theorem Card.setWrite_working {c : Card} {op : Byte} {f : Frame} {k : Cmd} (w : WriteWork) (taken : c.working op f k) :
    (c.setWrite f.tag w).working op f (.write w) := by
  rw [Card.setWrite, Card.setCmd_eq _ taken rfl]
  exact Card.putTag_tagEntry _ _ _

theorem Card.working_of_ports {c d : Card} {op : Byte} {f : Frame} {k : Cmd} (h : d.ports = c.ports)
    (taken : c.working op f k) : d.working op f k := by
  rw [Card.working, Card.tagEntry, h]
  exact taken

/-- Pieces that are all there, and none lost, call for nothing. -/
theorem Card.startReads_got {c : Card} {ps : List Piece} (p : Nat → Purpose) (strict : Bool)
    (ready : ∀ x ∈ ps, x.ready = true) (got : ∀ x ∈ ps, x.val ≠ .lost) : c.startReads ps p strict = c := by
  have there {x : Piece × Nat} (mem : x ∈ ps.zipIdx) : x.1.ready = true ∧ x.1.val ≠ .lost :=
    ⟨ready _ (List.fst_mem_of_mem_zipIdx mem), got _ (List.fst_mem_of_mem_zipIdx mem)⟩
  unfold Card.startReads
  generalize ps.zipIdx = l at there
  induction l with
  | nil => rfl
  | cons x r ih =>
    obtain ⟨isReady, isGot⟩ := there List.mem_cons_self
    have first : (match x.1.src with
        | .at k => if x.1.ready then c.notePiece x.1 (p x.2) strict k else c.startJob k (p x.2) strict
        | .zero => c) = c := by
      split
      · rw [if_pos isReady]
        unfold Card.notePiece
        rw [if_pos isGot]
      · rfl
    rw [List.foldl_cons]
    refine Eq.trans (congrArg (fun d => List.foldl _ d r) first) ?_
    exact ih fun mem => there (List.mem_cons_of_mem x mem)

theorem Card.issueMerges_eq {c : Card} {t : Tag} {w : WriteWork} (unissued : w.mergesIssued = false) :
    c.issueMerges t w = (c.setWrite t (c.mergesOf w)).startReads (c.mergesOf w).merges (.merge t) false := by
  unfold Card.issueMerges
  rw [if_neg (by simp [unissued])]
  rfl

/-! How a DISCARD.Z goes on once its merge reads have begun (R430). -/

theorem Card.advanceWrite_merging {c : Card} {t : Tag} {w : WriteWork} (cmd : c.cmdOf t = some (.write w))
    (merging : w.stage = .merging) (free : w.delayed = false) (issued : w.mergesIssued = true) :
    c.advanceWrite t = if w.merges.all Piece.ready then c.assignWrite t w else c := by
  simp only [Card.advanceWrite, cmd, merging, free, issued, Bool.false_eq_true, if_false, true_and]

/-- The bays of a DISCARD.Z that have their positions (R430 step 4). -/
def WriteWork.assigned (w : WriteWork) (bays : List (Option Nat)) (ks : List Nat) : WriteWork :=
  { w with stage := .programming, credit := 0, bays := (bays.zip ks).map (fun x => { bay := x.1, key := x.2, done := false }) }

theorem Card.assignWrite_discard {c : Card} {t : Tag} {w : WriteWork} (discard : w.discard = true)
    (got : ∀ p ∈ w.merges, p.val ≠ .lost) : c.assignWrite t w =
      match c.placeWrite t w ((w.toProgram c.dataKey).map Prod.snd) with
      | some (d, ks) => d.setWrite t (w.assigned ((w.toProgram c.dataKey).map Prod.fst) ks)
      | none => c := by
  have none : w.merges.find? (fun p => p.val == .lost) = none := by
    rw [List.find?_eq_none]
    intro p mem
    simp [got p mem]
  have late (d : Card) (v : WriteWork) (n : Nat) (same : v.discard = true) : d.lateInline t v n = d := by
    simp [Card.lateInline, same]
  unfold Card.assignWrite
  rw [none]
  dsimp only
  cases c.placeWrite t w ((w.toProgram c.dataKey).map Prod.snd) with
  | none => rfl
  | some x => exact late _ _ _ discard

/-- Positions are taken for the bays of a command: its tag stays outstanding, and nothing goes out (R430 step 4). -/
theorem Card.placeWrite_stays {c d : Card} {op : Byte} {f : Frame} {k : Cmd} {w : WriteWork} {bs : List Bay} {ks : List Nat}
    (taken : c.working op f k) (h : c.placeWrite f.tag w bs = some (d, ks)) :
    (∃ j, d.working op f j) ∧ d.far = c.far ∧ d.keep = c.keep := by
  have keep := Card.placeWrite_keep _ _ _ _ _ _ h
  unfold Card.placeWrite at h
  split at h
  · have near := Card.placeAll_near h
    refine ⟨⟨_, Card.working_of_ports (Near.ports_eq near) (Card.setWrite_working { w with credit := 0 } taken)⟩, ?_, keep⟩
    have set : (c.setWrite f.tag { w with credit := 0 }).far = c.far := Card.setCmd_far _ _ _
    exact (Near.far_eq near).trans set
  · have near := Card.placeAll_near h
    exact ⟨⟨_, Card.working_of_ports (Near.ports_eq near) taken⟩, Near.far_eq near, keep⟩

/-- A DISCARD.Z without credit to give back places its bays as any other work does (R283, R430). -/
theorem Card.placeWrite_free {c : Card} {t : Tag} {e : TagEntry} {k : Cmd} {w : WriteWork} (bs : List Bay)
    (discard : w.discard = true) (credit : w.credit = 0) (entry : c.tagEntry t = some e) (out : e.state = .outstanding k) :
    (c.setWrite t w).placeWrite t w bs = (c.setWrite t w).placeAll false bs := by
  have none : ({ w with credit := 0 } : WriteWork) = w := by rw [← credit]
  unfold Card.placeWrite
  rw [none, Card.setWrite_setWrite w w entry out, discard]
  exact ite_self _

/-! DISCARD.Z as it is accepted (R299). -/

theorem Card.pumpAll_working {c : Card} {op : Byte} {f : Frame} {k : Cmd} (taken : c.working op f k) :
    c.pumpAll.working op f k := Card.working_of_ports (Rest.ports_eq (Card.pumpAll_rest c)) taken

/-- A DISCARD.Z taken, its dies served. -/
def Card.discardTaken (c : Card) (f : Frame) : Card := (c.setWrite f.tag (c.newWrite f true)).pumpAll

theorem Card.doDiscardZ_taken {c : Card} {f : Frame} (free : c.writeRefusal opDiscardZ f = none) :
    c.doDiscardZ f = if (c.newWrite f true).delayed then c.discardTaken f
      else ((c.discardTaken f).issueMerges f.tag (c.newWrite f true)).advanceWrite f.tag := by
  simp only [Card.doDiscardZ, free]
  rfl

theorem Card.discardTaken_working {c : Card} {op : Byte} {f : Frame} {k : Cmd} (taken : c.working op f k) :
    (c.discardTaken f).working op f (.write (c.newWrite f true)) := Card.pumpAll_working (Card.setWrite_working _ taken)

theorem Card.discardTaken_far (c : Card) (f : Frame) : (c.discardTaken f).far = c.far :=
  (Card.pumpAll_far _).trans (Card.setCmd_far _ _ _)

theorem Card.discardTaken_keep (c : Card) (f : Frame) : (c.discardTaken f).keep = c.keep :=
  (Card.pumpAll_keep _).trans (Card.setCmd_keep _ _ _)

/-- The merge reads of a DISCARD.Z begin: its work is its own, and nothing goes out. -/
theorem Card.issueMerges_stays {c : Card} {op : Byte} {f : Frame} {k : Cmd} {w : WriteWork} (taken : c.working op f k)
    (unissued : w.mergesIssued = false) : (c.issueMerges f.tag w).working op f (.write (c.mergesOf w)) ∧
      (c.issueMerges f.tag w).far = c.far ∧ (c.issueMerges f.tag w).keep = c.keep := by
  rw [Card.issueMerges_eq unissued]
  exact ⟨Card.working_of_ports (Rest.ports_eq (Card.startReads_rest _ _ _ _)) (Card.setWrite_working _ taken),
    (Card.startReads_far _ _ _ _).trans (Card.setCmd_far _ _ _), (Card.startReads_keep _ _ _ _).trans (Card.setCmd_keep _ _ _)⟩

/-- What a step leaves of a card for DISCARD.Z: the flash, what went out, and the views. -/
theorem Card.quiet_of {c d : Card} (far : d.far = c.far) (keep : d.keep = c.keep) :
    d.out = c.out ∧ d.media.cells = c.media.cells ∧ d.views = c.views :=
  ⟨Far.out_eq far, congrArg Keep.cells keep, congrArg Far.views far⟩

theorem BalconyOnly.working {c d : Card} {op : Byte} {f : Frame} {k : Cmd} (h : BalconyOnly c d) (work : c.working op f k) :
    d.working op f k := by
  obtain ⟨b, rfl⟩ := h
  exact work

theorem BalconyOnly.quiet {c d : Card} (h : BalconyOnly c d) :
    d.out = c.out ∧ d.media = c.media ∧ d.views = c.views := by
  obtain ⟨b, rfl⟩ := h
  exact ⟨rfl, rfl, rfl⟩


/-- The DISCARD bay of a DISCARD.Z (R299). -/
def WriteWork.discardBay (w : WriteWork) : Bay :=
  newBay .discard 0 0 w.ord (.discard [{ first := w.sector, count := w.count, ord := w.ord, seq := 0 }])

theorem WriteWork.toProgram_whole {w : WriteWork} (key : Option (BitVec 512)) (discard : w.discard = true)
    (whole : partBays w.sector w.count = []) : w.toProgram key = [(none, w.discardBay)] := by
  rw [WriteWork.toProgram, if_pos discard, whole]
  rfl

/-- A DISCARD.Z whose one bay has its position. -/
def WriteWork.placed (w : WriteWork) (key : Nat) : WriteWork :=
  { w with stage := .programming, credit := 0, bays := [{ bay := none, key := key, done := false }] }

theorem WriteWork.placed_fields (w : WriteWork) (key : Nat) : (w.placed key).discard = w.discard ∧
    (w.placed key).sector = w.sector ∧ (w.placed key).count = w.count ∧ (w.placed key).ord = w.ord ∧
    (w.placed key).stage = .programming ∧ (w.placed key).bays = [{ bay := none, key := key, done := false }] :=
  ⟨rfl, rfl, rfl, rfl, rfl, rfl⟩

/-- A DISCARD.Z of whole bays places its one bay, or goes on waiting (R299; log entry 87). -/
theorem Card.assignWrite_whole {c : Card} {t : Tag} {e : TagEntry} {k : Cmd} {w : WriteWork} (discard : w.discard = true)
    (credit : w.credit = 0) (merges : w.merges = []) (whole : partBays w.sector w.count = []) (entry : c.tagEntry t = some e)
    (out : e.state = .outstanding k) : (c.setWrite t w).assignWrite t w =
      match ((c.setWrite t w).placeNew false w.discardBay).2 with
      | some key => ((c.setWrite t w).placeNew false w.discardBay).1.setWrite t (w.placed key)
      | none => c.setWrite t w := by
  rw [Card.assignWrite_discard discard (by simp [merges]), WriteWork.toProgram_whole _ discard whole]
  simp only [List.map_cons, List.map_nil]
  rw [Card.placeWrite_free _ discard credit entry out]
  unfold Card.placeAll
  obtain ⟨d, _ | key⟩ := (c.setWrite t w).placeNew false w.discardBay
  · rfl
  · rfl

/-- Settles O38: taken and waiting, merging, or placed. -/
theorem discardZRule : Obligations.DiscardZRule := by
  unfold Obligations.DiscardZRule
  intro s f admits free c v c1 ps w'
  have taken : c.working opDiscardZ f .timed := s.card.accept_working opDiscardZ f .timed
  obtain ⟨flights, base⟩ : c.flights = s.card.flights ∧
      (c.out = s.card.out ∧ c.media.cells = s.card.media.cells ∧ c.views = s.card.views) := by
    obtain ⟨b, h⟩ := s.card.accept_eq opDiscardZ f .timed
    rw [show c = _ from h]
    exact ⟨rfl, rfl, rfl, rfl⟩
  have ord : v.ord = s.card.flights.openOrd := congrArg Flights.openOrd flights
  have work1 : c1.working opDiscardZ f (.write v) := Card.discardTaken_working taken
  have far1 : c1.far = c.far := Card.discardTaken_far c f
  have keep1 : c1.keep = c.keep := Card.discardTaken_keep c f
  obtain ⟨workM, farM, keepM⟩ := Card.issueMerges_stays (w := v) work1 rfl
  set m := c1.issueMerges f.tag v with hm
  obtain ⟨t, next, b, set⟩ := run_spec (fun c => c.receive opDiscardZ f .timed (fun c => c.doDiscardZ f)) s
  rw [Card.receive_of_admits _ _ admits] at set
  have only : BalconyOnly (c.doDiscardZ f) t.card := ⟨b, set⟩
  rw [Card.doDiscardZ_taken free] at only
  have quiet {d : Card} (is : BalconyOnly d t.card) (far : d.far = c.far) (keep : d.keep = c.keep) :
      t.card.out = s.card.out ∧ t.card.media.cells = s.card.media.cells ∧ t.card.views = s.card.views := by
    obtain ⟨o, me, vi⟩ := is.quiet
    obtain ⟨o', me', vi'⟩ := Card.quiet_of far keep
    exact ⟨o.trans (o'.trans base.1), (congrArg Media.cells me).trans (me'.trans base.2.1), vi.trans (vi'.trans base.2.2)⟩
  have onward (now : v.delayed = false) : BalconyOnly (if ps.all Piece.ready then m.assignWrite f.tag w' else m) t.card := by
    rw [if_neg (by rw [now]; exact Bool.false_ne_true)] at only
    have goes := Card.advanceWrite_merging (Card.cmdOf_some workM rfl) (w := w') rfl now rfl
    exact goes ▸ only
  refine ⟨?_, fun now notReady => ?_, fun d ks now ready got placed => ?_⟩
  · intro whole r place
    have none : ps = [] := congrArg (List.map c1.mergePiece) whole
    have work' : w' = { v with mergesIssued := true } := congrArg (fun l => { v with mergesIssued := true, merges := l }) none
    have bay : w'.discardBay = newBay .discard 0 0 s.card.flights.openOrd (.discard [r]) := by
      rw [← ord]
      simp only [r, ← ord]
      rfl
    have placing : place = (c1.setWrite f.tag w').placeNew false w'.discardBay := by rw [bay, work']
    have same : m = c1.setWrite f.tag w' := by
      rw [hm, Card.issueMerges_eq rfl]
      refine Card.startReads_got _ _ (fun x mem => ?_) (fun x mem => ?_)
      · rw [show (c1.mergesOf v).merges = [] from none] at mem
        cases mem
      · rw [show (c1.mergesOf v).merges = [] from none] at mem
        cases mem
    cases now : v.delayed with
    | true =>
      rw [now, if_pos rfl] at only
      obtain ⟨o, me, vi⟩ := quiet only far1 keep1
      exact ⟨t, v, next, only.working work1, rfl, rfl, rfl, ord, o, me, vi, fun _ => rfl, nofun, nofun⟩
    | false =>
      have done := onward now
      rw [none, List.all_nil, if_pos rfl, same, Card.assignWrite_whole rfl rfl none whole work1 rfl, ← placing] at done
      have farW : (c1.setWrite f.tag w').far = c.far := (Card.setCmd_far _ _ _).trans far1
      have keepW : (c1.setWrite f.tag w').keep = c.keep := (Card.setCmd_keep _ _ _).trans keep1
      have workW : (c1.setWrite f.tag w').working opDiscardZ f (.write w') := Card.setWrite_working _ work1
      cases found : place.2 with
      | none =>
        rw [found] at done
        obtain ⟨o, me, vi⟩ := quiet done farW keepW
        exact ⟨t, w', next, done.working workW, rfl, rfl, rfl, ord, o, me, vi, nofun, fun _ _ => ⟨rfl, rfl, rfl⟩, nofun⟩
      | some k =>
        rw [found] at done
        have near : place.1.near = (c1.setWrite f.tag w').near := placing ▸ Card.placeNew_near _ _ _
        have keepP : place.1.keep = c.keep := (placing ▸ Card.placeNew_keep _ _ _ : place.1.keep = _).trans keepW
        have farP : place.1.far = c.far := (Near.far_eq near).trans farW
        have stands : w'.discardBay.stands place.1.media.vest k :=
          placing ▸ Card.placeNew_stands (placing ▸ found)
        have workP : place.1.working opDiscardZ f (.write w') := Card.working_of_ports (Near.ports_eq near) workW
        obtain ⟨o, me, vi⟩ := quiet done ((Card.setCmd_far _ _ _).trans farP) ((Card.setCmd_keep _ _ _).trans keepP)
        obtain ⟨discard, sector, count, order, stage, bays⟩ := w'.placed_fields k
        obtain ⟨isDiscard, isSector, isCount⟩ : w'.discard = true ∧ w'.sector = f.sector.toNat ∧ w'.count = f.count.toNat :=
          ⟨rfl, rfl, rfl⟩
        refine ⟨t, w'.placed k, next, done.working (Card.setWrite_working _ workP), discard.trans isDiscard,
          sector.trans isSector, count.trans isCount, order.trans ord, o, me, vi, nofun, ?_, ?_⟩
        · intro _ no
          cases no
        intro key _ at_
        obtain rfl := Option.some.inj at_
        obtain ⟨x, find, kind, -, -, bayOrd, -, body, -⟩ := stands
        have isBody : x.body = .discard [r] := by rw [body, bay]; rfl
        have isOrd : x.ord = s.card.flights.openOrd := by rw [bayOrd]; exact ord
        refine ⟨stage, bays, x, ?_, kind, isOrd, isBody⟩
        rw [done.quiet.2.1, Card.setWrite_media]
        exact find
  · rw [if_neg notReady] at onward
    obtain ⟨o, me, vi⟩ := quiet (onward now) (farM.trans far1) (keepM.trans keep1)
    exact ⟨t, next, (onward now).working workM, o, me, vi⟩
  · rw [if_pos ready] at onward
    have same : m = c1.setWrite f.tag w' := by
      rw [hm, Card.issueMerges_eq rfl]
      exact Card.startReads_got _ _ (List.all_eq_true.mp ready) got
    have key : (c1.setWrite f.tag w').dataKey = c.dataKey :=
      Card.dataKey_congr (congrArg Far.alcove ((Card.setCmd_far _ _ _).trans far1))
    have done := onward now
    rw [same, Card.assignWrite_discard rfl got, key, placed] at done
    obtain ⟨⟨j, workD⟩, farD, keepD⟩ := Card.placeWrite_stays (Card.setWrite_working w' work1) placed
    have far2 : (c1.setWrite f.tag w').far = c.far := (Card.setCmd_far _ _ _).trans far1
    have keep2 : (c1.setWrite f.tag w').keep = c.keep := (Card.setCmd_keep _ _ _).trans keep1
    obtain ⟨-, me, vi⟩ := quiet done ((Card.setCmd_far _ _ _).trans (farD.trans far2))
      ((Card.setCmd_keep _ _ _).trans (keepD.trans keep2))
    exact ⟨t, next, me, vi, done.working (Card.setWrite_working _ workD)⟩

end Sys2Proof.Machine

/-! LAND, ROLLBACK, SERVICE and QUIET as commands (R309 to R321). -/

namespace Sys2Proof.Machine

open Sys2Proof

/-! What a frame that is no WRITE, taken on an open tag, leaves of the numbering's premises. -/

theorem Card.accept_cutWorks {c : Card} {op : Byte} {f : Frame} {k : Cmd} (unused : c.cmdOf f.tag = none)
    (no : ∀ w, k ≠ .cut w) : (c.accept op f k).cutWorks = c.cutWorks := by
  obtain ⟨b, h⟩ := c.accept_eq op f k
  rw [h]
  refine KV.filterMap_put _ ?_ fun e found => ?_
  · cases k with
    | cut w => exact absurd rfl (no w)
    | _ => rfl
  · have entry : c.tagEntry f.tag = some e := found
    cases state : e.state with
    | outstanding j => rw [Card.cmdOf_some entry state] at unused; cases unused
    | completed st info => rfl

theorem Card.accept_landAfterOut {c : Card} {op : Byte} {f : Frame} (unused : c.cmdOf f.tag = none) :
    (c.accept op f .timed).landAfterOut = c.landAfterOut := by
  rw [Card.landAfterOut, Card.accept_writeWorks unused (by simp), Card.accept_cutWorks unused (by simp)]
  rfl

/-- What the timed commands look at, as it was before the frame was taken. -/
theorem Card.accept_frame (c : Card) (op : Byte) (f : Frame) (k : Cmd) :
    (c.accept op f k).flights = c.flights ∧ (c.accept op f k).treads = c.treads ∧ (c.accept op f k).maint = c.maint ∧
      (c.accept op f k).phase = c.phase ∧ (c.accept op f k).power = c.power := by
  obtain ⟨b, h⟩ := c.accept_eq op f k
  rw [h]
  exact ⟨rfl, rfl, rfl, rfl, rfl⟩

theorem Card.admits_receives {c : Card} {op : Byte} {f : Frame} (admits : c.admits op f = true) : c.receives f.port = true := by
  unfold Card.admits at admits
  simp only [Bool.and_eq_true] at admits
  obtain ⟨⟨⟨⟨⟨⟨receives, -⟩, -⟩, -⟩, -⟩, -⟩, -⟩ := admits
  exact receives

theorem Card.admits_hclk {c : Card} {op : Byte} {f : Frame} (admits : c.admits op f = true) : c.power.hclk = true := by
  have receives := Card.admits_receives admits
  simp only [Card.receives, Bool.and_eq_true] at receives
  exact receives.1.1.2

/-- LAND is served in MOUNTED alone (R139). -/
theorem Card.admits_land_mounted {c : Card} {f : Frame} (admits : c.admits opLand f = true) : c.phase = .mounted := by
  unfold Card.admits at admits
  simp only [Bool.and_eq_true, Option.isNone_iff_eq_none] at admits
  obtain ⟨⟨-, state⟩, -⟩ := admits
  unfold Card.step7 at state
  rw [if_neg (fun h => absurd h.1 (by decide))] at state
  split at state
  · simp [show opLand ≠ opInquire by decide] at state
  · revert state
    cases c.phase <;> simp [stateAnswer, opLand, opInquire, opMount, opClose, opForceClose, dockOnly, pageServed, opFormat,
      opSanitize, opAlcoveLoad, opAlcoveSwap]

/-! Actions go on without a word to the ports. -/

theorem Card.stepAct_ports (c : Card) (a : Action) : (c.stepAct a).ports = c.ports := by
  have set (d : Card) (x : Action) : (d.setAct x).ports = d.ports := rfl
  unfold Card.stepAct
  split
  · split
    · rfl
    · split
      · split
        · next placed =>
          rw [set, Near.ports_eq (Card.completeRange_near _ _ _), Near.ports_eq (Card.placeAll_near placed)]
        · rfl
      · rfl
  · split
    · rfl
    · exact Near.ports_eq (Card.completeRange_near _ _ _)
  · rfl
  · rfl

theorem Card.stepActs_ports' (c : Card) : c.stepActs.ports = c.ports :=
  (foldl_same Card.ports Card.stepAct (fun c a => c.stepAct_ports a) _ _).trans c.placeDue_ports.1

theorem Card.executeLanding_ports (c : Card) (f : Flight) (late : Nat) (src : ActSrc) :
    (c.executeLanding f late src).ports = c.ports ∧ (c.executeLanding f late src).out = c.out := by
  rw [Card.executeLanding_eq]
  constructor
  · rw [Card.stepActs_ports', Rest.ports_eq (Card.pumpAll_rest _)]
    simp [Card.landing]
  · rw [Far.out_eq (Card.stepActs_far _), Far.out_eq (Card.pumpAll_far _)]
    simp [Card.landing]

theorem Far.power_eq {c d : Card} (h : d.far = c.far) : d.power = c.power := congrArg Far.power h

/-- A landing that executes pulls LND, whatever else is in progress (R389). -/
theorem Card.executeLanding_power {c : Card} (f : Flight) (late : Nat) (src : ActSrc) (mounted : c.phase = .mounted)
    (hclk : c.power.hclk = true) : (c.executeLanding f late src).power = { c.power with lnd := true } := by
  rw [Card.executeLanding_eq, Far.power_eq ((Card.stepActs_far _).trans (Card.pumpAll_far _))]
  generalize traced : (c.landing f late src).ev 12 (leBytes 4 f.toNat ++ leBytes 2 late) = d
  obtain ⟨phase, power, flights⟩ : d.phase = .mounted ∧ d.power = c.power ∧ d.flights = (c.landing f late src).flights := by
    rw [← traced]
    simp [Card.landing, mounted]
  have begun : d.flights.acts.any (fun a => !a.rollback) = true := by
    rw [flights]
    simp [Card.landing, Card.landingOf]
  simp only [Card.driveLnd, power, hclk, Bool.not_true, Bool.false_eq_true, if_false, phase, begun, beq_self_eq_true,
    Bool.or_true, Bool.and_true]

/-! LAND (R311, R315, R317 to R319). -/

/-- The tread a LAND, ROLLBACK or window names (R310). -/
def Card.named (c : Card) (f : Frame) : Tread := nameTread f.sector c.treads.c

theorem Card.doLand_range {c : Card} {f : Frame} (ahead : treadNotPast (c.named f) c.treads.c = true)
    (far : 2 ^ 24 < treadAhead (c.named f) c.treads.c) : c.doLand f = c.finish f.tag stRange 0 false := by
  have lead : Config.leadTreads < treadAhead (nameTread f.sector c.treads.c) c.treads.c := far
  have notPast : treadNotPast (nameTread f.sector c.treads.c) c.treads.c = true := ahead
  simp [Card.doLand, notPast, lead]

theorem Card.doLand_past {c : Card} {f : Frame} (past : treadNotPast (c.named f) c.treads.c = false)
    (far : 1024 < treadAhead c.treads.c (c.named f)) : c.doLand f = c.finish f.tag stTreadPast 0 false := by
  have late : Config.lateTreads < treadAhead c.treads.c (nameTread f.sector c.treads.c) := far
  have isPast : treadNotPast (nameTread f.sector c.treads.c) c.treads.c = false := past
  simp [Card.doLand, isPast, late]

/-- A LAND whose tread is in reach: the numbering decides, then whether it is late. -/
theorem Card.doLand_near {c : Card} {f : Frame}
    (near : treadNotPast (c.named f) c.treads.c = true ∧ treadAhead (c.named f) c.treads.c ≤ 2 ^ 24 ∨
      treadNotPast (c.named f) c.treads.c = false ∧ treadAhead c.treads.c (c.named f) ≤ 1024) :
    c.doLand f = if c.actionBlocked then c.finish f.tag stProtocol 0 false
      else if !c.landingOk f.arg then c.finish f.tag stFlightStale c.staleInfo false
      else if treadNotPast (c.named f) c.treads.c then
        c.hold { rollback := false, tread := c.named f, flight := f.arg, src := .cmd f.tag }
      else c.lateLanding f.arg (treadAhead c.treads.c (c.named f)) (.cmd f.tag) := by
  unfold Card.doLand
  dsimp only
  rcases near with ⟨ahead, lead⟩ | ⟨past, late⟩
  · have notFar : ¬ Config.leadTreads < treadAhead (c.named f) c.treads.c := Nat.not_lt.mpr lead
    rw [show nameTread f.sector c.treads.c = c.named f from rfl]
    simp only [ahead, notFar, Bool.not_true, decide_false, Bool.and_false, Bool.false_and, Bool.false_eq_true, if_false, if_true]
  · have notLate : ¬ Config.lateTreads < treadAhead c.treads.c (c.named f) := Nat.not_lt.mpr late
    rw [show nameTread f.sector c.treads.c = c.named f from rfl]
    simp only [past, notLate, Bool.not_false, Bool.not_true, decide_false, Bool.and_false, Bool.false_and, Bool.false_eq_true,
      if_false, if_true]

/-- A held LAND pulls LND (R389). -/
theorem Card.hold_land {c : Card} (h : Held) (mounted : c.phase = .mounted) (hclk : c.power.hclk = true) :
    c.hold h = { c with
      flights := { c.flights with held := some h }
      power := { c.power with lnd := !h.rollback || c.flights.acts.any (fun a => !a.rollback) } } := by
  simp [Card.hold, Card.driveLnd, mounted, hclk]

theorem Card.notice_far (c : Card) (code : BitVec 6) (info : BitVec 24) :
    (c.notice code info).power = c.power ∧ (c.notice code info).flights = c.flights ∧
      (c.notice code info).ports.tags = c.ports.tags := by
  simp


theorem BalconyOnly.ended {c d : Card} {op : Byte} {f : Frame} {st : Status} {info : BitVec 24} (h : BalconyOnly c d)
    (done : c.ended op f st info) : d.ended op f st info := by
  obtain ⟨b, rfl⟩ := h
  exact done

theorem BalconyOnly.frame {c d : Card} (h : BalconyOnly c d) :
    d.out = c.out ∧ d.power = c.power ∧ d.flights = c.flights ∧ d.maint = c.maint ∧ d.phase = c.phase ∧ d.views = c.views := by
  obtain ⟨b, rfl⟩ := h
  exact ⟨rfl, rfl, rfl, rfl, rfl, rfl⟩

theorem run_balconyOnly (f : Card → Card) (s : State) : ∃ t, run f s = .next t ∧ BalconyOnly (f s.card) t.card := by
  obtain ⟨t, next, b, set⟩ := run_spec f s
  exact ⟨t, next, b, set⟩

theorem Card.working_of_tags {c d : Card} {op : Byte} {f : Frame} {k : Cmd} (h : d.ports.tags = c.ports.tags)
    (taken : c.working op f k) : d.working op f k := by
  rw [Card.working, Card.tagEntry, h]
  exact taken

theorem Card.finish_ended {c : Card} {op : Byte} {f : Frame} {k : Cmd} (st : Status) (info : BitVec 24) (z : Bool)
    (taken : c.working op f k) : (c.finish f.tag st info z).ended op f st info :=
  Card.finish_tagEntry _ _ _ _ _ taken rfl

/-- A LAND that is late executes: SYNC-LATE is told, and the landing is under way (R317, R319, R364). -/
theorem Card.lateLanding_told {c : Card} {f : Flight} {late : Nat} {src : ActSrc} (mounted : c.phase = .mounted)
    (hclk : c.power.hclk = true) : (c.lateLanding f late src).ports.tags = c.ports.tags ∧
      (c.lateLanding f late src).power.lnd = true ∧
      (c.lateLanding f late src).flights = (c.executeLanding f late src).flights ∧
      ∃ p q, (c.lateLanding f late src).out = p ++ .resp .ci q :: c.out ∧
        p.length = (if c.power.dock then 1 else 0) ∧ q.kind = 3 ∧ q.code = ntSyncLate ∧
        q.info = info3 late (late / 256) f.toNat := by
  obtain ⟨ports, out⟩ := c.executeLanding_ports f late src
  have power := Card.executeLanding_power f late src mounted hclk
  obtain ⟨power', flights, tags⟩ := (c.executeLanding f late src).notice_far ntSyncLate (info3 late (late / 256) f.toNat)
  refine ⟨tags.trans (congrArg Ports.tags ports), ?_, flights, ?_⟩
  · exact (congrArg Power.lnd power').trans (by rw [power])
  · have told := (c.executeLanding f late src).notice_out ntSyncLate (info3 late (late / 256) f.toNat)
    obtain ⟨q, is, kind, code, -, info, -⟩ := (c.executeLanding f late src).respNow_eq .ci 3 ntSyncLate 0
      (info3 late (late / 256) f.toNat) false
    unfold Card.noticeNow at told
    rw [power, out, is, List.append_assoc] at told
    refine ⟨_, q, told, ?_, kind, code, info⟩
    split <;> rfl

/-- LAND as O41 states it, on the card that has taken it. -/
theorem landRow {s : State} {f : Frame} (admits : s.card.admits opLand f = true) :
    let now := s.card.treads.c
    let t := nameTread f.sector now
    ∃ u, exec (.land f) s = .next u ∧
      (treadNotPast t now = true → 2 ^ 24 < treadAhead t now → u.card.ended opLand f stRange 0) ∧
      (treadNotPast t now = false → 1024 < treadAhead now t → u.card.ended opLand f stTreadPast 0) ∧
      (treadNotPast t now = true ∧ treadAhead t now ≤ 2 ^ 24 ∨ treadNotPast t now = false ∧ treadAhead now t ≤ 1024 →
        (s.card.flights.held.isSome = true ∨ s.card.landAfterOut = true → u.card.ended opLand f stProtocol 0) ∧
        (s.card.flights.held = none → s.card.landAfterOut = false →
          (s.card.landingOk f.arg = false → u.card.ended opLand f stFlightStale (s.card.lastFlight.setWidth 24)) ∧
          (s.card.landingOk f.arg = true → u.card.working opLand f .timed ∧ u.card.power.lnd = true ∧
            (treadNotPast t now = true → u.card.out = s.card.out ∧ u.card.flights.acts = s.card.flights.acts ∧
              u.card.flights.held = some { rollback := false, tread := t, flight := f.arg, src := .cmd f.tag }) ∧
            (treadNotPast t now = false → s.card.flights.acts = [] → u.card.flights.held = none ∧
              u.card.flights.openOrd = s.card.flights.nextOrd ∧
              (∃ p q, u.card.out = p ++ .resp .ci q :: s.card.out ∧
                List.length p = (if s.card.power.dock then 1 else 0) ∧ q.kind = 3 ∧ q.code = ntSyncLate ∧
                q.info = info3 (treadAhead now t) (treadAhead now t / 256) f.arg.toNat) ∧
              ∃ a, a ∈ u.card.flights.acts ∧ a.rollback = false ∧ a.flight = f.arg ∧ a.late = treadAhead now t ∧
                a.closed = s.card.flights.openOrd)))) := by
  intro now t
  have taken := s.card.accept_working opLand f .timed
  obtain ⟨flights, treads, -, phase, power⟩ := s.card.accept_frame opLand f .timed
  have landAfter : (s.card.accept opLand f .timed).landAfterOut = s.card.landAfterOut :=
    Card.accept_landAfterOut (Card.admits_unused admits)
  have sent := s.card.accept_out opLand f .timed
  have mounted := phase.trans (Card.admits_land_mounted admits)
  have hclk := (congrArg Power.hclk power).trans (Card.admits_hclk admits)
  obtain ⟨u, next, only⟩ := run_balconyOnly (fun c => c.receive opLand f .timed (fun c => c.doLand f)) s
  rw [Card.receive_of_admits _ _ admits] at only
  set a := s.card.accept opLand f .timed with ha
  have names : a.named f = t := congrArg (fun x : Treads => nameTread f.sector x.c) treads
  have atNow : a.treads.c = now := congrArg Treads.c treads
  refine ⟨u, next, fun ahead far => ?_, fun past far => ?_, fun near => ⟨fun blocked => ?_, fun held free => ⟨fun stale => ?_,
    fun fits => ?_⟩⟩⟩
  · rw [Card.doLand_range (by rw [names, atNow]; exact ahead) (by rw [names, atNow]; exact far)] at only
    exact only.ended (Card.finish_ended _ _ _ taken)
  · rw [Card.doLand_past (by rw [names, atNow]; exact past) (by rw [names, atNow]; exact far)] at only
    exact only.ended (Card.finish_ended _ _ _ taken)
  all_goals rw [Card.doLand_near (by rw [names, atNow]; exact near)] at only
  · have isBlocked : a.actionBlocked = true := by
      rw [Card.actionBlocked, flights, landAfter, Bool.or_eq_true]
      exact blocked
    rw [if_pos isBlocked] at only
    exact only.ended (Card.finish_ended _ _ _ taken)
  all_goals
    have unblocked : a.actionBlocked = false := by rw [Card.actionBlocked, flights, landAfter, held, free]; rfl
    have numbering : a.landingOk f.arg = s.card.landingOk f.arg := by
      simp only [Card.landingOk, Card.pendingFlights, flights]
    rw [unblocked, if_neg Bool.false_ne_true, numbering] at only
  · rw [stale, Bool.not_false, if_pos rfl] at only
    have info : a.staleInfo = s.card.lastFlight.setWidth 24 := by
      simp only [Card.staleInfo, Card.lastFlight, flights]
    rw [info] at only
    exact only.ended (Card.finish_ended _ _ _ taken)
  · rw [fits, if_neg (by simp), names, atNow] at only
    cases isPast : treadNotPast t now with
    | true =>
      rw [isPast, if_pos rfl, Card.hold_land _ mounted hclk] at only
      obtain ⟨out, pow, fl, -⟩ := only.frame
      refine ⟨only.working taken, ?_, fun _ => ⟨out.trans sent, ?_, ?_⟩, nofun⟩
      · rw [pow]
        rfl
      · rw [fl, ← flights]
      · rw [fl]
    | false =>
      rw [isPast, if_neg Bool.false_ne_true] at only
      obtain ⟨tags, lnd, acts, p, q, told, length, kind, code, info⟩ :=
        Card.lateLanding_told (f := f.arg) (late := treadAhead now t) (src := .cmd f.tag) mounted hclk
      obtain ⟨out, pow, fl, -⟩ := only.frame
      refine ⟨only.working (Card.working_of_tags tags taken), ?_, nofun, fun _ idle => ?_⟩
      · rw [pow]
        exact lnd
      · obtain ⟨⟨x, only', is⟩, -, opened, stillHeld⟩ := Card.executeLanding_begins f.arg (treadAhead now t) (.cmd f.tag)
          mounted hclk ((congrArg Flights.acts flights).trans idle)
        refine ⟨?_, ?_, ⟨p, q, ?_, ?_, kind, code, info⟩, x, ?_, ?_, ?_, ?_, ?_⟩
        · rw [fl, acts, stillHeld, flights, held]
        · rw [fl, acts, opened, flights]
        · rw [out, told, sent]
        · rw [length, power]
        · rw [fl, acts, only']
          exact List.mem_singleton_self x
        · exact (congrArg Action.rollback is : x.unstaged.rollback = _)
        · exact (congrArg Action.flight is : x.unstaged.flight = _)
        · exact (congrArg Action.late is : x.unstaged.late = _)
        · exact ((congrArg Action.closed is : x.unstaged.closed = _)).trans (congrArg Flights.openOrd flights)


/-! ROLLBACK, SERVICE and QUIET (R316, R317, R320, R321). -/

theorem Card.doRollback_near {c : Card} {f : Frame} (ahead : treadNotPast (c.named f) c.treads.c = true)
    (near : treadAhead (c.named f) c.treads.c ≤ 2 ^ 24) (free : c.actionBlocked = false) :
    c.doRollback f = if c.rollbackOk f.arg then
        c.hold { rollback := true, tread := c.named f, flight := f.arg, src := .cmd f.tag }
      else c.finish f.tag stFlightStale c.staleInfo false := by
  have notFar : ¬ Config.leadTreads < treadAhead (c.named f) c.treads.c := Nat.not_lt.mpr near
  unfold Card.doRollback
  rw [show nameTread f.sector c.treads.c = c.named f from rfl]
  simp only [ahead, notFar, free, if_true, if_false, Bool.false_eq_true]
  cases c.rollbackOk f.arg <;> rfl

/-- The window a SERVICE or QUIET asks for (R316, R321). -/
def Card.windowOf (c : Card) (f : Frame) (quiet : Bool) : Window :=
  { seq := 0, quiet := quiet, kinds := if quiet then 0 else f.flags, start := c.named f, duration := f.arg.toNat, began := 0 }

/-- A duration in its limits, and for a service window some kind granted (R316). -/
theorem windowAsked_iff {f : Frame} {quiet : Bool} : (!durationOk f.arg.toNat || (!quiet && !kindsOk f.flags)) = false ↔
    64 ≤ f.arg.toNat ∧ f.arg.toNat ≤ 2 ^ 24 ∧ (quiet = true ∨ f.flags &&& 0x7F ≠ 0) := by
  have duration : durationOk f.arg.toNat = true ↔ 64 ≤ f.arg.toNat ∧ f.arg.toNat ≤ 2 ^ 24 := decide_eq_true_iff
  have kinds : kindsOk f.flags = true ↔ f.flags &&& 0x7F ≠ 0 := bne_iff_ne
  rw [← and_assoc, ← duration, ← kinds]
  cases durationOk f.arg.toNat <;> cases quiet <;> cases kindsOk f.flags <;> simp

theorem Card.doWindow_near {c : Card} {f : Frame} {quiet : Bool} (ahead : treadNotPast (c.named f) c.treads.c = true)
    (near : treadAhead (c.named f) c.treads.c ≤ 2 ^ 24) : c.doWindow f quiet =
      if (!durationOk f.arg.toNat || (!quiet && !kindsOk f.flags)) = true then c.finish f.tag stRange 0 false
      else if c.windowFits (c.windowOf f quiet) then
        (c.holdWindow (c.windowOf f quiet)).finish f.tag stOk ((c.named f).setWidth 24) false
      else c.finish f.tag stProtocol 0 false := by
  have notFar : ¬ Config.leadTreads < treadAhead (c.named f) c.treads.c := Nat.not_lt.mpr near
  unfold Card.doWindow
  rw [show nameTread f.sector c.treads.c = c.named f from rfl]
  simp only [ahead, notFar, if_true, if_false]
  cases fits : c.windowFits (c.windowOf f quiet) with
  | false => simp only [Card.windowOf] at fits; simp only [fits, Bool.not_false, if_true, Bool.false_eq_true, if_false]
  | true => simp only [Card.windowOf] at fits; simp only [fits, Bool.not_true, if_true, Bool.false_eq_true, if_false]; rfl

/-- SERVICE and QUIET go to the chapter's one function. -/
theorem exec_window {quiet : Bool} {i : Instr} {op : Byte} {f : Frame}
    (command : (quiet = false ∧ i = .service f ∧ op = opService) ∨ (quiet = true ∧ i = .quiet f ∧ op = opQuiet)) (s : State) :
    exec i s = run (fun c => c.receive op f .timed (fun c => c.doWindow f quiet)) s := by
  rcases command with ⟨rfl, rfl, rfl⟩ | ⟨rfl, rfl, rfl⟩ <;> rfl

/-- Settles O41: each by what its chapter does with a tread in reach. -/
theorem timedCommands : Obligations.TimedCommands := by
  unfold Obligations.TimedCommands
  refine ⟨fun s f admits => landRow admits, ?_⟩
  intro s f now t ahead near
  refine ⟨fun admits held free => ?_, ?_⟩
  · have taken := s.card.accept_working opRollback f .timed
    obtain ⟨flights, treads, -⟩ := s.card.accept_frame opRollback f .timed
    have landAfter : (s.card.accept opRollback f .timed).landAfterOut = s.card.landAfterOut :=
      Card.accept_landAfterOut (Card.admits_unused admits)
    have sent := s.card.accept_out opRollback f .timed
    obtain ⟨u, next, only⟩ := run_balconyOnly (fun c => c.receive opRollback f .timed (fun c => c.doRollback f)) s
    rw [Card.receive_of_admits _ _ admits] at only
    set a := s.card.accept opRollback f .timed with ha
    have names : a.named f = t := congrArg (fun x : Treads => nameTread f.sector x.c) treads
    have atNow : a.treads.c = now := congrArg Treads.c treads
    have unblocked : a.actionBlocked = false := by rw [Card.actionBlocked, flights, landAfter, held, free]; rfl
    have numbering : a.rollbackOk f.arg = s.card.rollbackOk f.arg := by simp only [Card.rollbackOk, flights]
    rw [Card.doRollback_near (by rw [names, atNow]; exact ahead) (by rw [names, atNow]; exact near) unblocked, numbering,
      names] at only
    refine ⟨u, next, fun fits => ?_, fun stale => ?_⟩
    · rw [fits, if_pos rfl] at only
      obtain ⟨out, -, fl, -⟩ := only.frame
      have holds (h : Held) : (a.hold h).flights.held = some h := by simp [Card.hold]
      have still (h : Held) : (a.hold h).ports = a.ports ∧ (a.hold h).out = a.out := by simp [Card.hold]
      exact ⟨only.working (Card.working_of_ports (still _).1 taken), out.trans ((still _).2.trans sent), by rw [fl, holds]⟩
    · rw [stale, if_neg Bool.false_ne_true] at only
      have info : a.staleInfo = s.card.lastFlight.setWidth 24 := by
        simp only [Card.staleInfo, Card.lastFlight, flights]
      rw [info] at only
      exact only.ended (Card.finish_ended _ _ _ taken)
  · intro quiet i op command admits w fit
    have taken := s.card.accept_working op f .timed
    obtain ⟨-, treads, maint, -⟩ := s.card.accept_frame op f .timed
    have sent := s.card.accept_out op f .timed
    have told := s.card.accept_respNow op f .timed f.port 0 f.tag stOk (t.setWidth 24) false
    have port : (s.card.accept op f .timed).portUp f.port = true := by
      rw [Card.portUp_congr (congrArg Power.dock (s.card.accept_frame op f .timed).2.2.2.2)]
      exact Card.admits_portUp admits
    obtain ⟨u, next, only⟩ := run_balconyOnly (fun c => c.receive op f .timed (fun c => c.doWindow f quiet)) s
    rw [Card.receive_of_admits _ _ admits] at only
    set a := s.card.accept op f .timed with ha
    have names : a.named f = t := congrArg (fun x : Treads => nameTread f.sector x.c) treads
    have atNow : a.treads.c = now := congrArg Treads.c treads
    have asks : a.windowOf f quiet = w := by rw [Card.windowOf, names]
    have room : a.windowFits w = s.card.windowFits w := by
      unfold Card.windowFits Card.windows
      rw [maint]
    rw [Card.doWindow_near (by rw [names, atNow]; exact ahead) (by rw [names, atNow]; exact near), asks, room, names] at only
    have stays {st : Status} {info : BitVec 24} (h : BalconyOnly (a.finish f.tag st info false) u.card) :
        u.card.maint.held = s.card.maint.held := by
      rw [h.frame.2.2.2.1, ← maint]
      exact congrArg Keep.held (Card.finish_keep a f.tag st info false)
    refine ⟨u, (exec_window command s).trans next, fun unfit => ?_, fun fits full => ?_, fun fits free => ?_⟩
    · rw [if_pos (by
        rw [← Bool.not_eq_false]
        exact fun ok => unfit (windowAsked_iff.mp ok))] at only
      exact ⟨only.ended (Card.finish_ended _ _ _ taken), stays only⟩
    · rw [if_neg (by rw [Bool.not_eq_true]; exact windowAsked_iff.mpr fits), full, if_neg Bool.false_ne_true] at only
      exact ⟨only.ended (Card.finish_ended _ _ _ taken), stays only⟩
    · rw [if_neg (by rw [Bool.not_eq_true]; exact windowAsked_iff.mpr fits), free, if_pos rfl] at only
      have work : (a.holdWindow w).working op f .timed := taken
      refine ⟨?_, only.ended (Card.finish_ended _ _ _ work), ?_⟩
      · rw [only.frame.2.2.2.1]
        refine (congrArg Keep.held (Card.finish_keep (a.holdWindow w) f.tag stOk (t.setWidth 24) false)).trans ?_
        rw [← maint]
        rfl
      · rw [only.frame.1, Card.finish_out (c := a.holdWindow w) _ _ _ work rfl port]
        exact congrArg₂ List.cons told sent

end Sys2Proof.Machine

/-! CLOSE (R159 to R163, R313, R314). -/

namespace Sys2Proof.Machine

open Sys2Proof

theorem Far.views_eq {c d : Card} (h : d.far = c.far) : d.views = c.views := congrArg Far.views h

theorem Card.phase_of_keep {c d : Card} (h : d.keep = c.keep) : d.phase = c.phase := congrArg Keep.phase h

theorem Card.held_of_keep {c d : Card} (h : d.keep = c.keep) : d.maint.held = c.maint.held := congrArg Keep.held h

theorem Card.running_of_keep {c d : Card} (h : d.keep = c.keep) : d.maint.running = c.maint.running :=
  congrArg Keep.running h

theorem Rest.views_eq {c d : Card} (h : d.rest = c.rest) : d.views = c.views := congrArg Rest.views h

theorem Rest.flights_eq {c d : Card} (h : d.rest = c.rest) : d.flights = c.flights := congrArg Rest.flights h

theorem Rest.out_eq {c d : Card} (h : d.rest = c.rest) : d.out = c.out := congrArg Rest.out h

theorem Rest.power_eq {c d : Card} (h : d.rest = c.rest) : d.power = c.power := congrArg Rest.power h

/-- With nothing else outstanding, a frame taken is the only command outstanding. -/
theorem Card.accept_outstanding {c : Card} {op : Byte} {f : Frame} {k : Cmd} (idle : c.outstanding = []) :
    ∀ x ∈ (c.accept op f k).outstanding, x = f.tag := by
  intro x mem
  obtain ⟨b, h⟩ := c.accept_eq op f k
  rw [h] at mem
  obtain ⟨y, listed, made⟩ := List.mem_filterMap.mp mem
  rcases KV.mem_put listed with rfl | old
  · simpa [entryOf] using made.symm
  · have : x ∈ c.outstanding := List.mem_filterMap.mpr ⟨y, old, made⟩
    rw [idle] at this
    cases this

theorem Card.closeBlocked_of {c : Card} {t : Tag} (h : c.flights.held.isSome = true ∨ c.flights.acts ≠ [] ∨
    ∃ g, g ≠ t ∧ (c.cmdOf g).isSome = true) : c.closeBlocked t = true := by
  unfold Card.closeBlocked
  rw [Bool.or_eq_true, Bool.or_eq_true]
  rcases h with held | acts | ⟨g, other, cmd⟩
  · exact .inl (.inr held)
  · refine .inr ?_
    cases is : c.flights.acts with
    | nil => exact absurd is acts
    | cons a r => rfl
  · obtain ⟨k, cmd⟩ := Option.isSome_iff_exists.mp cmd
    obtain ⟨e, entry, out⟩ := Card.entry_of_cmdOf cmd
    exact .inl (.inl (List.any_eq_true.mpr ⟨g, Card.mem_outstanding entry out, by simpa using other⟩))

theorem Card.closeBlocked_free {c : Card} {t : Tag} (held : c.flights.held = none) (acts : c.flights.acts = [])
    (only : ∀ x ∈ c.outstanding, x = t) : c.closeBlocked t = false := by
  have none : c.outstanding.any (fun x => x != t) = false := by
    rw [List.any_eq_false]
    intro x mem
    simp [only x mem]
  simp [Card.closeBlocked, none, held, acts]

theorem Card.accept_openEmpty {c : Card} {op : Byte} {f : Frame} {k : Cmd} (unused : c.cmdOf f.tag = none)
    (no : ∀ w, k ≠ .write w) : (c.accept op f k).openEmpty = c.openEmpty := by
  rw [Card.openEmpty, Card.accept_openCmds unused no]
  obtain ⟨b, h⟩ := c.accept_eq op f k
  rw [h]
  rfl

/-- Windows and what is scheduled go: the pins, the link, the views and what went out stay, of the flights all but the MARKs
(R160 step 1). -/
theorem Card.dropScheduled_frame (c : Card) : c.dropScheduled.flights = { c.flights with marks := [] } ∧
    c.dropScheduled.far = c.far ∧ c.dropScheduled.maint.held = [] ∧
    ∀ t, EntryStays (c.tagEntry t) (c.dropScheduled.tagEntry t) := by
  have windows := c.dropWindows_windowEnd
  refine ⟨?_, c.dropScheduled_far, rfl, windows.entry⟩
  simp only [Card.dropScheduled, windows.flights]

/-- A command that is no WRITE stays through work that leaves the entries. -/
theorem Card.working_of_stays {c d : Card} {op : Byte} {f : Frame} {k : Cmd} (taken : c.working op f k)
    (no : ∀ w, k ≠ .write w) (h : EntryStays (c.tagEntry f.tag) (d.tagEntry f.tag)) : d.working op f k := by
  refine (h.cmdOf.1 fun w cmd => ?_).trans taken
  rw [Card.cmdOf_some taken rfl] at cmd
  exact no w (Option.some.inj cmd)

theorem Card.answered.ended {c d : Card} {op : Byte} {f : Frame} {k : Cmd} {st : Status} {info : BitVec 24}
    (h : c.answered d f.tag st info) (taken : c.working op f k) : d.ended op f st info := (h _ _ taken rfl).1

theorem Card.enterClosed_held (c : Card) (t : Tag) (how : Nat) : (c.enterClosed t how).maint.held = [] := by
  have drop := c.dropActions_empty.2.1
  have keep := Card.abortErases_keep c.dropActions
  unfold Card.enterClosed
  dsimp only
  have last (d : Card) : ((d.enter .closed).driveLnd).maint = d.maint := by simp
  rw [last]
  refine (Card.held_of_keep (Card.finish_keep _ t stOk (info3 how 0 0) false)).trans ?_
  exact (Card.held_of_keep keep).trans drop

/-- The open flight discarded: the working view of each bay is its landed one (R163, R264). -/
theorem Views.discardOpen_at (v : Views) (b : Nat) : (v.discardOpen.at b).working = (v.discardOpen.at b).landed := by
  obtain ⟨landed, working⟩ := Views.rework_at { v with changes := [] } false b
  unfold Views.discardOpen
  rw [landed, working, reworked, List.foldl_nil, getD_grounded]
  rfl

/-- A CLOSE that lands no flight, as it ends. -/
theorem Card.enterClosed_ends {c : Card} {f : Frame} (how : Nat) (taken : c.working opClose f .close)
    (acts : c.flights.acts = []) (held : c.flights.held = none) (hclk : c.power.hclk = true) :
    (c.enterClosed f.tag how).phase = .closed ∧ (c.enterClosed f.tag how).ended opClose f stOk (info3 how 0 0) ∧
      (c.enterClosed f.tag how).views = { c.views with selfRefresh := true } ∧
      (c.enterClosed f.tag how).maint.held = [] ∧ (c.enterClosed f.tag how).flights.marks = [] := by
  obtain ⟨answered, phase, flights, views, -⟩ := Card.enterClosed_frame (g := f.tag) how acts held hclk
  exact ⟨phase, answered.ended taken, views, c.enterClosed_held _ _, by rw [flights]⟩

/-- CLOSE as O43 states it for a MOUNTED card with nothing outstanding, held or in progress. -/
theorem closeRow {s : State} {f : Frame} (admits : s.card.admits opClose f = true) :
    (s.card.phase = .closed → ∃ t, exec (.close f) s = .next t ∧ t.card.ended opClose f stOk 0 ∧ t.card.phase = .closed) ∧
    (s.card.phase = .mounted →
      (s.card.flights.held.isSome = true ∨ s.card.flights.acts ≠ [] ∨
        (∃ g, g ≠ f.tag ∧ (s.card.cmdOf g).isSome = true) →
        ∃ t, exec (.close f) s = .next t ∧ t.card.ended opClose f stProtocol 0 ∧ t.card.phase = .mounted) ∧
      (s.card.flights.held = none → s.card.flights.acts = [] → s.card.outstanding = [] →
        ∃ t, exec (.close f) s = .next t ∧
          (f.flags.getLsbD 0 = true → t.card.phase = .closed ∧ t.card.ended opClose f stOk (info3 2 0 0) ∧
            t.card.views.selfRefresh = true ∧ t.card.maint.held = [] ∧ t.card.flights.marks = [] ∧
            ∀ b, (t.card.entry b).working = (t.card.entry b).landed) ∧
          (f.flags.getLsbD 0 = false → s.card.openEmpty = true → t.card.phase = .closed ∧
            t.card.ended opClose f stOk 0 ∧ t.card.views.selfRefresh = true ∧ t.card.views.map = s.card.views.map) ∧
          (f.flags.getLsbD 0 = false → s.card.openEmpty = false → s.card.closeAhead f.arg = false →
            t.card.ended opClose f stFlightStale (s.card.lastFlight.setWidth 24) ∧ t.card.phase = .mounted) ∧
          (f.flags.getLsbD 0 = false → s.card.openEmpty = false → s.card.closeAhead f.arg = true →
            t.card.working opClose f .close ∧ t.card.phase = .mounted ∧ t.card.maint.held = [] ∧
            ∃ a, a ∈ t.card.flights.acts ∧ a.flight = f.arg ∧ a.src = .close f.tag ∧
              a.closed = s.card.flights.openOrd))) := by
  have taken := s.card.accept_working opClose f .close
  have unused := Card.admits_unused admits
  obtain ⟨flights, treads, maint, phase, power⟩ := s.card.accept_frame opClose f .close
  have empty := Card.accept_openEmpty (op := opClose) (k := .close) unused (by simp)
  have views : (s.card.accept opClose f .close).views = s.card.views := by
    obtain ⟨b, h⟩ := s.card.accept_eq opClose f .close
    rw [h]
  have others {g : Tag} (other : g ≠ f.tag) := s.card.accept_tagEntry_other opClose f .close other
  have alone := fun idle => Card.accept_outstanding (op := opClose) (f := f) (k := .close) (c := s.card) idle
  have hclk := (congrArg Power.hclk power).trans (Card.admits_hclk admits)
  obtain ⟨t, next, only⟩ := run_balconyOnly (fun c => c.receive opClose f .close (fun c => c.doClose f)) s
  rw [Card.receive_of_admits _ _ admits] at only
  set a := s.card.accept opClose f .close with ha
  have ended {st : Status} {info : BitVec 24} (h : BalconyOnly (a.finish f.tag st info false) t.card) :
      t.card.ended opClose f st info ∧ t.card.phase = s.card.phase :=
    ⟨h.ended (Card.finish_ended _ _ _ taken), h.frame.2.2.2.2.1.trans ((a.finish_frame f.tag st info false).1.trans phase)⟩
  refine ⟨fun closed => ?_, fun mounted => ⟨fun blocked => ?_, fun held acts idle => ⟨t, next, fun discard => ?_,
    fun keeps isEmpty => ?_, fun keeps full stale => ?_, fun keeps full ahead => ?_⟩⟩⟩
  · rw [Card.doClose, if_pos (phase.trans closed)] at only
    exact ⟨t, next, (ended only).1, (ended only).2.trans closed⟩
  all_goals
    have notClosed : ¬ a.phase = .closed := by rw [phase, mounted]; decide
    rw [Card.doClose, if_neg notClosed] at only
  · have isBlocked : a.closeBlocked f.tag = true := by
      refine Card.closeBlocked_of ?_
      rw [flights]
      refine blocked.imp_right (Or.imp_right fun ⟨g, other, cmd⟩ => ⟨g, other, ?_⟩)
      rw [Card.cmdOf, others other]
      exact cmd
    rw [if_pos isBlocked] at only
    exact ⟨t, next, (ended only).1, (ended only).2.trans mounted⟩
  all_goals
    have free : a.closeBlocked f.tag = false :=
      Card.closeBlocked_free (by rw [flights, held]) (by rw [flights, acts]) (alone idle)
    rw [free, if_neg Bool.false_ne_true] at only
    obtain ⟨flightsD, farD, heldD, entryD⟩ := a.dropScheduled_frame
    have workD : a.dropScheduled.working opClose f .close := Card.working_of_stays taken (by simp) (entryD f.tag)
    have hclkD : a.dropScheduled.power.hclk = true := by rw [Far.power_eq farD, hclk]
  · rw [if_pos discard] at only
    obtain ⟨closed, answer, shown, dropped, marks⟩ := Card.enterClosed_ends (c := a.dropScheduled.discardFlight) 2 workD
      (by rw [show a.dropScheduled.discardFlight.flights.acts = a.dropScheduled.flights.acts from rfl, flightsD, flights, acts])
      (by rw [show a.dropScheduled.discardFlight.flights.held = a.dropScheduled.flights.held from rfl, flightsD, flights, held])
      hclkD
    obtain ⟨-, -, fl, ma, ph, vi⟩ := only.frame
    refine ⟨ph.trans closed, only.ended answer, by rw [vi, shown], by rw [ma, dropped], by rw [fl, marks], fun b => ?_⟩
    have at_ : t.card.entry b = a.dropScheduled.views.discardOpen.at b := by
      rw [Card.entry, vi, shown]
      rfl
    rw [at_]
    exact Views.discardOpen_at _ b
  all_goals rw [keeps, if_neg Bool.false_ne_true, empty] at only
  · rw [isEmpty, if_pos rfl] at only
    obtain ⟨closed, answer, shown, -⟩ := Card.enterClosed_ends (c := a.dropScheduled) 0 workD
      (by rw [flightsD, flights, acts]) (by rw [flightsD, flights, held]) hclkD
    obtain ⟨-, -, -, -, ph, vi⟩ := only.frame
    refine ⟨ph.trans closed, only.ended answer, by rw [vi, shown], ?_⟩
    rw [vi, shown]
    change a.dropScheduled.views.map = _
    exact congrArg Views.map ((Far.views_eq farD).trans views)
  all_goals
    have numbering : a.closeAhead f.arg = s.card.closeAhead f.arg := by simp only [Card.closeAhead, flights]
    rw [full, if_neg Bool.false_ne_true, numbering] at only
  · rw [stale, Bool.not_false, if_pos rfl] at only
    have info : a.staleInfo = s.card.lastFlight.setWidth 24 := by
      simp only [Card.staleInfo, Card.lastFlight, flights]
    rw [info] at only
    exact ⟨(ended only).1, (ended only).2.trans mounted⟩
  · rw [ahead, Bool.not_true, if_neg Bool.false_ne_true] at only
    obtain ⟨⟨x, acts', is⟩, -⟩ := Card.executeLanding_begins (c := a.dropScheduled) f.arg 0 (.close f.tag)
      ((Far.phase_eq farD).trans (phase.trans mounted)) hclkD (by rw [flightsD, flights, acts])
    obtain ⟨ports, -⟩ := a.dropScheduled.executeLanding_ports f.arg 0 (.close f.tag)
    obtain ⟨-, -, fl, ma, ph, -⟩ := only.frame
    have keep := Card.executeLanding_keep a.dropScheduled f.arg 0 (.close f.tag)
    refine ⟨only.working (Card.working_of_ports ports workD), ?_, ?_, x, ?_, ?_, ?_, ?_⟩
    · rw [ph]
      exact (Card.phase_of_keep keep).trans ((Far.phase_eq farD).trans (phase.trans mounted))
    · rw [ma]
      exact (Card.held_of_keep keep).trans heldD
    · rw [fl, acts']
      exact List.mem_singleton_self x
    · exact (congrArg Action.flight is : x.unstaged.flight = _)
    · exact (congrArg Action.src is : x.unstaged.src = _)
    · refine (congrArg Action.closed is : x.unstaged.closed = _).trans ?_
      rw [Card.landingOf, flightsD, flights]

end Sys2Proof.Machine

/-! FORCE CLOSE: what it ends, drops and answers (R167, R330). -/

namespace Sys2Proof.Machine

open Sys2Proof

/-! The commands it ends. -/

/-- The card with the commands of a list ended with ABORTED. -/
def Card.abortEach (c : Card) (l : List Tag) : Card := l.foldl (fun c x => c.finish x stAborted 0 (c.abortZ x)) c

theorem Card.abort_ends (g : Tag) :
    Ends (fun (c : Card) (x : Tag) => c.finish x stAborted 0 (c.abortZ x)) id g stAborted 0 where
  others c x other := Card.finish_stays c _ _ _ (Ne.symm other)
  own c x e k own entry := by
    obtain rfl : x = g := own
    exact Card.finish_tagEntry _ _ _ _ _ (e := { e with state := .outstanding k }) entry rfl
  idle c x own idle := by
    obtain rfl : x = g := own
    rw [Card.finish_none _ _ _ idle]

/-- A tag not listed keeps its command. -/
theorem Card.abortEach_stays (c : Card) {l : List Tag} {g : Tag} (no : g ∉ l) :
    EntryStays (c.tagEntry g) ((c.abortEach l).tagEntry g) := by
  induction l generalizing c with
  | nil => exact .refl _
  | cons x l ih =>
    rw [List.mem_cons, not_or] at no
    obtain ⟨other, no⟩ := no
    exact ((Card.abort_ends g).others c x (Ne.symm other)).trans (ih _ no)

/-- Ending commands leaves all but ports, media, halls, maintenance, counters and what goes out. -/
theorem Card.abortEach_frame (c : Card) (l : List Tag) : (c.abortEach l).phase = c.phase ∧ (c.abortEach l).power = c.power ∧
    (c.abortEach l).link = c.link ∧ (c.abortEach l).flights = c.flights ∧ (c.abortEach l).views = c.views := by
  have same := foldl_same (fun c : Card => (c.phase, c.power, c.link, c.flights, c.views))
    (fun (c : Card) (x : Tag) => c.finish x stAborted 0 (c.abortZ x)) (fun c x => by simp) l c
  simp only [Prod.mk.injEq] at same
  exact same

/-- What went out before a final response is still there after it. -/
theorem Card.finish_grows (c : Card) (t : Tag) (st : Status) (info : BitVec 24) (z : Bool) {o : Out} (sent : o ∈ c.out) :
    o ∈ (c.finish t st info z).out := by
  cases cmd : c.cmdOf t with
  | none => rwa [Card.finish_none _ _ _ cmd]
  | some k =>
    obtain ⟨e, entry, out⟩ := Card.entry_of_cmdOf cmd
    obtain ⟨b, final⟩ := Card.traceFinal_balconyOnly (c.respond e.port 0 t st info z) e.port t st info z
    rw [(c.finish_sends st info z entry out).1, Card.sendFinal, final]
    unfold Card.respond
    split
    · exact List.mem_cons_of_mem _ sent
    · exact sent

theorem Card.abortEach_grows (c : Card) (l : List Tag) {o : Out} (sent : o ∈ c.out) : o ∈ (c.abortEach l).out := by
  induction l generalizing c with
  | nil => exact sent
  | cons x l ih => exact ih _ (c.finish_grows _ _ _ _ sent)

/-- Z goes by a stream's own mark, or by what is owed (R251). -/
theorem Card.abortZ_congr {c d : Card} {g : Tag} (entry : EntryStays (c.tagEntry g) (d.tagEntry g)) (link : d.link = c.link) :
    d.abortZ g = c.abortZ g := by
  rcases entry with same | ⟨e, w, l, was, write, now⟩
  · simp only [Card.abortZ, Card.cmdOf, same, link]
  · simp only [Card.abortZ, Card.cmdOf, was, write, now, link]

/-- A command listed is told ABORTED on its port, with Z as its abort has it. -/
theorem Card.abortEach_sends (c : Card) {l : List Tag} {g : Tag} {e : TagEntry} {k : Cmd} (mem : g ∈ l)
    (entry : c.tagEntry g = some { e with state := .outstanding k }) (up : c.portUp e.port = true) :
    ∃ r, .resp e.port r ∈ (c.abortEach l).out ∧ r.kind = 0 ∧ r.code = g ∧ r.status = stAborted ∧
      (c.phase = .mounted → r.flags.getLsbD 0 = c.abortZ g) := by
  induction l generalizing c k with
  | nil => cases mem
  | cons x l ih =>
    by_cases own : x = g
    · subst own
      obtain ⟨r, told, kind, code, status, -, flags⟩ := c.respNow_eq e.port 0 x stAborted 0 (c.abortZ x)
      refine ⟨r, ?_, kind, code, status, fun mounted => by rw [flags, Card.flags_z mounted]⟩
      refine Card.abortEach_grows _ l ?_
      rw [Card.finish_out (e := { e with state := .outstanding k }) _ _ _ entry rfl up, ← told]
      exact List.mem_cons_self
    · have stays := (Card.abort_ends g).others c x own
      obtain ⟨k', entry'⟩ := stays.outstanding entry rfl
      obtain ⟨phase, power, -, -, link, -⟩ := c.finish_frame x stAborted 0 (c.abortZ x)
      obtain ⟨r, sent, kind, code, status, flags⟩ := ih _ ((List.mem_cons.mp mem).resolve_left (Ne.symm own)) entry'
        ((Card.portUp_congr (congrArg Power.dock power) _).trans up)
      exact ⟨r, sent, kind, code, status, fun mounted =>
        (flags (phase.trans mounted)).trans (Card.abortZ_congr stays link)⟩

theorem Card.mem_abortTags {c : Card} {g : Tag} : g ∈ c.abortTags ↔ ∃ e, c.tagEntry g = some e ∧ e.aborted = true := by
  have all : g ∈ (List.range 64).map (BitVec.ofNat 6) :=
    List.mem_map.mpr ⟨g.toNat, List.mem_range.mpr g.isLt, by simp⟩
  rw [Card.abortTags, List.mem_filter, Option.any_eq_true]
  exact ⟨fun h => h.2, fun h => ⟨all, h⟩⟩

/-- An entry that ends with ABORTED has its command outstanding. -/
theorem TagEntry.aborted_outstanding {e : TagEntry} (h : e.aborted = true) : ∃ k, e.state = .outstanding k := by
  unfold TagEntry.aborted at h
  split at h
  · exact ⟨_, ‹_›⟩
  · exact ⟨_, ‹_›⟩
  · exact ⟨_, ‹_›⟩
  · cases h

/-! What it drops. -/

/-- The card with all that is scheduled, and the map, dropped. -/
def Card.dropAll (c : Card) : Card := ((c.dropScheduled.dropMap).driveLnd).resetErases

theorem Card.dropMap_entry (c : Card) (t : Tag) : EntryStays (c.tagEntry t) (c.dropMap.tagEntry t) :=
  (c.abortErases_windowEnd.entry t).trans (.of_ports (Rest.ports_eq c.abortErases.abortQueued_rest) t)

/-- What the map's fall leaves of flights and windows: nothing. -/
theorem Card.dropMap_scheduled (c : Card) : c.dropMap.flights.held = none ∧ c.dropMap.flights.acts = [] ∧
    c.dropMap.flights.marks = [] ∧ c.dropMap.maint.held = [] ∧ c.dropMap.maint.running = [] := ⟨rfl, rfl, rfl, rfl, rfl⟩

theorem Card.dropAll_entry (c : Card) (t : Tag) : EntryStays (c.tagEntry t) (c.dropAll.tagEntry t) := by
  obtain ⟨-, -, -, entry⟩ := c.dropScheduled_frame
  refine ((entry t).trans (Card.dropMap_entry _ t)).trans (.of_ports ?_ t)
  rw [Card.dropAll, Rest.ports_eq (Card.resetErases_rest _)]
  simp

theorem Card.dropAll_frame (c : Card) : c.dropAll.out = c.out ∧
    (c.dropAll.views.map = [] ∧ c.dropAll.views.valid = false) ∧
    (c.dropAll.flights.held = none ∧ c.dropAll.flights.acts = [] ∧ c.dropAll.flights.marks = []) ∧
    c.dropAll.maint.held = [] ∧ c.dropAll.maint.running = [] := by
  have rest := Card.resetErases_rest (c.dropScheduled.dropMap).driveLnd
  have keep := Card.resetErases_keep (c.dropScheduled.dropMap).driveLnd
  obtain ⟨-, -, -, -, -, flights, views, -, -, maint, -, -, -, -, out, -⟩ := (c.dropScheduled.dropMap).driveLnd_frame
  obtain ⟨-, -, out', valid, map⟩ := c.dropScheduled.dropMap_frame
  obtain ⟨held, acts, marks, windows, running⟩ := c.dropScheduled.dropMap_scheduled
  have lands : c.dropAll.flights = c.dropScheduled.dropMap.flights := (Rest.flights_eq rest).trans flights
  have shows : c.dropAll.views = c.dropScheduled.dropMap.views := (Rest.views_eq rest).trans views
  refine ⟨(Rest.out_eq rest).trans ((out.trans out').trans (Far.out_eq c.dropScheduled_far)), ?_, ?_, ?_, ?_⟩
  · rw [shows]
    exact ⟨map, valid⟩
  · rw [lands]
    exact ⟨held, acts, marks⟩
  · exact (Card.held_of_keep keep).trans ((congrArg Maint.held maint).trans windows)
  · exact (Card.running_of_keep keep).trans ((congrArg Maint.running maint).trans running)

/-! What it answers. -/

/-- The strap read under way, the LANE-CHECKs owed and the LND pin given up. -/
def Card.letGo (c : Card) : Card :=
  { c with
    straps := { c.straps with reading := none }
    link := { c.link with owed := [] }
    power := { c.power with lnd := false } }

/-- Of the tag table the command's own entry stays, and what is not outstanding goes. -/
theorem Card.keepTags_entry (c : Card) (t g : Tag) :
    (c.keepTags t).tagEntry g = if g = t ∨ (c.cmdOf g).isSome = true then c.tagEntry g else none := by
  have go := KV.find_filter_key (m := c.ports.tags)
    (fun k => k == t.toNat || (c.cmdOf (BitVec.ofNat 6 k)).isSome) g.toNat
  rw [BitVec.ofNat_toNat, BitVec.setWidth_eq] at go
  refine Eq.trans go (if_congr ?_ rfl rfl)
  rw [Bool.or_eq_true, beq_iff_eq, BitVec.toNat_inj]

theorem Card.endHold_grows (c : Card) {o : Out} (sent : o ∈ c.out) : o ∈ c.endHold.out := by
  unfold Card.endHold
  dsimp only
  repeat' split
  all_goals simp [Card.enterTraining, Card.send, sent]

theorem Card.endHold_entry (c : Card) (t : Tag) : c.endHold.tagEntry t = c.tagEntry t := by
  simp [Card.tagEntry]

/-- FORCE CLOSE's last stages, on a card with everything dropped. -/
def Card.letGoEnd (c : Card) (t : Tag) : Card :=
  (((c.letGo.keepTags t).endHold).finish t stOk 0 false).enter .readyUnmounted

/-- FORCE CLOSE in its stages (R167, R330). -/
theorem Card.forceClose_eq (c : Card) (t : Tag) : c.forceClose t = ((c.abortEach c.abortTags).dropAll).letGoEnd t := by
  unfold Card.forceClose Card.abortEach Card.dropAll Card.letGoEnd Card.letGo
  with_reducible rfl

/-- What the last stages leave. -/
theorem Card.letGoEnd_frame (c : Card) (t : Tag) : (c.letGoEnd t).views = c.views ∧ (c.letGoEnd t).flights = c.flights ∧
    (c.letGoEnd t).maint.held = c.maint.held ∧ (c.letGoEnd t).maint.running = c.maint.running ∧
    (c.letGoEnd t).power.lnd = false ∧ (c.letGoEnd t).straps.reading = none := by
  have keep : (((c.letGo.keepTags t).endHold).finish t stOk 0 false).keep = (c.letGo.keepTags t).keep :=
    (Card.finish_keep _ _ _ _ _).trans (Card.endHold_keep _)
  have windows (d : Card) : (d.enter .readyUnmounted).maint = d.maint := by simp
  unfold Card.letGoEnd
  refine ⟨by simp [Card.letGo], by simp [Card.letGo], ?_, ?_, by simp [Card.letGo], by simp [Card.letGo]⟩
  · exact (congrArg Maint.held (windows _)).trans (Card.held_of_keep keep)
  · exact (congrArg Maint.running (windows _)).trans (Card.running_of_keep keep)

theorem Card.letGoEnd_grows (c : Card) (t : Tag) {o : Out} (sent : o ∈ c.out) : o ∈ (c.letGoEnd t).out := by
  have out (d : Card) : (d.enter .readyUnmounted).out = d.out := by simp
  rw [Card.letGoEnd, out]
  exact Card.finish_grows _ _ _ _ _ (Card.endHold_grows _ sent)

theorem Card.enter_entry (c : Card) (p : Phase) (t : Tag) : (c.enter p).tagEntry t = c.tagEntry t := by
  simp [Card.tagEntry]

/-- The command is answered. -/
theorem Card.letGoEnd_ended {c : Card} {op : Byte} {f : Frame} {k : Cmd} (taken : c.working op f k) :
    (c.letGoEnd f.tag).ended op f stOk 0 := by
  have taken' : ((c.letGo.keepTags f.tag).endHold).working op f k := by
    rw [Card.working, Card.endHold_entry, Card.keepTags_entry, if_pos (.inl rfl)]
    exact taken
  rw [Card.ended, Card.letGoEnd, Card.enter_entry]
  exact Card.finish_ended _ _ _ taken'

/-- Another tag with no command outstanding is forgotten (R330). -/
theorem Card.letGoEnd_gone {c : Card} {t g : Tag} (other : g ≠ t) (idle : c.cmdOf g = none) :
    (c.letGoEnd t).tagEntry g = none := by
  have idle' : c.letGo.cmdOf g = none := idle
  have gone : ((c.letGo.keepTags t).endHold).tagEntry g = none := by
    rw [Card.endHold_entry, Card.keepTags_entry, if_neg (by simp [other, idle'])]
  rw [Card.letGoEnd, Card.enter_entry, Card.finish_tagEntry_other _ _ _ _ other (by simp [Card.cmdOf, gone]), gone]

/-- FORCE CLOSE comes by DCI alone (R233). -/
theorem Card.admits_forceClose_dci {c : Card} {f : Frame} (admits : c.admits opForceClose f = true) : f.port = .dci := by
  unfold Card.admits at admits
  simp only [Bool.and_eq_true] at admits
  obtain ⟨⟨⟨-, entitle⟩, -⟩, -⟩ := admits
  cases port : f.port with
  | ci =>
    rw [port] at entitle
    exact absurd entitle (by decide)
  | dci => rfl

/-- FORCE CLOSE where the card is not READY-UNMOUNTED: all dropped, its own command answered. -/
theorem Card.forceClose_drops {c : Card} {f : Frame} (taken : c.working opForceClose f .dockOp) (port : f.port = .dci) :
    (c.forceClose f.tag).ended opForceClose f stOk 0 ∧
      (c.forceClose f.tag).views.map = [] ∧ (c.forceClose f.tag).views.valid = false ∧
      (c.forceClose f.tag).flights.held = none ∧ (c.forceClose f.tag).flights.acts = [] ∧
      (c.forceClose f.tag).flights.marks = [] ∧ (c.forceClose f.tag).maint.held = [] ∧
      (c.forceClose f.tag).maint.running = [] ∧ (c.forceClose f.tag).power.lnd = false ∧
      (c.forceClose f.tag).straps.reading = none := by
  have unlisted : f.tag ∉ c.abortTags := by
    rw [Card.mem_abortTags]
    rintro ⟨e, entry, aborted⟩
    obtain rfl := Option.some.inj (taken.symm.trans entry)
    simp [TagEntry.aborted, entryOf, port] at aborted
  have taken' : (c.abortEach c.abortTags).dropAll.working opForceClose f .dockOp :=
    Card.working_of_stays taken (by simp) ((c.abortEach_stays unlisted).trans (Card.dropAll_entry _ _))
  obtain ⟨-, ⟨map, valid⟩, ⟨held, acts, marks⟩, windows, running⟩ := (c.abortEach c.abortTags).dropAll_frame
  obtain ⟨shows, lands, windows', running', lnd, straps⟩ := (c.abortEach c.abortTags).dropAll.letGoEnd_frame f.tag
  rw [Card.forceClose_eq, shows, lands]
  exact ⟨Card.letGoEnd_ended taken', map, valid, held, acts, marks, windows'.trans windows, running'.trans running, lnd, straps⟩

/-- Each command it ends is told ABORTED and forgotten (R167, R330). -/
theorem Card.forceClose_aborts {c : Card} {t g : Tag} {e : TagEntry} (other : g ≠ t) (entry : c.tagEntry g = some e)
    (aborted : e.aborted = true) : (c.forceClose t).tagEntry g = none ∧
      (c.portUp e.port = true → ∃ r, .resp e.port r ∈ (c.forceClose t).out ∧ r.kind = 0 ∧ r.code = g ∧ r.status = stAborted ∧
        (c.phase = .mounted → r.flags.getLsbD 0 = c.abortZ g)) := by
  have named : g ∈ c.abortTags := Card.mem_abortTags.mpr ⟨e, entry, aborted⟩
  obtain ⟨k, out⟩ := TagEntry.aborted_outstanding aborted
  have entry' : c.tagEntry g = some { e with state := .outstanding k } := by rw [entry, ← out]
  rw [Card.forceClose_eq]
  refine ⟨Card.letGoEnd_gone other ?_, fun up => ?_⟩
  · have done := (Card.abort_ends g).foldl c.abortTags c ⟨g, named, rfl⟩ entry'
    have done' := (Card.dropAll_entry (c.abortEach c.abortTags) g).completed done
    simp [Card.cmdOf, done']
  · obtain ⟨r, sent, told⟩ := Card.abortEach_sends c named entry' up
    obtain ⟨out, -⟩ := (c.abortEach c.abortTags).dropAll_frame
    exact ⟨r, Card.letGoEnd_grows _ _ (by rwa [out]), told⟩

theorem BalconyOnly.straps {c d : Card} (h : BalconyOnly c d) : d.straps = c.straps := by
  obtain ⟨b, rfl⟩ := h
  rfl

theorem BalconyOnly.tagEntry {c d : Card} (h : BalconyOnly c d) (t : Tag) : d.tagEntry t = c.tagEntry t := by
  obtain ⟨b, rfl⟩ := h
  rfl

/-- FORCE CLOSE as O43 states it. -/
theorem forceCloseRow {s : State} {f : Frame} (admits : s.card.admits opForceClose f = true) :
    ∃ t, exec (.forceClose f) s = .next t ∧ t.card.ended opForceClose f stOk 0 ∧ t.card.phase = .readyUnmounted ∧
      t.card.media.cells = s.card.media.cells ∧
      (s.card.phase ≠ .readyUnmounted → t.card.views.map = [] ∧ t.card.views.valid = false ∧
        t.card.flights.held = none ∧ t.card.flights.acts = [] ∧ t.card.flights.marks = [] ∧ t.card.maint.held = [] ∧
        t.card.maint.running = [] ∧ t.card.power.lnd = false ∧ t.card.straps.reading = none ∧
        ∀ g e, s.card.tagEntry g = some e → e.aborted = true → t.card.tagEntry g = none ∧
          (s.card.portUp e.port = true →
            ∃ r, .resp e.port r ∈ t.card.out ∧ r.kind = 0 ∧ r.code = g ∧ r.status = stAborted ∧
              (s.card.phase = .mounted → r.flags.getLsbD 0 = s.card.abortZ g))) ∧
      (s.card.phase = .readyUnmounted → t.card.views = s.card.views ∧
        t.card.out = s.card.respNow f.port 0 f.tag stOk 0 false :: s.card.out) := by
  have taken := s.card.accept_working opForceClose f .dockOp
  have unused := Card.admits_unused admits
  have port := Card.admits_forceClose_dci admits
  obtain ⟨t, next, only⟩ := run_balconyOnly (fun c => c.receive opForceClose f .dockOp (fun c => c.doForceClose f)) s
  rw [Card.receive_of_admits _ _ admits] at only
  set a := s.card.accept opForceClose f .dockOp with ha
  obtain ⟨-, -, -, phase, power⟩ := s.card.accept_frame opForceClose f .dockOp
  have link := s.card.accept_link opForceClose f .dockOp
  obtain ⟨out, power', flights, maint, phase', views⟩ := only.frame
  have cells : t.card.media.cells = s.card.media.cells := by
    refine only.cells.trans ((Card.cells_of_keep (Card.doForceClose_keeps a f).2.1).trans ?_)
    obtain ⟨b, h⟩ := s.card.accept_eq opForceClose f .dockOp
    rw [ha, h]
  have ready : t.card.phase = .readyUnmounted := phase'.trans (Card.doForceClose_phase a f)
  by_cases unmounted : s.card.phase = .readyUnmounted
  · have plain : a.doForceClose f = a.finish f.tag stOk 0 false := if_pos (phase.trans unmounted)
    rw [plain] at only out views
    refine ⟨t, next, only.ended (Card.finish_ended _ _ _ taken), ready, cells, fun active => absurd unmounted active,
      fun _ => ⟨?_, ?_⟩⟩
    · obtain ⟨b, h⟩ := s.card.accept_eq opForceClose f .dockOp
      rw [views, (a.finish_frame _ _ _ _).2.2.2.2.2.2.1, ha, h]
    · rw [out, Card.finish_out _ _ _ taken rfl ((Card.portUp_congr (congrArg Power.dock power) _).trans
        (Card.admits_portUp admits)), Card.accept_respNow, Card.accept_out]
      rfl
  · have drops : a.doForceClose f = a.forceClose f.tag := if_neg (by rwa [phase])
    rw [drops] at only out power' flights maint views
    obtain ⟨ended, map, valid, held, acts, marks, windows, running, lnd, straps⟩ := Card.forceClose_drops taken port
    refine ⟨t, next, only.ended ended, ready, cells, fun _ => ⟨by rw [views, map], by rw [views, valid], by rw [flights, held],
      by rw [flights, acts], by rw [flights, marks], by rw [maint, windows], by rw [maint, running], by rw [power', lnd],
      by rw [only.straps, straps], fun g e entry aborted => ?_⟩, fun is => absurd is unmounted⟩
    have other : g ≠ f.tag := by
      rintro rfl
      obtain ⟨k, outstanding⟩ := TagEntry.aborted_outstanding aborted
      simp [Card.cmdOf, entry, outstanding] at unused
    have stays := s.card.accept_tagEntry_other opForceClose f .dockOp other
    obtain ⟨gone, told⟩ := Card.forceClose_aborts other (stays.trans entry) aborted
    refine ⟨(only.tagEntry g).trans gone, fun up => ?_⟩
    obtain ⟨r, sent, kind, code, status, flags⟩ :=
      told ((Card.portUp_congr (congrArg Power.dock power) _).trans up)
    exact ⟨r, by rwa [out], kind, code, status, fun mounted =>
      (flags (phase.trans mounted)).trans (Card.abortZ_congr (.inl stays) link)⟩

/-- Settles O43: CLOSE by what stands in its way, what is left of its flight and its numbering; FORCE CLOSE by the stages in
which it ends commands, drops the map and answers. -/
theorem closeRules : Obligations.CloseRules := by
  unfold Obligations.CloseRules
  exact ⟨fun s f admits => closeRow admits, fun s f admits => forceCloseRow admits⟩

end Sys2Proof.Machine

/-! MOUNT and its completion (R145, R150 to R157, R164, R248, R312). -/

namespace Sys2Proof.Machine

open Sys2Proof

/-! MOUNT begins. -/

theorem Card.unfence_fenced (c : Card) (n : Nat) : (c.unfence.die n).fenced = false := by
  have found : KV.find c.unfence.halls.dies n =
      (KV.find c.halls.dies n).map (fun d => { d with hangs := 0, fenced := false }) :=
    KV.find_mapValue c.halls.dies (fun _ d => { d with hangs := 0, fenced := false }) n
  rw [Card.die, KV.getD, found]
  cases KV.find c.halls.dies n with
  | none => rfl
  | some d => rfl

/-- A mount begun, by its command's entry. -/
theorem Card.beginMount_frame (c : Card) (t : Tag) :
    (c.beginMount t).phase = .mounting ∧ (c.beginMount t).link.holdDue = true ∧
      (c.beginMount t).straps.reading = some { kind := .mount, pass := 0, todo := allStraps, got := .unread } ∧
      (∀ n, ((c.beginMount t).die n).fenced = false) ∧ (c.beginMount t).out = c.out ∧
      (c.beginMount t).ports = (c.setCmd t (.mount (c.phase == .closed))).ports := by
  unfold Card.beginMount
  dsimp only
  refine ⟨?_, rfl, rfl, Card.unfence_fenced _, ?_, ?_⟩
  · simp
  · simp
  · simp

/-! MOUNT completes. -/

theorem HallsOnly.flags {c d : Card} (h : HallsOnly c d) (z : Bool) : d.flags z = c.flags z := by
  obtain ⟨_, _, rfl⟩ := h
  exact Card.flags_congr rfl rfl rfl rfl rfl rfl (Card.freeErased_congr rfl rfl rfl) z

theorem Card.decideWear_victim (c : Card) : c.decideWear.maint.victim = c.maint.victim := by
  unfold Card.decideWear
  dsimp only
  split <;> simp

theorem Card.evalMarks_victim (c : Card) : c.evalMarks.maint.victim = c.maint.victim := by
  have cross (d : Card) (old new mark code : Nat) : (d.crossMark old new mark code).maint = d.maint := by
    unfold Card.crossMark
    (repeat' split) <;> simp
  unfold Card.evalMarks
  dsimp only
  rw [cross, cross, cross]

theorem Card.newPass_victim (c : Card) : c.newPass.maint.victim = c.maint.victim := by
  simp [Card.newPass]

/-- What a mount begins anew is empty. -/
theorem Card.startMounted_maint (c : Card) : c.startMounted.maint.held = [] ∧ c.startMounted.maint.running = [] ∧
    c.startMounted.maint.victim = none := by
  unfold Card.startMounted
  dsimp only
  set d : Card := { c with maint := _ }
  have keep : (d.newPass.evalMarks).decideWear.keep = d.keep := by simp
  refine ⟨Card.held_of_keep keep, Card.running_of_keep keep, ?_⟩
  rw [Card.decideWear_victim, Card.evalMarks_victim, Card.newPass_victim]

theorem Card.emptyTags_stays {c : Card} {h : Tag} {x : TagEntry} (entry : c.emptyTags.tagEntry h = some x) :
    ∃ n, x.state = .outstanding (.inquire n) := by
  have kept := (List.mem_filter.mp (KV.mem_of_find entry)).2
  unfold TagEntry.stays at kept
  split at kept
  · exact ⟨_, ‹_›⟩
  · cases kept

/-- The card MOUNTED, its table emptied, as its final response is to go out. -/
def Card.readyMounted (c : Card) : Card := ((c.startMounted.endHold).enter .mounted).emptyTags

theorem Card.readyMounted_frame (c : Card) : c.readyMounted.phase = .mounted ∧ c.readyMounted.maint.held = [] ∧
    c.readyMounted.maint.running = [] ∧ c.readyMounted.maint.victim = none ∧ c.readyMounted.views = c.views ∧
    c.readyMounted.flights = c.flights ∧ c.readyMounted.power = c.power := by
  obtain ⟨held, running, victim⟩ := c.startMounted_maint
  have rest := c.startMounted_rest
  have maint : c.readyMounted.maint = c.startMounted.maint := by simp [Card.readyMounted]
  rw [maint]
  refine ⟨by simp [Card.readyMounted], held, running, victim, ?_, ?_, ?_⟩
  · exact (show c.readyMounted.views = c.startMounted.views by simp [Card.readyMounted]).trans (Rest.views_eq rest)
  · exact (show c.readyMounted.flights = c.startMounted.flights by simp [Card.readyMounted]).trans (Rest.flights_eq rest)
  · exact (show c.readyMounted.power = c.startMounted.power by simp [Card.readyMounted]).trans (Rest.power_eq rest)

/-- The same card about to end its mount, and after its final response (R157, R312). -/
theorem Card.endMount_eq (c : Card) (t : Tag) (e : TagEntry) (fast : Bool) (u : Nat) : HallsOnly
    (c.readyMounted.sendFinal e.port t stOk (info3 (if fast then 1 else 2) (min u 255) 0) false) (c.endMount t e fast u) :=
  Card.pumpAll_hallsOnly _

/-- What a mount's end leaves. -/
theorem Card.endMount_frame (c : Card) (t : Tag) (e : TagEntry) (fast : Bool) (u : Nat) :
    (c.endMount t e fast u).phase = .mounted ∧ (c.endMount t e fast u).maint.held = [] ∧
      (c.endMount t e fast u).maint.running = [] ∧ (c.endMount t e fast u).maint.victim = none ∧
      (∀ h x, (c.endMount t e fast u).tagEntry h = some x → ∃ n, x.state = .outstanding (.inquire n)) ∧
      (c.endMount t e fast u).views = c.views ∧ (c.endMount t e fast u).flights = c.flights := by
  obtain ⟨phase, held, running, victim, views, flights, -⟩ := c.readyMounted_frame
  obtain ⟨_, _, eq⟩ := c.endMount_eq t e fast u
  rw [eq]
  obtain ⟨phase', -, -, -, -, flights', views', -, -, maint', -⟩ :=
    c.readyMounted.sendFinal_frame e.port t stOk (info3 (if fast then 1 else 2) (min u 255) 0) false
  refine ⟨phase'.trans phase, (congrArg Maint.held maint').trans held, (congrArg Maint.running maint').trans running,
    (congrArg Maint.victim maint').trans victim, fun h x entry => ?_, views'.trans views, flights'.trans flights⟩
  refine Card.emptyTags_stays (c := (c.startMounted.endHold).enter .mounted) (h := h) (x := x) ?_
  rw [← entry]
  exact congrArg (fun m => KV.find m h.toNat) (Card.sendFinal_tags c.readyMounted e.port t stOk _ false).symm

/-- Its final response, with the flags as they are then (R157, R251). -/
theorem Card.endMount_sends {c : Card} {t : Tag} {e : TagEntry} (fast : Bool) (u : Nat) (up : c.portUp e.port = true) :
    ∃ q rest, (c.endMount t e fast u).out = .resp e.port q :: rest ∧ q.kind = 0 ∧ q.code = t ∧
      q.status = stOk ∧ q.flags = (c.endMount t e fast u).flags false ∧ infoByte q.info 0 = if fast then 1 else 2 := by
  have up' : c.readyMounted.portUp e.port = true := (Card.portUp_congr (congrArg Power.dock c.readyMounted_frame.2.2.2.2.2.2) _).trans up
  have only := c.endMount_eq t e fast u
  set info := info3 (if fast then 1 else 2) (min u 255) 0 with hi
  obtain ⟨b, sent⟩ := Card.sendFinal_eq (c := c.readyMounted) (p := e.port) t stOk info false up'
  obtain ⟨q, told, kind, code, status, answer, flags⟩ := c.readyMounted.respNow_eq e.port 0 t stOk info false
  refine ⟨q, c.readyMounted.out, ?_, kind, code, status, ?_, ?_⟩
  · obtain ⟨_, _, eq⟩ := only
    rw [eq, sent, ← told]
  · rw [flags, only.flags, sent]
    exact (Card.flags_congr rfl rfl rfl rfl rfl rfl (Card.freeErased_congr rfl rfl rfl) false).symm
  · have low : (BitVec.ofNat 8 (min u 255)).toNat = min u 255 := by
      rw [BitVec.toNat_ofNat, Nat.mod_eq_of_lt (by omega)]
    have read := fun x : Byte => (infoByte_info3 x (BitVec.ofNat 8 (min u 255)) 0).1
    rw [low] at read
    rw [answer, hi]
    cases fast with
    | true => exact read 1
    | false => exact read 2

/-- MOUNT as O42 states it. -/
theorem mountRow {s : State} {f : Frame} (admits : s.card.admits opMount f = true) :
    ∃ t, exec (.mount f) s = .next t ∧
      (s.card.profile = none → t.card.ended opMount f stNotReady (info3 1 0 0) ∧ t.card.phase = s.card.phase) ∧
      (s.card.profile.isSome = true → t.card.phase = .mounting ∧
        t.card.working opMount f (.mount (s.card.phase == .closed)) ∧ t.card.link.holdDue = true ∧
        t.card.straps.reading = some { kind := .mount, pass := 0, todo := allStraps, got := .unread } ∧
        (∀ n, (t.card.die n).fenced = false) ∧ t.card.media.cells = s.card.media.cells ∧ t.card.out = s.card.out) := by
  have taken := s.card.accept_working opMount f (.mount false)
  obtain ⟨t, next, only⟩ := run_balconyOnly (fun c => c.receive opMount f (.mount false) (fun c => c.doMount f)) s
  rw [Card.receive_of_admits _ _ admits, Card.doMount] at only
  set a := s.card.accept opMount f (.mount false) with ha
  obtain ⟨-, -, -, phase, -⟩ := s.card.accept_frame opMount f (.mount false)
  have profile : a.profile = s.card.profile := by
    obtain ⟨b, h⟩ := s.card.accept_eq opMount f (.mount false)
    rw [ha, h]
    rfl
  rw [profile] at only
  refine ⟨t, next, fun without => ?_, fun formatted => ?_⟩
  · rw [without, Option.isNone_none, if_pos rfl] at only
    exact ⟨only.ended (Card.finish_ended _ _ _ taken),
      only.frame.2.2.2.2.1.trans ((a.finish_frame f.tag stNotReady (info3 1 0 0) false).1.trans phase)⟩
  · rw [if_neg (by rw [Option.isNone_iff_eq_none]; exact Option.isSome_iff_ne_none.mp formatted)] at only
    obtain ⟨mounting, hold, reading, fenced, out, ports⟩ := a.beginMount_frame f.tag
    obtain ⟨out', -, -, -, phase', -⟩ := only.frame
    have cells : (a.beginMount f.tag).media.cells = a.media.cells :=
      Card.cells_of_keep (Card.beginMount_keeps a f.tag).2.1
    have work : (a.beginMount f.tag).working opMount f (.mount (s.card.phase == .closed)) := by
      refine Card.working_of_ports ports ?_
      rw [phase, Card.working, Card.setCmd_eq _ taken rfl]
      exact Card.putTag_tagEntry _ _ _
    refine ⟨phase'.trans mounting, only.working work, ?_, only.straps ▸ reading, fun n => ?_, only.cells.trans (cells.trans ?_),
      out'.trans (out.trans (s.card.accept_out _ _ _))⟩
    · rw [only.eq]
      exact hold
    · rw [only.eq]
      exact fenced n
    · obtain ⟨b, h⟩ := s.card.accept_eq opMount f (.mount false)
      rw [ha, h]

/-- MOUNT_COMPLETE as O42 states it. -/
theorem mountCompleteRow {s : State} {r : ScanReport} {g : Tag} {e : TagEntry} {fc : Bool} (phase : s.card.phase = .mounting)
    (hclk : s.card.power.hclk = true) (read : s.card.straps.reading = none) (mount : s.card.mounting = some (g, e, fc)) :
    ((fc && s.card.views.selfRefresh && r.canary) = false → s.card.halls.resets ≠ [] →
      exec (.mountComplete r) s = .next s) ∧
    ((fc && s.card.views.selfRefresh && r.canary) = true ∨ s.card.halls.resets = [] →
    ∃ t, exec (.mountComplete r) s = .next t ∧ t.card.phase = .mounted ∧ t.card.maint.held = [] ∧
      t.card.maint.running = [] ∧ t.card.maint.victim = none ∧
      (∀ h x, t.card.tagEntry h = some x → ∃ n, x.state = .outstanding (.inquire n)) ∧
      (let fast := fc && s.card.views.selfRefresh && r.canary
       (fast = true → t.card.views.map = s.card.views.map ∧ t.card.flights.last = s.card.flights.last ∧
         t.card.flights.base = s.card.flights.nextOrd) ∧
       (s.card.portUp e.port = true → ∃ q rest, t.card.out = .resp e.port q :: rest ∧ q.kind = 0 ∧ q.code = g ∧
         q.status = stOk ∧ q.flags = t.card.flags false ∧ infoByte q.info 0 = if fast then 1 else 2))) := by
  have eq : s.card.mountComplete r =
      if fc && s.card.views.selfRefresh && r.canary then s.card.fastRemount.endMount g e true 0
      else if !s.card.halls.resets.isEmpty then s.card
      else ((s.card.dropMap.useReplacements r).fullScan r).endMount g e false
        ((s.card.dropMap.useReplacements r).pageScanned r) := by
    unfold Card.mountComplete
    rw [if_pos ⟨phase, hclk, by rw [read]; rfl⟩]
    simp only [mount]
  refine ⟨fun slow resetting => ?_, fun may => ?_⟩
  · rw [slow, if_neg Bool.false_ne_true, if_pos (by simpa using resetting)] at eq
    exact run_eq (f := fun c => c.mountComplete r) eq le_rfl
  · obtain ⟨t, next, only⟩ := run_balconyOnly (fun c => c.mountComplete r) s
    obtain ⟨out, -, flights, maint, phase', views⟩ := only.frame
    refine ⟨t, next, ?_⟩
    set fast := fc && s.card.views.selfRefresh && r.canary with hf
    suffices ends : ∃ (d : Card) (u : Nat), s.card.mountComplete r = d.endMount g e fast u ∧
        d.portUp e.port = s.card.portUp e.port ∧
        (fast = true → d.views.map = s.card.views.map ∧ d.flights.last = s.card.flights.last ∧
          d.flights.base = s.card.flights.nextOrd) by
      obtain ⟨d, u, is, up, kept⟩ := ends
      obtain ⟨mounted, held, running, victim, tags, views', flights'⟩ := d.endMount_frame g e fast u
      rw [is] at out flights maint phase' views only
      refine ⟨phase'.trans mounted, (congrArg Maint.held maint).trans held, (congrArg Maint.running maint).trans running,
        (congrArg Maint.victim maint).trans victim, fun h x entry => tags h x ((only.tagEntry h).symm.trans entry),
        fun quick => ?_, fun powered => ?_⟩
      · rw [views, views', flights, flights']
        exact kept quick
      · obtain ⟨q, rest, sent, kind, code, status, flags, info⟩ := Card.endMount_sends (t := g) fast u (up.trans powered)
        exact ⟨q, rest, out.trans sent, kind, code, status,
          flags.trans (HallsOnly.flags (.of_balcony only) false).symm, info⟩
    cases quick : fast with
    | true =>
      rw [quick, if_pos rfl] at eq
      exact ⟨s.card.fastRemount, 0, eq, rfl, fun _ => ⟨rfl, rfl, rfl⟩⟩
    | false =>
      have none : s.card.halls.resets = [] := may.resolve_left (by simp [quick])
      rw [quick, if_neg Bool.false_ne_true, none, if_neg (by decide)] at eq
      refine ⟨_, _, eq, Card.portUp_congr ?_ _, fun h => absurd h Bool.false_ne_true⟩
      obtain ⟨-, -, -, -, -, -, -, scan, -⟩ := Card.fullScan_keeps (s.card.dropMap.useReplacements r) r
      obtain ⟨-, -, -, -, -, -, replace, -⟩ := Card.useReplacements_keeps s.card.dropMap r
      obtain ⟨-, -, -, -, -, -, -, drop, -⟩ := Card.dropMap_keeps s.card
      exact scan.trans (replace.trans drop)

/-- Settles O42: MOUNT by whether the card has a profile; its completion by the fast remount and the full scan, which end
alike. -/
theorem mountRule : Obligations.MountRule := by
  unfold Obligations.MountRule
  exact ⟨fun s f admits => mountRow admits,
    fun s r g e fc phase hclk read mount => mountCompleteRow phase hclk read mount⟩

end Sys2Proof.Machine

/-! FORMAT, SANITIZE, ALCOVE LOAD and ALCOVE SWAP begin (R328 to R339, R558 to R565). -/

namespace Sys2Proof.Machine

open Sys2Proof

theorem Card.dropMap_rest (c : Card) : c.dropMap.alcove = c.alcove ∧ c.dropMap.link = c.link ∧ c.dropMap.out = c.out := by
  obtain ⟨_, _, _, _, link, _, _, alcove, out⟩ :=
    Far.mk.inj ((Far.of_rest c.abortErases.abortQueued_rest).trans c.abortErases_far)
  exact ⟨alcove, link, out⟩

/-- A dock operation's leaving of CLOSED keeps the alcoves, the link and what goes out (R139, R166). -/
theorem Card.leaveClosed_frame (c : Card) : c.leaveClosed.alcove = c.alcove ∧ c.leaveClosed.link = c.link ∧
    c.leaveClosed.out = c.out ∧ c.leaveClosed.phase = (if c.phase = .closed then .readyUnmounted else c.phase) ∧
    ∀ t, EntryStays (c.tagEntry t) (c.leaveClosed.tagEntry t) := by
  obtain ⟨alcove, link, out⟩ := c.dropMap_rest
  unfold Card.leaveClosed
  split
  · refine ⟨by simp [alcove], by simp [link], by simp [out], by simp, fun t => ?_⟩
    rw [Card.enter_entry]
    exact c.dropMap_entry t
  · exact ⟨rfl, rfl, rfl, rfl, fun t => .refl _⟩

theorem Card.leaveClosed_working {c : Card} {op : Byte} {f : Frame} (taken : c.working op f .dockOp) :
    c.leaveClosed.working op f .dockOp :=
  Card.working_of_stays taken (by simp) (c.leaveClosed_frame.2.2.2.2 f.tag)

theorem BalconyOnly.alcove {c d : Card} (h : BalconyOnly c d) : d.alcove = c.alcove := by
  obtain ⟨b, rfl⟩ := h
  rfl

theorem BalconyOnly.link {c d : Card} (h : BalconyOnly c d) : d.link = c.link := by
  obtain ⟨b, rfl⟩ := h
  rfl

theorem Card.accept_alcove' (c : Card) (op : Byte) (f : Frame) (k : Cmd) : (c.accept op f k).alcove = c.alcove := by
  obtain ⟨b, h⟩ := c.accept_eq op f k
  rw [h]

/-- A dock command's run, once its frame is admitted. -/
theorem run_dockOp {s : State} {op : Byte} {f : Frame} (body : Card → Card) (admits : s.card.admits op f = true) :
    ∃ t, run (fun c => c.receive op f .dockOp body) s = .next t ∧ BalconyOnly (body (s.card.accept op f .dockOp)) t.card := by
  obtain ⟨t, next, only⟩ := run_balconyOnly (fun c => c.receive op f .dockOp body) s
  rw [Card.receive_of_admits _ _ admits] at only
  exact ⟨t, next, only⟩

/-! FORMAT. -/

theorem formatRow {s : State} {f : Frame} (admits : s.card.admits opFormat f = true) :
    ∃ t, exec (.format f) s = .next t ∧ t.card.working opFormat f .dockOp ∧
      t.card.alcove.service = some (f.tag, .formatRead) ∧ t.card.phase = s.card.phase ∧ t.card.out = s.card.out ∧
      t.card.straps.reading = some { kind := .format, pass := 0, todo := allStraps, got := .unread } := by
  obtain ⟨t, next, only⟩ := run_dockOp (fun c => c.doFormat f) admits
  obtain ⟨out, -, -, -, phase, -⟩ := only.frame
  refine ⟨t, next, only.working (s.card.accept_working opFormat f .dockOp), ?_,
    phase.trans (s.card.accept_frame opFormat f .dockOp).2.2.2.1, out.trans (s.card.accept_out _ _ _), ?_⟩
  · rw [only.alcove]
    rfl
  · rw [only.straps]
    rfl

/-! SANITIZE. -/

/-- A card without a running dock operation serves SANITIZE in READY-UNMOUNTED and CLOSED (R142). -/
theorem Card.admits_sanitize_phase {c : Card} {f : Frame} (admits : c.admits opSanitize f = true) :
    c.phase = .readyUnmounted ∨ c.phase = .closed := by
  unfold Card.admits at admits
  simp only [Bool.and_eq_true, Option.isNone_iff_eq_none] at admits
  obtain ⟨⟨-, step7⟩, -⟩ := admits
  have served := Card.step7_served (by decide) step7
  change stateAnswer c.phase opSanitize _ = none at served
  cases phase : c.phase <;> rw [phase] at served <;>
    simp [stateAnswer, opSanitize, opInquire, opMount, opForceClose, opAlcoveLoad, opAlcoveSwap] at served ⊢

theorem Card.voidConf_frame (c : Card) : c.voidConf.profile = none ∧ c.voidConf.dataKey = none := by
  have none : c.voidConf.profile = none := by
    unfold Card.profile Card.voidConf
    cases c.alcove.conf <;> rfl
  exact ⟨none, by simp [Card.dataKey, none]⟩

/-- The operations SANITIZE queues: the void word, then the records of both alcoves (R562, R565). -/
def Card.sanitizeOps (c : Card) (r : Record) : List AlcoveOp :=
  c.voidOps ++ [.eraseSlot .a (c.freeSlot .a),
    .programRecord .a (c.freeSlot .a) r.sanitized, .eraseHead .a (!c.freeSlot .a), .eraseSlot .b (c.freeSlot .b),
    .programRecord .b (c.freeSlot .b) r.sanitized, .eraseHead .b (!c.freeSlot .b)]

theorem Card.sanitizeOps_congr {c d : Card} (h : d.alcove = c.alcove) (r : Record) : d.sanitizeOps r = c.sanitizeOps r := by
  simp only [Card.sanitizeOps, Card.voidOps, Card.freeSlot, h]

/-- SANITIZE once the card has left CLOSED. -/
def Card.sanitizing (c : Card) (t : Tag) (r : Record) : Card :=
  (c.unfence.askHold.voidConf.addOps (c.sanitizeOps r)).setService (some (t, .sanitizeRecord none r.sanitized))

theorem Card.doSanitize_eq {c : Card} {f : Frame} {r : Record} (record : c.record = some r) :
    c.doSanitize f = c.leaveClosed.sanitizing f.tag r := by
  unfold Card.doSanitize
  rw [record]
  rfl

theorem Card.sanitizing_frame (c : Card) (t : Tag) (r : Record) :
    (c.sanitizing t r).ports = c.ports ∧ (c.sanitizing t r).alcove.service = some (t, .sanitizeRecord none r.sanitized) ∧
      (c.sanitizing t r).phase = c.phase ∧ (c.sanitizing t r).profile = none ∧ (c.sanitizing t r).dataKey = none ∧
      (c.sanitizing t r).link.holdDue = true ∧ (c.sanitizing t r).out = c.out ∧
      (c.sanitizing t r).alcove.ops = c.alcove.ops ++ c.sanitizeOps r := by
  obtain ⟨noProfile, noKey⟩ := c.unfence.askHold.voidConf_frame
  exact ⟨rfl, rfl, rfl, noProfile, noKey, rfl, rfl, rfl⟩

theorem sanitizeRow {s : State} {f : Frame} {r : Record} (admits : s.card.admits opSanitize f = true)
    (record : s.card.record = some r) : ∃ t, exec (.sanitize f) s = .next t ∧
      t.card.working opSanitize f .dockOp ∧ t.card.alcove.service = some (f.tag, .sanitizeRecord none r.sanitized) ∧
      t.card.phase = .readyUnmounted ∧ t.card.profile = none ∧ t.card.dataKey = none ∧ t.card.link.holdDue = true ∧
      t.card.out = s.card.out ∧ t.card.alcove.ops = s.card.alcove.ops ++ s.card.sanitizeOps r := by
  obtain ⟨t, next, only⟩ := run_dockOp (fun c => c.doSanitize f) admits
  have taken := s.card.accept_working opSanitize f .dockOp
  have same := s.card.accept_alcove' opSanitize f .dockOp
  have accepted := s.card.accept_out opSanitize f .dockOp
  obtain ⟨-, -, -, stood, -⟩ := s.card.accept_frame opSanitize f .dockOp
  set a := s.card.accept opSanitize f .dockOp
  have record' : a.record = some r := by rw [Card.record, same]; exact record
  rw [Card.doSanitize_eq record'] at only
  obtain ⟨alcove, -, out, left, -⟩ := a.leaveClosed_frame
  obtain ⟨ports, service, phase, profile, key, hold, quiet, ops⟩ := a.leaveClosed.sanitizing_frame f.tag r
  obtain ⟨out', -, -, -, phase', -⟩ := only.frame
  refine ⟨t, next, only.working (Card.working_of_ports ports (Card.leaveClosed_working taken)), ?_, ?_, ?_, ?_, ?_,
    out'.trans (quiet.trans (out.trans accepted)), ?_⟩
  · rw [only.alcove, service]
  · refine phase'.trans (phase.trans (left.trans ?_))
    rw [stood]
    rcases Card.admits_sanitize_phase admits with is | is <;> simp [is]
  · rw [only.eq]
    exact profile
  · rw [only.eq]
    exact key
  · rw [only.link, hold]
  · rw [only.alcove, ops, Card.sanitizeOps_congr (alcove.trans same), alcove, same]

/-! ALCOVE LOAD. -/

theorem loadRow {s : State} {f : Frame} {bs : List Byte} (admits : s.card.admits opAlcoveLoad f = true)
    (ext : f.ext = some bs) : ∃ t, exec (.alcoveLoad f) s = .next t ∧
      (loadRange f.sector.toNat bs.length (f.flags.getLsbD 0) = true →
        t.card.working opAlcoveLoad f .dockOp ∧
        t.card.alcove.service = some (f.tag, .load s.card.alcove.target f.sector.toNat bs) ∧ t.card.phase ≠ .closed ∧
        t.card.alcove.ops = s.card.alcove.ops ++
          (if f.flags.getLsbD 0 then [.eraseSector s.card.alcove.target f.sector.toNat] else []) ++
            [.programBytes s.card.alcove.target f.sector.toNat bs]) ∧
      (loadRange f.sector.toNat bs.length (f.flags.getLsbD 0) = false →
        t.card.ended opAlcoveLoad f stRange 0 ∧ t.card.alcove = s.card.alcove) := by
  obtain ⟨t, next, only⟩ := run_dockOp (fun c => c.doLoad f) admits
  have taken := s.card.accept_working opAlcoveLoad f .dockOp
  have same := s.card.accept_alcove' opAlcoveLoad f .dockOp
  set a := s.card.accept opAlcoveLoad f .dockOp
  rw [Card.doLoad, ext, Option.getD_some] at only
  refine ⟨t, next, fun inRange => ?_, fun out => ?_⟩
  · rw [if_pos inRange] at only
    obtain ⟨alcove, -, -, left, -⟩ := a.leaveClosed_frame
    have work := Card.leaveClosed_working taken
    generalize a.leaveClosed = d at only alcove left work
    rw [← same, ← alcove]
    obtain ⟨-, -, -, -, phase, -⟩ := only.frame
    refine ⟨only.working work, only.alcove ▸ rfl, ?_, ?_⟩
    · rw [phase]
      change d.phase ≠ .closed
      rw [left]
      split
      · decide
      · assumption
    · rw [only.alcove, List.append_assoc]
      rfl
  · rw [out, if_neg Bool.false_ne_true] at only
    exact ⟨only.ended (Card.finish_ended _ _ _ taken),
      only.alcove.trans ((a.finish_frame f.tag stRange 0 false).2.2.2.2.2.2.2.2.2.1.trans same)⟩

/-! ALCOVE SWAP. -/

/-- A sequence field is not blank: a number and its complement are not both all ones (R546). -/
theorem seqField_ne_blank (n : BitVec 32) : seqField n ≠ List.replicate 8 0xFF := by
  intro blank
  have first : leBytes 4 n.toNat = List.replicate 4 0xFF := by
    have := congrArg (List.take 4) blank
    simpa [seqField] using this
  have second : leBytes 4 (~~~n).toNat = List.replicate 4 0xFF := by
    have := congrArg (List.drop 4) blank
    simpa [seqField] using this
  have a : n.toNat = leNat (List.replicate 4 0xFF) := by rw [← first, leNat_leBytes_toNat n rfl]
  have b : (~~~n).toNat = leNat (List.replicate 4 0xFF) := by rw [← second, leNat_leBytes_toNat (~~~n) rfl]
  have low : leNat (List.replicate 4 0xFF) = 2 ^ 32 - 1 := by decide
  rw [low] at a b
  rw [BitVec.toNat_not] at b
  omega

/-- The target's header and sections are in order (R339, R559). -/
def Mem.swappable (m : Mem) : Bool := decide (Mem.bytes m 0 8 = alcoveMagic) && m.lengthsOk && m.sectionsOk

theorem Mem.swappable_iff (m : Mem) :
    m.swappable = true ↔ Mem.bytes m 0 8 = alcoveMagic ∧ m.lengthsOk = true ∧ m.sectionsOk = true := by
  simp only [Mem.swappable, Bool.and_eq_true, decide_eq_true_eq, and_assoc]

theorem Card.setService_target (c : Card) (x : Option (Tag × Service)) :
    (c.setService x).alcove.target = c.alcove.target ∧ (∀ i, (c.setService x).alcove.mem i = c.alcove.mem i) ∧
      (c.setService x).alcove.conf = c.alcove.conf := ⟨rfl, fun _ => rfl, rfl⟩

/-- A swap on an idle device, of a target that is not in order (R559). -/
theorem Card.swapNow_bad {c : Card} (t : Tag) (bad : (c.alcove.mem c.alcove.target).swappable = false) :
    c.swapNow t = (c.setService none).finish t stAlcoveBad 0 false := by
  refine if_neg (fun good => ?_)
  rw [(c.setService_target none).2.1, (c.setService_target none).1] at good
  rw [(Mem.swappable_iff _).mpr good] at bad
  cases bad

/-- A swap of a target in order, by its sequence field (R339, R560). -/
theorem Card.swapNow_good {c : Card} (t : Tag) {n : BitVec 32} (good : (c.alcove.mem c.alcove.target).swappable = true)
    (seq : c.swapSeq = some n) :
    (Mem.bytes (c.alcove.mem c.alcove.target) 8 8 = seqField n →
      c.swapNow t = (c.setService none).leaveClosed.finish t stOk (n.setWidth 24) false) ∧
    (Mem.bytes (c.alcove.mem c.alcove.target) 8 8 = List.replicate 8 0xFF →
      ((c.alcove.mem c.alcove.target).read 36).toNat ≤ (c.alcove.conf.map Conf.p).getD 0 →
      c.swapNow t = ((c.setService none).leaveClosed.addOps [.programSeq c.alcove.target n]).setService
        (some (t, .swap c.alcove.target n))) := by
  have seq' : (c.setService none).swapSeq = some n := seq
  have in_order := (Mem.swappable_iff _).mp good
  obtain ⟨target, mem, conf⟩ := c.setService_target none
  unfold Card.swapNow
  simp only [mem, target, conf, if_pos in_order, seq']
  refine ⟨fun stands => if_pos stands, fun blank low => ?_⟩
  rw [if_neg (fun is => seqField_ne_blank n (is.symm.trans blank)), 
    if_neg (show ¬ Mem.bytes _ 8 8 ≠ List.replicate 8 Mem.blank from not_not_intro blank), if_neg (Nat.not_lt.mpr low)]

/-- A swap that begins forgets it was waiting. -/
theorem Card.swapNow_setService (c : Card) (x : Option (Tag × Service)) (t : Tag) : (c.setService x).swapNow t = c.swapNow t := by
  have same : (c.setService x).setService none = c.setService none := rfl
  unfold Card.swapNow
  rw [same]

theorem swapRow {s : State} {f : Frame} (admits : s.card.admits opAlcoveSwap f = true) :
    ∃ t, exec (.alcoveSwap f) s = .next t ∧
      (s.card.alcove.ops ≠ [] → t.card.working opAlcoveSwap f .dockOp ∧ t.card.phase = s.card.phase ∧
        t.card.alcove = { s.card.alcove with service := some (f.tag, .swapCheck) }) ∧
      (s.card.alcove.ops = [] →
       ((s.card.alcove.mem s.card.alcove.target).swappable = false → t.card.ended opAlcoveSwap f stAlcoveBad 0 ∧
        t.card.phase = s.card.phase ∧ t.card.alcove = { s.card.alcove with service := none }) ∧
       ∀ n, (s.card.alcove.mem s.card.alcove.target).swappable = true → s.card.swapSeq = some n →
        (Mem.bytes (s.card.alcove.mem s.card.alcove.target) 8 8 = seqField n →
          t.card.ended opAlcoveSwap f stOk (n.setWidth 24) ∧ t.card.alcove = { s.card.alcove with service := none }) ∧
        (Mem.bytes (s.card.alcove.mem s.card.alcove.target) 8 8 = List.replicate 8 0xFF →
          ((s.card.alcove.mem s.card.alcove.target).read 36).toNat ≤ (s.card.alcove.conf.map Conf.p).getD 0 →
          t.card.working opAlcoveSwap f .dockOp ∧
          t.card.alcove.service = some (f.tag, .swap s.card.alcove.target n) ∧
          t.card.alcove.ops = [.programSeq s.card.alcove.target n])) := by
  obtain ⟨t, next, only⟩ := run_dockOp (fun c => c.doSwap f) admits
  have taken := s.card.accept_working opAlcoveSwap f .dockOp
  have same := s.card.accept_alcove' opAlcoveSwap f .dockOp
  obtain ⟨-, -, -, phase, -⟩ := s.card.accept_frame opAlcoveSwap f .dockOp
  set a := s.card.accept opAlcoveSwap f .dockOp
  obtain ⟨-, -, -, -, phase', -⟩ := only.frame
  have seq : a.swapSeq = s.card.swapSeq := by simp only [Card.swapSeq, phase, same]
  rw [← seq, ← same, ← phase]
  refine ⟨t, next, fun busy => ?_, fun idle => ⟨fun bad => ?_, fun n good number => ⟨fun stands => ?_, fun blank low => ?_⟩⟩⟩
  · have waits : a.doSwap f = a.setService (some (f.tag, .swapCheck)) := if_neg (by simpa [Card.setService] using busy)
    rw [waits] at only phase'
    exact ⟨only.working taken, phase', only.alcove⟩
  all_goals
    have starts : a.doSwap f = a.swapNow f.tag :=
      (if_pos (by simp [Card.setService, idle])).trans (a.swapNow_setService _ _)
    rw [starts] at only phase'
    have work : (a.setService none).working opAlcoveSwap f .dockOp := taken
    have stood : (a.setService none).alcove = { a.alcove with service := none } := rfl
  · rw [Card.swapNow_bad _ bad] at only phase'
    obtain ⟨stays, -, -, -, -, -, -, -, -, alcove, -⟩ := (a.setService none).finish_frame f.tag stAlcoveBad 0 false
    exact ⟨only.ended (Card.finish_ended _ _ _ work), phase'.trans stays, only.alcove.trans (alcove.trans stood)⟩
  · rw [(Card.swapNow_good f.tag good number).1 stands] at only
    generalize a.setService none = d at only work stood
    obtain ⟨-, -, -, -, -, -, -, -, -, alcove, -⟩ := d.leaveClosed.finish_frame f.tag stOk (n.setWidth 24) false
    exact ⟨only.ended (Card.finish_ended _ _ _ (Card.leaveClosed_working work)),
      only.alcove.trans (alcove.trans (d.leaveClosed_frame.1.trans stood))⟩
  · rw [(Card.swapNow_good f.tag good number).2 blank low] at only
    generalize a.setService none = d at only work stood
    have alcove := d.leaveClosed_frame.1
    have work' := Card.leaveClosed_working work
    generalize d.leaveClosed = e at only alcove work'
    refine ⟨only.working work', only.alcove ▸ rfl, ?_⟩
    have ops : e.alcove.ops = [] := by rw [alcove, stood]; exact idle
    rw [only.alcove]
    exact congrArg (· ++ _) ops

/-- Settles O45: FORMAT and SANITIZE by what they ask for as they begin, ALCOVE LOAD by its range, ALCOVE SWAP by the device's
list and the target's header and sequence field. -/
theorem dockCommands : Obligations.DockCommands := by
  unfold Obligations.DockCommands
  refine ⟨fun s f => ⟨fun admits => formatRow admits, fun r admits record => ?_⟩,
    fun s f => ⟨fun bs admits ext => loadRow admits ext, fun admits => swapRow admits⟩⟩
  obtain ⟨t, next, work, service, phase, profile, key, hold, out, ops⟩ := sanitizeRow admits record
  exact ⟨t, next, work, service, phase, profile, key, hold, out, ops.trans (List.append_assoc _ _ _).symm⟩

end Sys2Proof.Machine

/-! A hung descriptor whose hall's reset ends a FORMAT under a fenced die (R508, R610). -/

namespace Sys2Proof.Machine

open Sys2Proof

/-- FORMAT waits for erases under a fenced die, of which none runs any longer, while a void word is still queued on the alcove
device; C2H lane 0 is held low, and die 0 executes a READ. -/
def fencedFormatCard : Card :=
  { Card.reset with
    phase := .readyUnmounted
    power := { Card.reset.power with hclk := true }
    link := { Card.reset.link with hold := true }
    halls := { Card.reset.halls with dies := [(0, { Die.idle with op := some (.read 0 0 false 0 0) })] }
    alcove := { Card.reset.alcove with service := some (0, .formatFenced 16 [] []), ops := [.voidWord .a false] } }

/-- The void word counts as the erases not having begun: FORMAT is not erasing. -/
theorem fencedFormatCard_idle : fencedFormatCard.serviceErasing = false ∧ fencedFormatCard.out = [] := by decide +kernel

/-- The hall's reset ends FORMAT all the same, and with it the hold: the resync pattern and a marker go out. -/
theorem fencedFormatCard_sends : (fencedFormatCard.descriptorHung 0 0).out.length = 2 := by decide +kernel

/-- Refutes O54: at the first hang of die 0 of `fencedFormatCard` the card sends, though `Card.serviceErasing` is false there and
nothing else is under way. `Card.serviceReset` looks at FORMAT's stage alone, `Card.serviceErasing` also at the void word. -/
theorem not_dieReports : ¬ Obligations.DieReports := by
  unfold Obligations.DieReports
  rintro ⟨-, hung⟩
  obtain ⟨-, hangs, -⟩ := hung ⟨fencedFormatCard, []⟩ 0 0 rfl
  obtain ⟨t, next, -, -, -, -, -, -, first⟩ := hangs (.read 0 0 false 0 0) (by decide +kernel) (by decide +kernel)
    (by decide +kernel) (.inl (by decide +kernel))
  obtain ⟨-, quiet⟩ := first (by decide +kernel)
  obtain ⟨same, -⟩ := quiet fencedFormatCard_idle.1 rfl rfl rfl rfl rfl (fun k is => nomatch is)
  obtain ⟨u, next', only⟩ := run_balconyOnly (fun c => c.descriptorHung 0 0) ⟨fencedFormatCard, []⟩
  obtain rfl : u = t := Host.Outcome.next.inj (next'.symm.trans next)
  have sent : u.card.out.length = 2 := (congrArg List.length only.frame.1).trans fencedFormatCard_sends
  rw [same, fencedFormatCard_idle.2] at sent
  exact absurd sent (by decide)

end Sys2Proof.Machine

/-! The twin link: HELLO, DIGEST, the wait's end, the verdicts (R514, R526 to R538). -/

namespace Sys2Proof.Machine

open Sys2Proof

/-! One verdict. -/

/-- What is known of the pair after a verdict (R533 to R535). -/
def Twin.paired (w : Twin) (p : BitVec 8) (f : Flight) : Twin :=
  { w with pair := p, fresh := false, lastCompared := if p = 1 ∨ p = 3 then f else w.lastCompared
           firstDiverged := if p = 3 ∧ w.pair ≠ 3 then f else w.firstDiverged }

theorem Card.setPair_twin (c : Card) (p : BitVec 8) (f : Flight) : (c.setPair p f).twin = c.twin.paired p f := by
  have told (d : Card) (code : BitVec 6) (info : BitVec 24) : (d.notice code info).twin = d.twin := by simp
  have traced (d : Card) (bs : List Byte) : (d.ev 38 bs).twin = d.twin := by simp
  unfold Card.setPair
  dsimp only
  split
  · next h => rw [told, traced, Twin.paired, if_pos h]
  · next h => rw [traced, Twin.paired, if_neg h]

/-- A pair that does not become diverged is told to nobody. -/
theorem Card.setPair_quiet {c : Card} {p : BitVec 8} (f : Flight) (not : p = 3 → c.twin.pair = 3) :
    (c.setPair p f).out = c.out := by
  unfold Card.setPair
  dsimp only
  rw [if_neg (fun ⟨is, was⟩ => was (not is))]
  simp

/-- One that becomes diverged is told by TWIN-DIVERGED (R535). -/
theorem Card.setPair_told {c : Card} (f : Flight) (was : c.twin.pair ≠ 3) : (c.setPair 3 f).out =
    ({ c with twin := c.twin.paired 3 f }).noticeNow ntTwinDiverged (f.setWidth 24) ++ c.out := by
  unfold Card.setPair
  dsimp only
  rw [if_pos ⟨rfl, was⟩, Card.notice_out]
  obtain ⟨b, only⟩ := Card.ev_balconyOnly ({ c with twin := c.twin.paired 3 f }) 38 ([3] ++ leBytes 4 f.toNat)
  have is : ({ c with twin := c.twin.paired 3 f } : Card).ev 38 ([3] ++ leBytes 4 f.toNat) = _ := only
  unfold Twin.paired at is ⊢
  rw [is]
  rfl

/-! Verdicts in their order. -/

/-- With no burst stored, or the oldest wait's landing not ended, there is no verdict yet (R532). -/
theorem Card.judgeUp_stops {c : Card} (n : Nat)
    (h : c.twin.heard = [] ∨ ∀ v, c.twin.waits.head? = some v → v.ended = false) : c.judgeUp n = c := by
  unfold Card.judgeUp
  split
  · next m v r b bs waits heard =>
    rcases h with none | open_
    · rw [none] at heard
      cases heard
    · rw [open_ v (by rw [waits]; rfl), if_neg Bool.false_ne_true]
  · rfl

/-- The card with its oldest wait and oldest burst taken. -/
def Card.paired (c : Card) (r : List Verdict) (bs : List Burst) : Card :=
  { c with twin := { c.twin with waits := r, heard := bs, linkUp := c.twin.linkUp || c.twin.fresh } }

/-- The oldest wait's verdict by the oldest burst (R532 to R534). -/
def Card.verdict (c : Card) (b : Burst) (r : List Verdict) (bs : List Burst) : Card :=
  match sharedFlight c.flights.history b.digests with
  | some (x, y) => (c.paired r bs).setPair (if x.digest = y.digest then 1 else 3) x.flight
  | none => (c.paired r bs).setPair (if b.replay then 4 else 2) 0

theorem Card.judgeUp_verdict {c : Card} {v : Verdict} {r : List Verdict} {b : Burst} {bs : List Burst} (n : Nat)
    (waits : c.twin.waits = v :: r) (ended : v.ended = true) (heard : c.twin.heard = b :: bs) :
    c.judgeUp (n + 1) = (c.verdict b r bs).judgeUp n := by
  rw [Card.judgeUp.eq_1 c n v r b bs waits heard, if_pos ended]
  rfl

theorem Card.verdict_lists (c : Card) (b : Burst) (r : List Verdict) (bs : List Burst) :
    (c.verdict b r bs).twin.waits = r ∧ (c.verdict b r bs).twin.heard = bs ∧ (c.verdict b r bs).twin.fresh = false ∧
      (c.verdict b r bs).twin.linkUp = (c.twin.linkUp || c.twin.fresh) := by
  unfold Card.verdict
  split <;> rw [Card.setPair_twin] <;> exact ⟨rfl, rfl, rfl, rfl⟩

/-- Every verdict that can be reached is. -/
theorem Card.judgeUp_done (n : Nat) (c : Card) (enough : c.twin.waits.length ≤ n) :
    (c.judgeUp n).twin.waits = [] ∨ (c.judgeUp n).twin.heard = [] ∨
      ∃ v r, (c.judgeUp n).twin.waits = v :: r ∧ v.ended = false := by
  induction n generalizing c with
  | zero =>
    have none : c.twin.waits = [] := List.length_eq_zero_iff.mp (Nat.le_zero.mp enough)
    rw [Card.judgeUp_stops 0 (.inr (by simp [none]))]
    exact .inl none
  | succ n ih =>
    cases waits : c.twin.waits with
    | nil =>
      rw [Card.judgeUp_stops _ (.inr (by simp [waits]))]
      exact .inl waits
    | cons v r =>
      cases heard : c.twin.heard with
      | nil =>
        rw [Card.judgeUp_stops _ (.inl heard)]
        exact .inr (.inl heard)
      | cons b bs =>
        cases ended : v.ended with
        | false =>
          rw [Card.judgeUp_stops _ (.inr (by simp [waits, ended]))]
          exact .inr (.inr ⟨v, r, waits, ended⟩)
        | true =>
          rw [Card.judgeUp_verdict n waits ended heard]
          refine ih _ ?_
          rw [(c.verdict_lists b r bs).1]
          simpa [waits] using enough

/-- The next verdict alone, where the one after it cannot be reached. -/
theorem Card.judge_one {c : Card} {v : Verdict} {r : List Verdict} {b : Burst} {bs : List Burst}
    (waits : c.twin.waits = v :: r) (ended : v.ended = true) (heard : c.twin.heard = b :: bs)
    (last : bs = [] ∨ ∀ x, r.head? = some x → x.ended = false) : c.judge = c.verdict b r bs := by
  obtain ⟨waits', heard', -⟩ := c.verdict_lists b r bs
  rw [Card.judge, waits, List.length_cons, Card.judgeUp_verdict _ waits ended heard]
  refine Card.judgeUp_stops _ ?_
  rwa [waits', heard']

/-- A verdict as O58 states it. -/
theorem Card.verdict_frame (c : Card) (b : Burst) (r : List Verdict) (bs : List Burst) :
    (∀ x y, sharedFlight c.flights.history b.digests = some (x, y) →
      (c.verdict b r bs).twin.lastCompared = x.flight ∧
      (x.digest = y.digest → (c.verdict b r bs).twin.pair = 1 ∧ (c.verdict b r bs).out = c.out) ∧
      (x.digest ≠ y.digest → (c.verdict b r bs).twin.pair = 3 ∧
        (c.twin.pair = 3 → (c.verdict b r bs).out = c.out) ∧
        (c.twin.pair ≠ 3 → (c.verdict b r bs).twin.firstDiverged = x.flight ∧
          (c.verdict b r bs).out = ({ c with twin := (c.verdict b r bs).twin }).noticeNow ntTwinDiverged (x.flight.setWidth 24) ++
            c.out))) ∧
    (sharedFlight c.flights.history b.digests = none →
      (c.verdict b r bs).twin.pair = (if b.replay then 4 else 2) ∧ (c.verdict b r bs).out = c.out) := by
  refine ⟨fun x y shared => ?_, fun none => ?_⟩
  · have is : c.verdict b r bs = (c.paired r bs).setPair (if x.digest = y.digest then 1 else 3) x.flight := by
      simp only [Card.verdict, shared]
    by_cases same : x.digest = y.digest
    · rw [if_pos same] at is
      rw [is, Card.setPair_twin]
      exact ⟨rfl, fun _ => ⟨rfl, Card.setPair_quiet x.flight (fun h => absurd h (by decide))⟩, fun other => absurd same other⟩
    · rw [if_neg same] at is
      rw [is]
      have twin := (c.paired r bs).setPair_twin 3 x.flight
      refine ⟨by rw [twin]; rfl, fun same' => absurd same' same, fun _ => ⟨by rw [twin]; rfl, fun was => ?_, fun was => ⟨?_, ?_⟩⟩⟩
      · exact Card.setPair_quiet x.flight (fun _ => was)
      · rw [twin]
        exact if_pos ⟨rfl, was⟩
      · rw [Card.setPair_told (c := c.paired r bs) x.flight was, twin]
        rfl
  · have is : c.verdict b r bs = (c.paired r bs).setPair (if b.replay then 4 else 2) 0 := by
      simp only [Card.verdict, none]
    rw [is, Card.setPair_twin]
    have other : (if b.replay then 4 else 2 : BitVec 8) ≠ 3 := by cases b.replay <;> decide
    exact ⟨rfl, Card.setPair_quiet 0 (fun h => absurd h other)⟩

/-! Messages from the partner. -/

/-- A run's twin state and what it sends are its function's. -/
theorem run_twin (f : Card → Card) (s : State) : ∃ t, run f s = .next t ∧ t.card.twin = (f s.card).twin ∧
    t.card.out = (f s.card).out ∧ KV.getD t.card.bal.counts 88 0 = KV.getD (f s.card).bal.counts 88 0 := by
  obtain ⟨t, next, ⟨b, only⟩, counts⟩ := run_counts f s
  exact ⟨t, next, by rw [only], by rw [only], counts 88 (by decide)⟩

theorem leNat_lt (l : List Byte) : leNat l < 256 ^ l.length := by
  induction l with
  | nil => decide
  | cons b l ih =>
    have low := b.isLt
    rw [leNat, List.length_cons, Nat.pow_succ]
    omega

/-- Four bytes make a number of 32 bits. -/
theorem fieldAt_lt (bs : List Byte) (k : Nat) : fieldAt bs k 4 < 2 ^ 32 :=
  calc fieldAt bs k 4 < 256 ^ ((bs.drop k).take 4).length := leNat_lt _
    _ ≤ 256 ^ 4 := Nat.pow_le_pow_right (by decide) (List.length_take_le _ _)
    _ = 2 ^ 32 := by decide

theorem Card.judge_idle {c : Card} (waits : c.twin.waits = []) : c.judge = c :=
  Card.judgeUp_stops _ (.inr (by simp [waits]))

theorem Card.storeBurst_idle {c : Card} (b : Burst) (waits : c.twin.waits = []) :
    c.storeBurst b = { c with twin := { c.twin with heard := c.twin.heard ++ [b], burst := none } } :=
  Card.judge_idle (c := { c with twin := { c.twin with heard := c.twin.heard ++ [b], burst := none } }) waits

/-- A partner's HELLO, with no landing waiting for a verdict (R535 to R537). -/
theorem Card.greet_frame {c : Card} (bs : List Byte) (waits : c.twin.waits = []) : (c.greet bs).out = c.out ∧
    (c.greet bs).twin.linkUp = (c.twin.linkUp || !c.twin.fresh) ∧
    (c.greet bs).twin.partner = some (BitVec.ofNat 32 (fieldAt bs 8 4)) ∧
    ∀ p, c.twin.partner = some p → p.toNat ≠ fieldAt bs 8 4 → (c.greet bs).twin.replayDue = true := by
  have other (p : BitVec 32) (h : p.toNat ≠ fieldAt bs 8 4) : (p != BitVec.ofNat 32 (fieldAt bs 8 4)) = true := by
    rw [bne_iff_ne]
    rintro rfl
    rw [BitVec.toNat_ofNat, Nat.mod_eq_of_lt (fieldAt_lt bs 8)] at h
    exact h rfl
  unfold Card.greet
  dsimp only
  split
  · rw [Card.storeBurst_idle _ (by exact waits)]
    refine ⟨rfl, rfl, rfl, fun p heard differs => ?_⟩
    simp [heard, other p differs]
  · refine ⟨rfl, rfl, rfl, fun p heard differs => ?_⟩
    simp [heard, other p differs]

theorem helloRow {s : State} (hears : s.card.hearsTwin = true) (bs : List Byte) :
    let serial := fieldAt bs 8 4
    let own : Nat := if s.card.straps.role = .twinA then 1 else 2
    let counted (t : State) : Prop :=
      KV.getD t.card.bal.counts 88 0 = (KV.getD s.card.bal.counts 88 0 + 1) % 2 ^ 32
    ∃ t, exec (.twinHello bs) s = .next t ∧
      (twinOk 0x01 20 bs = false ∨ serial = s.card.serialCrc.toNat → t.card.twin = s.card.twin ∧ counted t) ∧
      (twinOk 0x01 20 bs = true → serial ≠ s.card.serialCrc.toNat → (bs.getD 1 0).toNat = own →
        t.card.twin = { s.card.twin with linkUp := false } ∧ counted t) ∧
      (twinOk 0x01 20 bs = true → serial ≠ s.card.serialCrc.toNat → (bs.getD 1 0).toNat ≠ own →
        s.card.twin.waits = [] →
        t.card.out = s.card.out ∧ t.card.twin.linkUp = (s.card.twin.linkUp || !s.card.twin.fresh) ∧
        t.card.twin.partner = some (BitVec.ofNat 32 serial) ∧
        (∀ p, s.card.twin.partner = some p → p.toNat ≠ serial → t.card.twin.replayDue = true)) := by
  intro serial own counted
  obtain ⟨t, next, twin, out, count⟩ := run_twin (fun c => c.hello bs) s
  have counts (c : Card) : KV.getD (c.bump 88 1).bal.counts 88 0 = (KV.getD c.bal.counts 88 0 + 1) % 2 ^ 32 :=
    c.count_bump_same 1 (by decide)
  have code : (bs.getD 1 0 = if s.card.straps.role = .twinA then 1 else 2) ↔ (bs.getD 1 0).toNat = own := by
    rw [← BitVec.toNat_inj]
    dsimp only [own]
    split <;> rfl
  have unfolded : s.card.hello bs =
      if !twinOk 0x01 20 bs || fieldAt bs 8 4 == s.card.serialCrc.toNat then s.card.bump 88 1
      else if bs.getD 1 0 = (if s.card.straps.role = .twinA then 1 else 2) then
        ({ s.card with twin := { s.card.twin with linkUp := false } }).bump 88 1
      else s.card.greet bs := by
    rw [Card.hello, hears]
    rfl
  refine ⟨t, next, fun bad => ?_, fun good other clash => ?_, fun good other partner waits => ?_⟩
  · rw [if_pos (by simpa [serial] using bad)] at unfolded
    rw [unfolded] at twin count
    exact ⟨twin, count.trans (counts _)⟩
  all_goals rw [good, Bool.not_true, Bool.false_or, if_neg (by simpa [serial] using other)] at unfolded
  · rw [if_pos (code.mpr clash)] at unfolded
    rw [unfolded] at twin count
    exact ⟨twin, count.trans (counts _)⟩
  · rw [if_neg (fun h => partner (code.mp h))] at unfolded
    rw [unfolded] at twin out
    obtain ⟨quiet, up, heard, replay⟩ := Card.greet_frame bs waits
    rw [twin]
    exact ⟨out.trans quiet, up, heard, replay⟩

theorem digestRow {s : State} (hears : s.card.hearsTwin = true) (bs : List Byte) {b : Burst} (burst : s.card.twin.burst = some b)
    (open_ : b.left = none) (waits : s.card.twin.waits = []) :
    ∃ t, exec (.twinDigest bs) s = .next t ∧
      (twinOk 0x02 24 bs = false → t.card.twin = s.card.twin ∧
        KV.getD t.card.bal.counts 88 0 = (KV.getD s.card.bal.counts 88 0 + 1) % 2 ^ 32) ∧
      (twinOk 0x02 24 bs = true → (bs.getD 1 0).getLsbD 0 = false → t.card.twin.burst = none ∧
        t.card.twin.heard = s.card.twin.heard ++ [{ b with digests := b.digests ++ [digestOfBytes bs] }]) ∧
      (twinOk 0x02 24 bs = true → (bs.getD 1 0).getLsbD 0 = true → t.card.twin.heard = s.card.twin.heard ∧
        t.card.twin.burst = some { b with digests := b.digests ++ [digestOfBytes bs] }) := by
  obtain ⟨t, next, twin, -, count⟩ := run_twin (fun c => c.digestMsg bs) s
  have unfolded : s.card.digestMsg bs = if !twinOk 0x02 24 bs then s.card.bump 88 1 else s.card.joinDigest b bs := by
    rw [Card.digestMsg, hears, burst]
    rfl
  have join : s.card.joinDigest b bs =
      if (bs.getD 1 0).getLsbD 0 then
        { s.card with twin := { s.card.twin with burst := some { b with digests := b.digests ++ [digestOfBytes bs] } } }
      else s.card.storeBurst { b with digests := b.digests ++ [digestOfBytes bs] } := by
    unfold Card.joinDigest
    simp only [open_]
  refine ⟨t, next, fun bad => ?_, fun good last => ?_, fun good more => ?_⟩
  · rw [if_pos (by rw [bad]; rfl)] at unfolded
    rw [unfolded] at twin count
    exact ⟨twin, count.trans (s.card.count_bump_same 1 (by decide))⟩
  all_goals rw [good, Bool.not_true, if_neg Bool.false_ne_true, join] at unfolded
  · rw [last, if_neg Bool.false_ne_true, Card.storeBurst_idle _ waits] at unfolded
    rw [unfolded] at twin
    rw [twin]
    exact ⟨rfl, rfl⟩
  · rw [more, if_pos rfl] at unfolded
    rw [unfolded] at twin
    rw [twin]
    exact ⟨rfl, rfl⟩

theorem waitExpiryRow {s : State} (hears : s.card.hearsTwin = true) {v : Verdict} {r : List Verdict}
    (waits : s.card.twin.waits = v :: r) : ∃ t, exec .twinWaitExpiry s = .next t ∧ t.card.twin.waits = r ∧
      t.card.twin.linkUp = false ∧ t.card.twin.replayDue = true ∧ t.card.twin.pair = 2 ∧ t.card.out = s.card.out := by
  obtain ⟨t, next, twin, out, -⟩ := run_twin Card.waitExpiry s
  have hclk : s.card.power.hclk = true := by
    unfold Card.hearsTwin at hears
    simp only [Bool.and_eq_true] at hears
    exact hears.1.2
  have unfolded : s.card.waitExpiry =
      ({ s.card with twin := { s.card.twin with waits := r, linkUp := false, replayDue := true } }).setPair 2 0 := by
    unfold Card.waitExpiry
    simp only [waits, hclk, if_true]
  rw [unfolded] at twin out
  rw [Card.setPair_twin] at twin
  exact ⟨t, next, by rw [twin]; rfl, by rw [twin]; rfl, by rw [twin]; rfl, by rw [twin]; rfl,
    out.trans (Card.setPair_quiet 0 (fun h => absurd h (by decide)))⟩

/-- Settles O58: each message by its checks, the verdicts by what their landing and burst share. -/
theorem twinRules : Obligations.TwinRules := by
  unfold Obligations.TwinRules
  refine ⟨fun s hears => ⟨fun bs => helloRow hears bs, fun bs b burst left waits => digestRow hears bs burst left waits,
    fun v r waits => waitExpiryRow hears waits⟩, fun c => Card.judgeUp_done _ c le_rfl,
    fun c v r b bs waits ended heard last => ?_⟩
  rw [Card.judge_one waits ended heard last]
  obtain ⟨waits', heard', fresh, up⟩ := c.verdict_lists b r bs
  exact ⟨waits', heard', fresh, up, c.verdict_frame b r bs⟩

end Sys2Proof.Machine

/-! What work on dies, queues and positions leaves of the dies' condition, of the patrol visit and of the read jobs. -/

namespace Sys2Proof.Machine

open Sys2Proof

/-! Dies and their queues (R432, R433, R439). -/

/-- What of a die no descriptor changes: the report it keeps, its fence, its heat. -/
def Die.mark (d : Die) : Option DieReport × Bool × HeatStage := (d.late, d.fenced, d.heat)

/-- Work on the dies and their queues alone, which leaves each die's condition. -/
structure DieWork (c d : Card) : Prop where
  only : ∃ q k ds b, d = { c with halls := { c.halls with queues := q, back := k, dies := ds }, bal := b }
  mark : ∀ n, (d.die n).mark = (c.die n).mark

theorem DieWork.refl (c : Card) : DieWork c c := ⟨⟨_, _, _, _, rfl⟩, fun _ => rfl⟩

theorem DieWork.trans {c d e : Card} (h : DieWork c d) (k : DieWork d e) : DieWork c e := by
  obtain ⟨⟨_, _, _, _, is⟩, mark⟩ := h
  obtain ⟨⟨_, _, _, _, is'⟩, mark'⟩ := k
  exact ⟨⟨_, _, _, _, by rw [is', is]⟩, fun n => (mark' n).trans (mark n)⟩

theorem DieWork.foldl {α : Type} {f : Card → α → Card} (h : ∀ c x, DieWork c (f c x)) (l : List α) (c : Card) :
    DieWork c (l.foldl f c) := by
  induction l generalizing c with
  | nil => exact .refl c
  | cons x l ih => exact (h c x).trans (ih _)

theorem DieWork.of_balcony {c d : Card} (h : BalconyOnly c d) : DieWork c d := by
  obtain ⟨b, rfl⟩ := h
  exact ⟨⟨_, _, _, _, rfl⟩, fun _ => rfl⟩

theorem Card.die_setDie (c : Card) (n m : Nat) (v : Die) : (c.setDie n v).die m = if m = n then v else c.die m := by
  unfold Card.setDie Card.die
  split
  · next h =>
    subst h
    exact KV.getD_put_same _ _ _ _
  · next h => exact KV.getD_put_other _ _ _ h

theorem Card.setDie_work (c : Card) {n : Nat} {v : Die} (same : v.mark = (c.die n).mark) : DieWork c (c.setDie n v) := by
  refine ⟨⟨_, _, _, _, rfl⟩, fun m => ?_⟩
  rw [Card.die_setDie]
  split
  · next h => rw [h, same]
  · rfl

theorem Card.setQueue_work (c : Card) (h : Nat) (q : List Desc) : DieWork c (c.setQueue h q) :=
  ⟨⟨_, _, _, _, rfl⟩, fun _ => rfl⟩

theorem Card.setBack_work (c : Card) (h : Nat) (q : List Desc) : DieWork c (c.setBack h q) :=
  ⟨⟨_, _, _, _, rfl⟩, fun _ => rfl⟩

theorem Card.setStage_work (c : Card) (n : Nat) (s : EraseStage) : DieWork c (c.setStage n s) := by
  unfold Card.setStage
  split
  · exact c.setDie_work rfl
  · exact .refl c

theorem Card.complete_work (c : Card) (d : Desc) (code : DescCode) : DieWork c (c.complete d code) :=
  .of_balcony (c.complete_balconyOnly d code)

/-- SUSPEND and RESUME change an erase's stage alone. -/
theorem Card.issue_work (c : Card) (n : Nat) : DieWork c (c.issue (.suspend n)) ∧ DieWork c (c.issue (.resume n)) :=
  ⟨c.setStage_work n _, (c.setStage_work n _).trans (Card.complete_work _ _ _)⟩

theorem Card.startDesc_work (c : Card) (n : Nat) (d : Desc) : DieWork c (c.startDesc n d) := by
  unfold Card.startDesc
  dsimp only
  split
  · exact (c.setQueue_work _ _).trans (Card.setDie_work _ rfl)
  · exact (c.setQueue_work _ _).trans (Card.setDie_work _ rfl)

theorem Card.pumpOne_work (c : Card) (n : Nat) : DieWork c (c.pumpOne n) := by
  unfold Card.pumpOne
  dsimp only
  split
  · exact .refl c
  · split
    · exact c.startDesc_work _ _
    · split
      · exact c.startDesc_work _ _
      · exact .refl c
      · split
        · exact .refl c
        · exact (c.issue_work n).1
    · split
      · exact (c.issue_work n).2
      · exact .refl c
    · exact .refl c

theorem Card.pump_work (c : Card) (n : Nat) : DieWork c (c.pump n) := (c.pumpOne_work n).trans (Card.pumpOne_work _ n)

theorem Card.pumpAll_work (c : Card) : DieWork c c.pumpAll := .foldl Card.pump_work _ c

theorem Card.enqueue_work (c : Card) (d : Desc) : DieWork c (c.enqueue d) := by
  unfold Card.enqueue
  dsimp only
  split
  · exact (c.setQueue_work _ _).trans (Card.pump_work _ _)
  · exact c.setBack_work _ _

/-! Positions taken and programs issued (R428 to R430, R608, R609). -/

/-- What taking positions leaves: the dies' condition, the patrol visit, the read jobs there are. -/
structure Placing (c d : Card) : Prop where
  mark : ∀ n, (d.die n).mark = (c.die n).mark
  visit : d.maint.visit = c.maint.visit
  ids : c.halls.nextId ≤ d.halls.nextId
  jobs : ∀ x < c.halls.nextId, KV.find d.halls.jobs x = KV.find c.halls.jobs x

theorem Placing.refl (c : Card) : Placing c c := ⟨fun _ => rfl, rfl, le_rfl, fun _ _ => rfl⟩

theorem Placing.trans {c d e : Card} (h : Placing c d) (k : Placing d e) : Placing c e :=
  ⟨fun n => (k.mark n).trans (h.mark n), k.visit.trans h.visit, h.ids.trans k.ids,
    fun x low => (k.jobs x (low.trans_le h.ids)).trans (h.jobs x low)⟩

theorem Placing.foldl {α : Type} {f : Card → α → Card} (h : ∀ c x, Placing c (f c x)) (l : List α) (c : Card) :
    Placing c (l.foldl f c) := by
  induction l generalizing c with
  | nil => exact .refl c
  | cons x l ih => exact (h c x).trans (ih _)

/-- Work that leaves the halls and the patrol visit. -/
theorem Placing.of_halls {c d : Card} (halls : d.halls = c.halls) (visit : d.maint.visit = c.maint.visit) : Placing c d :=
  ⟨fun n => by rw [Card.die, Card.die, halls], visit, by rw [halls], fun x _ => by rw [halls]⟩

/-- Such work first, then more. -/
theorem Placing.after {c d e : Card} (k : Placing d e) (halls : d.halls = c.halls) (visit : d.maint.visit = c.maint.visit) :
    Placing c e := (Placing.of_halls halls visit).trans k

theorem DieWork.placing {c d : Card} (h : DieWork c d) : Placing c d := by
  obtain ⟨⟨_, _, _, _, rfl⟩, mark⟩ := h
  exact ⟨mark, rfl, le_rfl, fun _ _ => rfl⟩

theorem Card.noteActs_placing (c : Card) : Placing c c.noteActs := by
  refine .foldl (fun c a => ?_) _ _
  split
  · split
    · refine .of_halls ?_ ?_ <;> unfold Card.noteIssued <;> dsimp only <;> split <;> simp
    · exact .refl c
  · exact .refl c

theorem Card.issueProgram_placing (c : Card) (k : Nat) : Placing c (c.issueProgram k) := by
  unfold Card.issueProgram
  dsimp only
  split
  · exact .refl c
  · split
    · exact (Card.enqueue_work _ _).placing.after rfl rfl
    · exact (Card.enqueue_work _ _).placing

theorem Card.evalMarks_placing (c : Card) : Placing c c.evalMarks := by
  have cross (d : Card) (old new mark code : Nat) : Placing d (d.crossMark old new mark code) := by
    unfold Card.crossMark
    split
    · exact .of_halls (by simp) (by simp)
    · split
      · exact .of_halls (by simp) (by simp)
      · exact .refl d
  unfold Card.evalMarks
  exact (((cross _ _ _ _ _).trans (cross _ _ _ _ _)).trans (cross _ _ _ _ _)).after rfl rfl

theorem Card.lodge_placing (c : Card) (o : OpenWing) (g : Gallery) (b : Bay) : Placing c (c.lodge o g b) := by
  have lodged : Placing c ({ c with media := { c.media with vest := KV.put c.media.vest b.key b } } : Card).evalMarks :=
    (Card.evalMarks_placing _).after rfl rfl
  unfold Card.lodge
  dsimp only
  split
  · split
    · exact lodged.trans (Card.issueProgram_placing _ _)
    · exact lodged
  · exact lodged

theorem Card.setOpen_placing (c : Card) (o : OpenWing) : Placing c (c.setOpen o) := .of_halls rfl rfl

theorem Card.takeHall_placing (c : Card) (o : OpenWing) (g : Gallery) (h : Nat) (b : Bay) :
    Placing c (c.takeHall o g h b) := (c.setOpen_placing _).trans (Card.lodge_placing _ _ _ _)

theorem Card.assignIn_placing (c : Card) (w : Nat) (b : Bay) : Placing c (c.assignIn w b).1 := by
  unfold Card.assignIn
  split
  · exact .refl c
  · split
    · exact .refl c
    · split
      · exact .refl c
      · exact (c.setOpen_placing _).trans (Card.takeHall_placing _ _ _ _ _)

theorem Card.addOwn_placing (c : Card) (w : Nat) (g : Gallery) (h : Nat) (kind : BayKind) (body : Body) :
    Placing c (c.addOwn w g h kind body) := by
  unfold Card.addOwn
  split
  · exact .refl c
  · exact ((Card.setOpen_placing _ _).trans (Card.lodge_placing _ _ _ _)).after rfl rfl

theorem Card.ensureOpen_placing (c : Card) (user : Bool) : Placing c (c.ensureOpen user) := by
  unfold Card.ensureOpen
  split
  · split
    · refine .of_halls ?_ ?_ <;> simp [Card.openWing]
    · exact .refl c
  · exact .refl c

/-! Read jobs begun (R433, R468, R473). -/

theorem Card.startKid_placing (c : Card) (parent : Nat) (mask : BitVec 16) (k : Nat) : Placing c (c.startKid parent mask k) := by
  unfold Card.startKid
  have own (j : ReadJob) : Placing c (c.newId.1.putJob c.halls.nextId j) :=
    ⟨fun _ => rfl, rfl, Nat.le_succ _, fun x low => KV.find_put_other _ _ (Nat.ne_of_lt low)⟩
  exact (own _).trans (Card.enqueue_work _ _).placing

theorem Card.markRefresh_placing (c : Card) (w trigger : Nat) : Placing c (c.markRefresh w trigger) := by
  unfold Card.markRefresh
  dsimp only
  split
  · exact .refl c
  · exact .of_halls (by simp) (by simp)

theorem Card.markRead_placing (c : Card) (j : ReadJob) : Placing c (c.markRead j) := by
  unfold Card.markRead
  split
  · exact .refl c
  · exact .refl c
  · exact c.markRefresh_placing _ _

/-- A rebuild leaves the jobs but its own. -/
theorem Card.startRebuild_jobs (c : Card) (id : Nat) (j : ReadJob) :
    (∀ n, ((c.startRebuild id j).die n).mark = (c.die n).mark) ∧ (c.startRebuild id j).maint.visit = c.maint.visit ∧
      c.halls.nextId ≤ (c.startRebuild id j).halls.nextId ∧
      ∀ x < c.halls.nextId, x ≠ id → KV.find (c.startRebuild id j).halls.jobs x = KV.find c.halls.jobs x := by
  have counted : Placing c ((c.bump 58 1).markRead j) :=
    (Card.markRead_placing _ j).after rfl rfl
  have put (d : Card) (h : Placing c d) (v : ReadJob) (e : Card) (k : Placing (d.putJob id v) e) :
      (∀ n, (e.die n).mark = (c.die n).mark) ∧ e.maint.visit = c.maint.visit ∧ c.halls.nextId ≤ e.halls.nextId ∧
        ∀ x < c.halls.nextId, x ≠ id → KV.find e.halls.jobs x = KV.find c.halls.jobs x := by
    refine ⟨fun n => (k.mark n).trans (h.mark n), k.visit.trans h.visit, h.ids.trans k.ids, fun x low other => ?_⟩
    rw [k.jobs x (low.trans_le h.ids)]
    exact (KV.find_put_other _ _ other).trans (h.jobs x low)
  unfold Card.startRebuild
  dsimp only
  split
  · refine put _ (counted.trans (.of_halls ?_ ?_)) _ _ (.refl _) <;> simp [Card.traceStep]
  · exact put _ counted _ _ (.foldl (fun c k => c.startKid_placing _ _ k) _ _)

theorem Card.startJob_placing (c : Card) (k : Nat) (p : Purpose) (strict : Bool) : Placing c (c.startJob k p strict) := by
  have own (j : ReadJob) : Placing c (c.newId.1.putJob c.halls.nextId j) :=
    ⟨fun _ => rfl, rfl, Nat.le_succ _, fun x low => KV.find_put_other _ _ (Nat.ne_of_lt low)⟩
  have rebuilt (j : ReadJob) : Placing c (c.newId.1.startRebuild c.halls.nextId j) := by
    obtain ⟨mark, visit, ids, jobs⟩ := c.newId.1.startRebuild_jobs c.halls.nextId j
    exact ⟨mark, visit, (Nat.le_succ _).trans ids, fun x low => jobs x (low.trans (Nat.lt_succ_self _)) (Nat.ne_of_lt low)⟩
  unfold Card.startJob
  dsimp only
  split
  · split
    · exact own _
    · exact rebuilt _
  · exact (own _).trans (Card.enqueue_work _ _).placing

/-! Galleries and wings. -/

theorem Card.release_placing (c : Card) (ks : List Nat) : Placing c (c.release ks) := .of_halls rfl rfl

theorem Card.startGallery_placing (c : Card) (w : Nat) (g : Gallery) : Placing c (c.startGallery w g) :=
  (Placing.foldl (fun c _ => c.issueProgram_placing _) _ _).trans (Card.noteActs_placing _)

theorem Card.closeWing_placing (c : Card) (w : Nat) : Placing c (c.closeWing w) :=
  .of_halls (by simp [Card.closeWing]) (by simp [Card.closeWing])

theorem Card.leaveGallery_placing (c : Card) (w : Nat) : Placing c (c.leaveGallery w) := by
  unfold Card.leaveGallery
  dsimp only
  split
  · exact .refl c
  · split
    · exact .refl c
    · split
      · split
        · exact (Card.closeWing_placing _ _).after rfl rfl
        · exact (Card.setOpen_placing _ _).after rfl rfl
      · exact ((Card.setOpen_placing _ _).trans (Card.startGallery_placing _ _ _)).after rfl rfl

theorem Card.leaveBare_placing (c : Card) (w cause : Nat) : Placing c (c.leaveBare w cause) := by
  unfold Card.leaveBare
  split
  · exact .refl c
  · exact (Card.leaveGallery_placing _ _).after rfl rfl

theorem Card.tryParity_placing (c : Card) (w : Nat) : Placing c (c.tryParity w) := by
  unfold Card.tryParity
  dsimp only
  split
  · exact .refl c
  · split
    · exact .refl c
    · split
      · exact .refl c
      · split
        · exact c.addOwn_placing _ _ _ _ _
        · split
          · exact .refl c
          · split
            · exact c.leaveBare_placing w 2
            · exact c.addOwn_placing _ _ _ _ _

theorem Card.fillGallery_placing (c : Card) (w n : Nat) : Placing c (c.fillGallery w n) := by
  refine .foldl (fun c h => ?_) _ _
  split
  · split
    · exact c.addOwn_placing _ _ _ _ _
    · exact .refl c
  · exact .refl c

theorem Card.fillTo_placing (c : Card) (w n : Nat) : Placing c (c.fillTo w n) := by
  unfold Card.fillTo
  split
  · exact .refl c
  · exact (Placing.foldl (fun c g => c.fillGallery_placing w _) _ _).trans (Card.tryParity_placing _ w)

theorem Card.continueWing_placing (c : Card) (w : Nat) : Placing c (c.continueWing w) := by
  unfold Card.continueWing Card.fillWing
  dsimp only
  split
  · exact .refl c
  · split
    · split
      · exact ((c.setOpen_placing _).trans (.foldl (fun c h => c.startJob_placing _ _ _) _ _)).trans
          (Card.fillTo_placing _ w 383)
      · exact c.setOpen_placing _
    · exact .refl c

theorem Card.prepare_placing (c : Card) (user : Bool) (n : Nat) : Placing c (c.prepare user n) := by
  induction n generalizing c with
  | zero => exact .refl c
  | succ k ih =>
    have opened := c.ensureOpen_placing user
    unfold Card.prepare
    dsimp only
    split
    · split
      · exact (opened.trans (Card.continueWing_placing _ _)).trans (ih _)
      · exact opened
    · exact opened

theorem Card.draw_placing (c : Card) (user : Bool) (kind : BayKind) (k : Nat) : Placing c (c.draw user kind k) := by
  unfold Card.draw
  split
  · exact .refl c
  · exact .of_halls rfl rfl

/-- Taking a position for a bay (R430). -/
theorem Card.place_placing (c : Card) (user fresh : Bool) (b : Bay) : Placing c (c.place user fresh b).1 := by
  have key (d : Card) (w : Nat) (b : Bay) (h : Placing c d) :
      Placing c (match ({ d with media := { d.media with lastWing := some w } } : Card).assignIn w b with
        | (c, some k) => (c.draw user b.kind k, some k)
        | (c, none) => ((c, none) : Card × Option Nat)).1 := by
    have taken : Placing c (({ d with media := { d.media with lastWing := some w } } : Card).assignIn w b).1 :=
      h.trans ((Card.assignIn_placing _ w b).after rfl rfl)
    split
    · next e =>
      rw [e] at taken
      exact taken.trans (Card.draw_placing _ _ _ _)
    · next e =>
      rw [e] at taken
      exact taken
  have ready := c.prepare_placing user 4
  unfold Card.place
  dsimp only
  split
  · exact .refl c
  · split
    · exact ready
    · cases fresh
      · exact key _ _ _ ready
      · exact key _ _ _ (ready.trans (.of_halls rfl rfl))

theorem Card.placeMark_placing (c : Card) (x : HeldMark × Nat) : Placing c (c.placeMark x) := by
  have placed := c.place_placing false true (newBay .mark 0 0 x.2 (.mark x.1.value x.1.tread))
  unfold Card.placeMark Card.placeNew
  split
  · next e =>
    rw [e] at placed
    exact placed
  · exact .of_halls rfl rfl

theorem Card.placeDue_placing (c : Card) : Placing c c.placeDue := by
  unfold Card.placeDue
  split
  · exact .refl c
  · exact (Placing.foldl Card.placeMark_placing _ _).after rfl rfl

theorem Card.placeAll_placing {user : Bool} {bs : List Bay} {c d : Card} {ks : List Nat}
    (h : c.placeAll user bs = some (d, ks)) : Placing c d := by
  induction bs generalizing c ks with
  | nil =>
    obtain ⟨rfl, -⟩ := Prod.mk.inj (Option.some.inj h)
    exact .refl c
  | cons b r ih =>
    have placed := c.place_placing user true b
    rw [Card.placeAll, Card.placeNew] at h
    split at h
    · cases h
    · next e =>
      rw [e] at placed
      split at h
      · next rest =>
        obtain ⟨rfl, -⟩ := Prod.mk.inj (Option.some.inj h)
        exact placed.trans (ih rest)
      · cases h

theorem Card.completeRange_placing (c : Card) (lo hi : Nat) : Placing c (c.completeRange lo hi) :=
  .foldl (fun c _ => c.fillTo_placing _ _) _ _

theorem Card.stepAct_placing (c : Card) (a : Action) : Placing c (c.stepAct a) := by
  have staged (d : Card) (a : Action) : Placing d (d.setAct a) := .of_halls rfl rfl
  unfold Card.stepAct
  split
  · split
    · exact staged _ _
    · split
      · split
        · next e => exact ((Card.placeAll_placing e).trans (Card.completeRange_placing _ _ _)).trans (staged _ _)
        · exact .refl c
      · exact .refl c
  · split
    · exact .refl c
    · exact c.completeRange_placing _ _
  · exact .refl c
  · exact .refl c

/-- Landings, rollbacks and MARKs that go on (R357, R379). -/
theorem Card.stepActs_placing (c : Card) : Placing c c.stepActs :=
  c.placeDue_placing.trans (.foldl Card.stepAct_placing _ _)

/-! Images that get a position (R428, R609). -/

theorem Card.awaitHome_placing (c : Card) (x : Homeless) : Placing c (c.awaitHome x) := .of_halls rfl rfl

theorem Card.supersede_placing (c : Card) (k : Nat) : Placing c (c.supersede k) := by
  unfold Card.supersede
  split
  · exact .of_halls rfl rfl
  · exact .refl c

theorem Card.traceRedrive_placing (c : Card) (cause k n : Nat) : Placing c (c.traceRedrive cause k n) :=
  .of_halls (by simp [Card.traceRedrive]) (by simp [Card.traceRedrive])

theorem Card.rekey_placing (c : Card) (old new : Nat) : Placing c (c.rekey old new) :=
  ⟨fun _ => rfl, rfl, le_rfl, fun _ _ => rfl⟩

theorem Card.redrive_placing (c : Card) (k cause : Nat) : Placing c (c.redrive k cause) := by
  unfold Card.redrive
  split
  · exact .refl c
  · next b _ =>
    have placed := (c.release [k]).place_placing (c.isUser k b) false { b with reloc := false }
    split
    · next e =>
      rw [e] at placed
      exact ((((((c.release_placing [k]).trans placed).trans (Card.rekey_placing _ _ _)).trans
        (Card.supersede_placing _ _)).trans (Card.pump_work _ _).placing).trans (Card.noteActs_placing _)).trans
        (Card.traceRedrive_placing _ _ _ _)
    · exact c.awaitHome_placing _

theorem Card.addMove_placing (c : Card) (m : Move) : Placing c { c.newId.1 with
    halls := { c.newId.1.halls with moves := KV.put c.newId.1.halls.moves c.newId.2 m } } :=
  ⟨fun _ => rfl, rfl, Nat.le_succ _, fun _ _ => rfl⟩

theorem Card.recopy_placing (c : Card) (cause k : Nat) : Placing c (c.recopy cause k) := by
  unfold Card.recopy
  split
  · exact .refl c
  · next b _ =>
    have placed := c.place_placing (c.isUser k b) false { b with reloc := false }
    split
    · split
      · next d n e =>
        rw [e] at placed
        exact ((placed.trans (d.addMove_placing _)).trans (Card.pump_work _ _).placing).trans
          (Card.traceRedrive_placing _ _ _ _)
      · exact c.awaitHome_placing _
    · exact .refl c

theorem Card.rehome_placing (c : Card) : Placing c c.rehome := by
  unfold Card.rehome
  refine Placing.after (.trans (.foldl (fun c x => ?_) _ _) (.foldl (fun c x => ?_) _ _)) rfl rfl
  · split
    · exact c.recopy_placing _ _
    · exact c.redrive_placing _ _
  · unfold Card.releaseBare
    split
    · exact .refl c
    · exact c.release_placing _

end Sys2Proof.Machine

/-! What a service window lets the card do: erases, relocations, patrol (R447 to R451, R466, R467, R470 to R472). -/

namespace Sys2Proof.Machine

open Sys2Proof

theorem BalconyOnly.work {c d : Card} (h : BalconyOnly c d) : d.halls = c.halls ∧ d.media = c.media ∧ d.maint = c.maint := by
  obtain ⟨b, rfl⟩ := h
  exact ⟨rfl, rfl, rfl⟩

/-! Wing erases (R450). -/

/-- The wing is being erased. -/
def Card.erasing (c : Card) (w : Nat) : Prop := (KV.find c.halls.erases w).isSome = true ∧ (c.wing w).state = .erasing

theorem Card.erasing_congr {c d : Card} (erases : d.halls.erases = c.halls.erases) (media : d.media = c.media) {w : Nat}
    (h : c.erasing w) : d.erasing w := by
  unfold Card.erasing Card.wing at h ⊢
  rwa [erases, media]

theorem DieWork.fields {c d : Card} (h : DieWork c d) : d.halls.erases = c.halls.erases ∧ d.halls.moves = c.halls.moves ∧
    d.media = c.media ∧ d.maint = c.maint := by
  obtain ⟨⟨_, _, _, _, rfl⟩, -⟩ := h
  exact ⟨rfl, rfl, rfl, rfl⟩

/-- A wing whose erase begins, or that is being erased, is being erased. -/
theorem Card.startErase_erasing (c : Card) (v : Nat) (o : EraseOwner) {w : Nat} (h : w = v ∨ c.erasing w) :
    (c.startErase v o).erasing w := by
  unfold Card.startErase
  dsimp only
  obtain ⟨erases, -, media, -⟩ := DieWork.fields (DieWork.foldl (fun (c : Card) (i : Nat) => c.enqueue_work (.erase v i))
    (allHalls.filter (fun h => !(c.missingOf v).contains h)) { c.setWing v { c.wing v with state := .erasing } with
      halls := { (c.setWing v { c.wing v with state := .erasing }).halls with
        erases := KV.put (c.setWing v { c.wing v with state := .erasing }).halls.erases v
          { left := allHalls.filter (fun h => !(c.missingOf v).contains h), failed := false, owner := o } } })
  refine Card.erasing_congr erases media ?_
  by_cases own : w = v
  · subst own
    exact ⟨by simp [KV.find_put_same], congrArg Wing.state (KV.getD_put_same _ _ _ _)⟩
  · obtain ⟨listed, state⟩ := h.resolve_left own
    refine ⟨(congrArg Option.isSome (KV.find_put_other _ _ own)).trans listed, ?_⟩
    refine (congrArg Wing.state ?_).trans state
    exact KV.getD_put_other _ _ _ own

theorem Card.eraseMore_erasing (c : Card) (n : Nat) {w : Nat} (h : c.erasing w) : (c.eraseMore n).erasing w := by
  induction n generalizing c with
  | zero => exact h
  | succ n ih =>
    unfold Card.eraseMore
    split
    · exact ih _ (c.startErase_erasing _ _ (.inr h))
    · exact h

/-- A fold whose steps do nothing. -/
theorem foldl_still {α β : Type} {f : α → β → α} (l : List β) (still : ∀ x ∈ l, ∀ a, f a x = a) (a : α) : l.foldl f a = a := by
  induction l with
  | nil => rfl
  | cons x l ih =>
    rw [List.foldl_cons, still x List.mem_cons_self a]
    exact ih fun y mem => still y (List.mem_cons_of_mem _ mem)

theorem windowEraseRow {s : State} {w : Nat} {r : List Nat} (allows : s.card.windowAllows 1 Config.eraseTreads = true)
    (runs : ∀ x e, x ∈ s.card.halls.dies → x.2.erase = some e → e.stage ≠ .suspended) (order : s.card.eraseOrder = w :: r) :
    ∃ t, exec .windowEraseStart s = .next t ∧ (KV.find t.card.halls.erases w).isSome = true ∧
      (t.card.wing w).state = .erasing ∧ t.card.media.cells = s.card.media.cells := by
  have unfolded : s.card.windowErase = (s.card.startErase w .window).eraseMore 3 := by
    unfold Card.windowErase
    rw [if_pos allows]
    refine (congrArg (fun c => Card.eraseMore c Config.windowErases) (foldl_still _ (fun x mem c => ?_) _)).trans ?_
    · cases held : x.2.erase with
      | none => rfl
      | some e => exact if_neg (runs x e mem held)
    · change Card.eraseMore s.card (3 + 1) = _
      rw [Card.eraseMore, order]
  obtain ⟨t, next, only⟩ := run_balconyOnly Card.windowErase s
  have cells : s.card.windowErase.media.cells = s.card.media.cells := Card.cells_of_keep (congrArg Keep.cells (Card.windowErase_keep _))
  rw [unfolded] at only cells
  obtain ⟨halls, media, -⟩ := only.work
  have begun := Card.eraseMore_erasing (w := w) _ 3 (s.card.startErase_erasing w .window (.inl rfl))
  obtain ⟨listed, state⟩ := Card.erasing_congr (congrArg Halls.erases halls) media begun
  exact ⟨t, next, listed, state, (congrArg Media.cells media).trans cells⟩

/-! Relocations (R447, R466, R470). -/

/-- What beginning a read leaves of relocations and of the windows' work. -/
def MovesStay (c d : Card) : Prop := d.halls.moves = c.halls.moves ∧ d.maint = c.maint

theorem MovesStay.refl (c : Card) : MovesStay c c := ⟨rfl, rfl⟩

theorem MovesStay.trans {c d e : Card} (h : MovesStay c d) (k : MovesStay d e) : MovesStay c e :=
  ⟨k.1.trans h.1, k.2.trans h.2⟩

theorem MovesStay.foldl {α : Type} {f : Card → α → Card} (h : ∀ c x, MovesStay c (f c x)) (l : List α) (c : Card) :
    MovesStay c (l.foldl f c) := by
  induction l generalizing c with
  | nil => exact .refl c
  | cons x l ih => exact (h c x).trans (ih _)

theorem DieWork.moves {c d : Card} (h : DieWork c d) : MovesStay c d := by
  obtain ⟨-, moves, -, maint⟩ := h.fields
  exact ⟨moves, maint⟩

theorem Card.putJob_moves (c : Card) (id : Nat) (j : ReadJob) : MovesStay c (c.putJob id j) := ⟨rfl, rfl⟩

theorem Card.startKid_moves (c : Card) (parent : Nat) (mask : BitVec 16) (k : Nat) : MovesStay c (c.startKid parent mask k) := by
  have own (j : ReadJob) : MovesStay c (c.newId.1.putJob c.halls.nextId j) := ⟨rfl, rfl⟩
  exact (own _).trans (Card.enqueue_work _ _).moves

theorem Card.markRead_moves (c : Card) (j : ReadJob) : MovesStay c (c.markRead j) := by
  have mark (w trigger : Nat) : MovesStay c (c.markRefresh w trigger) := by
    unfold Card.markRefresh
    dsimp only
    split
    · exact .refl c
    · exact ⟨by simp, by simp⟩
  unfold Card.markRead
  split
  · exact .refl c
  · exact .refl c
  · exact mark _ _

theorem Card.startRebuild_moves (c : Card) (id : Nat) (j : ReadJob) : MovesStay c (c.startRebuild id j) := by
  have counted : MovesStay c ((c.bump 58 1).markRead j) := Card.markRead_moves _ j
  unfold Card.startRebuild
  dsimp only
  split
  · refine (counted.trans ?_).trans (Card.putJob_moves _ _ _)
    exact ⟨by simp [Card.traceStep], by simp [Card.traceStep]⟩
  · exact (counted.trans (Card.putJob_moves _ _ _)).trans (.foldl (fun c k => c.startKid_moves _ _ k) _ _)

theorem Card.startJob_moves (c : Card) (k : Nat) (p : Purpose) (strict : Bool) : MovesStay c (c.startJob k p strict) := by
  have own (j : ReadJob) : MovesStay c (c.newId.1.putJob c.halls.nextId j) := ⟨rfl, rfl⟩
  have rebuilt (j : ReadJob) : MovesStay c (c.newId.1.startRebuild c.halls.nextId j) := Card.startRebuild_moves _ _ j
  unfold Card.startJob
  dsimp only
  split
  · split
    · exact own _
    · exact rebuilt _
  · exact (own _).trans (Card.enqueue_work _ _).moves

/-- The relocation of the bay at `k`, as it begins. -/
def moveOf (k : Nat) (why : MoveWhy) : Move := { src := k, dst := none, why := why, ended := false }

/-- A bay without an image on a die that can be read is read to be moved. -/
theorem Card.startMove_begins {c : Card} {k : Nat} (why : MoveWhy) (vest : KV.find c.media.vest k = none)
    (reach : c.unreachable k = false) : KV.find (c.startMove k why).halls.moves c.halls.nextId = some (moveOf k why) ∧
      (c.startMove k why).maint = c.maint := by
  have reach' : ({ c.newId.1 with
      halls := { c.newId.1.halls with moves := KV.put c.newId.1.halls.moves c.halls.nextId (moveOf k why) } } :
      Card).unreachable k = false := reach
  have read : c.startMove k why = ({ c.newId.1 with
      halls := { c.newId.1.halls with moves := KV.put c.newId.1.halls.moves c.halls.nextId (moveOf k why) } } :
      Card).startJob k (.move c.halls.nextId) false := by
    unfold Card.startMove
    dsimp only [Card.newId]
    rw [vest]
    exact if_neg fun h => Bool.noConfusion (h.symm.trans reach')
  obtain ⟨moves, maint⟩ := Card.startJob_moves ({ c.newId.1 with
      halls := { c.newId.1.halls with moves := KV.put c.newId.1.halls.moves c.halls.nextId (moveOf k why) } }) k
      (.move c.halls.nextId) false
  rw [read, moves, maint]
  exact ⟨KV.find_put_same _ _ _, rfl⟩

theorem Card.emptyOne_moves {c : Card} {w k : Nat} {r : List Nat} (why : MoveWhy) (movable : c.movable w = k :: r)
    (vest : KV.find c.media.vest k = none) (reach : c.unreachable k = false) :
    KV.find (c.emptyOne w why).halls.moves c.halls.nextId = some (moveOf k why) ∧ (c.emptyOne w why).maint = c.maint := by
  rw [Card.emptyOne, movable]
  exact Card.startMove_begins why vest reach

theorem refreshRow {s : State} {w k : Nat} {r : List Nat} (allows : s.card.windowAllows 4 Config.relocTreads = true)
    (first : s.card.eraseFirst = false) (next : s.card.refreshNext = some w) (movable : s.card.movable w = k :: r)
    (vest : KV.find s.card.media.vest k = none) (reach : s.card.unreachable k = false) :
    ∃ t, exec .refreshRelocation s = .next t ∧
      KV.find t.card.halls.moves s.card.halls.nextId = some (moveOf k .refresh) := by
  have unfolded : s.card.refreshOne = s.card.emptyOne w .refresh := by
    unfold Card.refreshOne
    rw [allows, first, next]
    rfl
  obtain ⟨t, runs, only⟩ := run_balconyOnly Card.refreshOne s
  rw [unfolded] at only
  obtain ⟨halls, -⟩ := only.work
  exact ⟨t, runs, by rw [halls, (Card.emptyOne_moves .refresh movable vest reach).1]⟩

theorem reclaimRow {s : State} {w k : Nat} {r : List Nat} (allows : s.card.windowAllows 0 Config.relocTreads = true)
    (low : s.card.freeErased + s.card.waitingErase < 192) (yields : s.card.reclaimYields = false)
    (emptying : s.card.maint.emptying = none) (victim : s.card.chooseVictim = some w)
    (movable : s.card.movable w = k :: r) (vest : KV.find s.card.media.vest k = none)
    (reach : s.card.unreachable k = false) :
    ∃ t, exec .reclaimRelocation s = .next t ∧ t.card.maint.emptying = some w ∧
      KV.find t.card.halls.moves s.card.halls.nextId = some (moveOf k .reclaim) := by
  obtain ⟨b, traced⟩ := Card.ev_balconyOnly { s.card with maint := { s.card.maint with emptying := some w } } 30
    (leBytes 2 w ++ leBytes 2 (s.card.validIn w).length ++ [0])
  have chosen : s.card.reclaimVictim =
      ({ s.card with maint := { s.card.maint with emptying := some w }, bal := b }, some w) := by
    unfold Card.reclaimVictim
    rw [emptying, victim]
    exact congrArg (fun c => (c, some w)) traced
  have unfolded : s.card.reclaimOne =
      ({ s.card with maint := { s.card.maint with emptying := some w }, bal := b } : Card).emptyOne w .reclaim := by
    unfold Card.reclaimOne Card.reclaims
    rw [allows, yields, chosen, decide_eq_true (show _ < Config.reclaimBelow from low)]
    rfl
  obtain ⟨t, runs, only⟩ := run_balconyOnly Card.reclaimOne s
  rw [unfolded] at only
  obtain ⟨halls, -, maint⟩ := only.work
  obtain ⟨moves, stays⟩ := Card.emptyOne_moves (c := { s.card with
    maint := { s.card.maint with emptying := some w }, bal := b }) .reclaim movable vest reach
  exact ⟨t, runs, by rw [maint, stays], by rw [halls]; exact moves⟩

theorem levelRow {s : State} {c : Card} {w k : Nat} {r : List Nat} (allows : s.card.windowAllows 2 Config.relocTreads = true)
    (yields : s.card.levelYields = false) (level : s.card.levelWing = (c, some w)) (movable : c.movable w = k :: r)
    (vest : KV.find c.media.vest k = none) (reach : c.unreachable k = false) :
    ∃ t, exec .staticLevelMove s = .next t ∧
      KV.find t.card.halls.moves c.halls.nextId = some (moveOf k .staticLevel) := by
  have unfolded : s.card.levelOne = c.emptyOne w .staticLevel := by
    unfold Card.levelOne
    rw [allows, yields, level]
    rfl
  obtain ⟨t, runs, only⟩ := run_balconyOnly Card.levelOne s
  rw [unfolded] at only
  obtain ⟨halls, -⟩ := only.work
  exact ⟨t, runs, by rw [halls, (Card.emptyOne_moves .staticLevel movable vest reach).1]⟩

/-- A static-levelling move that begins is that of the young wing, three classes below the highest (R466). -/
theorem Card.levelWing_young {c d : Card} {w : Nat} (level : c.levelWing = (d, some w)) (fresh : c.maint.young = none) :
    c.youngWing = some w ∧ (c.wing w).cls + 3 ≤ c.topClass := by
  have idle : c.moveOn = none := by simp only [Card.moveOn, fresh]
  have kept : c.leaveTarget = c := by simp only [Card.leaveTarget, fresh]
  unfold Card.levelWing at level
  simp only [idle, kept] at level
  split at level
  · next y young =>
    split at level
    · next t target =>
      obtain ⟨-, is⟩ := Prod.mk.inj level
      obtain rfl := Option.some.inj is
      unfold Card.moveTarget at target
      split at target
      · next far => exact ⟨young, far.1⟩
      · cases target
    · cases (Prod.mk.inj level).2
  · cases (Prod.mk.inj level).2

/-! Patrol (R471, R472). -/

theorem Card.mem_passLeft {c : Card} {w : Nat} :
    w ∈ c.passLeft ↔ w ∈ c.maint.pass ∧ (c.wing w).state = .closed ∧ (c.wing w).visited = false := by
  rw [Card.passLeft, List.mem_map]
  constructor
  · rintro ⟨x, mem, rfl⟩
    obtain ⟨v, kept, rfl⟩ := List.mem_map.mp (mem_sortBy.mp mem)
    obtain ⟨pass, left⟩ := List.mem_filter.mp kept
    simp only [Bool.and_eq_true, beq_iff_eq, Bool.not_eq_true'] at left
    exact ⟨pass, left.1, left.2⟩
  · rintro ⟨pass, state, unvisited⟩
    refine ⟨(w, (c.wing w).closeSeq), mem_sortBy.mpr (List.mem_map.mpr ⟨w, List.mem_filter.mpr ⟨pass, ?_⟩, rfl⟩), rfl⟩
    simp [state, unvisited]

theorem Card.renewPass_goes {c : Card} {w : Nat} (left : w ∈ c.passLeft) : c.renewPass = c := by
  refine if_neg fun empty => ?_
  rw [List.isEmpty_iff.mp empty] at left
  cases left

/-- A wing visited while another is left of the pass. -/
theorem Card.visited_wing {c : Card} {w v : Nat} (left : v ∈ c.passLeft) (other : v ≠ w) :
    ((c.visited w).wing w).visited = true := by
  have wings (u : Nat) (x : Wing) : (c.setWing w x).wing u = if u = w then x else c.wing u := by
    unfold Card.setWing Card.wing
    split
    · next h =>
      subst h
      exact KV.getD_put_same _ _ _ _
    · next h => exact KV.getD_put_other _ _ _ h
  have left' : v ∈ (c.setWing w { c.wing w with visited := true }).passLeft := by
    rw [Card.mem_passLeft] at left ⊢
    rwa [wings, if_neg other]
  rw [Card.visited, Card.renewPass_goes left', wings, if_pos rfl]

/-- A patrol's read of a position. -/
def patrolJob (k : Nat) : ReadJob :=
  { key := k, purpose := .patrol, stage := .strict, left := 0xFFFF, soft := 0, weak := false, step := 1, beyond := 0,
    kids := 0, kidFailed := false, beyondHelp := 0 }

theorem Card.dieShut_of_mark {c d : Card} {n : Nat} (mark : (d.die n).mark = (c.die n).mark) : d.dieShut n = c.dieShut n := by
  obtain ⟨-, rest⟩ := Prod.mk.inj mark
  obtain ⟨fenced, heat⟩ := Prod.mk.inj rest
  rw [Card.dieShut, Card.dieShut, fenced, heat]

theorem DieWork.ids {c d : Card} (h : DieWork c d) : d.halls.jobs = c.halls.jobs ∧ d.halls.nextId = c.halls.nextId := by
  obtain ⟨⟨_, _, _, _, rfl⟩, -⟩ := h
  exact ⟨rfl, rfl⟩

theorem Card.startJob_patrol {c : Card} {k : Nat} (up : c.dieShut (keyDie k) = false) :
    (c.startJob k .patrol true).halls.jobs = KV.put c.halls.jobs c.halls.nextId (patrolJob k) ∧
      (c.startJob k .patrol true).halls.nextId = c.halls.nextId + 1 := by
  have up' : c.newId.1.dieShut (keyDie k) = false := up
  have read : c.startJob k .patrol true =
      (c.newId.1.putJob c.halls.nextId (patrolJob k)).enqueue (.read c.halls.nextId k true 0xFFFF 0) :=
    if_neg fun h => Bool.noConfusion (h.symm.trans up')
  obtain ⟨jobs, ids⟩ := DieWork.ids (Card.enqueue_work (c.newId.1.putJob c.halls.nextId (patrolJob k))
    (.read c.halls.nextId k true 0xFFFF 0))
  rw [read, jobs, ids]
  exact ⟨rfl, rfl⟩

/-- Reads of positions at stricter thresholds. -/
def Card.patrolReads (c : Card) (ps : List Nat) : Card := ps.foldl (fun c k => c.startJob k .patrol true) c

theorem Card.patrolReads_placing (c : Card) (ps : List Nat) : Placing c (c.patrolReads ps) :=
  .foldl (fun c k => c.startJob_placing k .patrol true) ps c

theorem Card.patrolReads_rest (c : Card) (ps : List Nat) : (c.patrolReads ps).rest = c.rest :=
  Rest.foldl _ (fun c k => c.startJob_rest k .patrol true) ps c

/-- The reads of a patrol visit: a job for each position, and no other. -/
theorem Card.startPatrol_jobs (ps : List Nat) {c : Card} (up : ∀ n, c.dieShut n = false) :
    (∀ y ∈ (c.patrolReads ps).halls.jobs, y ∈ c.halls.jobs ∨ ∃ k, y.2 = patrolJob k) ∧
    ∀ p ∈ ps, ∃ x < (c.patrolReads ps).halls.nextId,
      KV.find (c.patrolReads ps).halls.jobs x = some (patrolJob p) := by
  induction ps generalizing c with
  | nil => exact ⟨fun y mem => .inl mem, fun p mem => nomatch mem⟩
  | cons k ps ih =>
    obtain ⟨jobs, ids⟩ := Card.startJob_patrol (up (keyDie k))
    have placing := c.startJob_placing k .patrol true
    obtain ⟨only, each⟩ := ih (c := c.startJob k .patrol true) (fun n => (Card.dieShut_of_mark (placing.mark n)).trans (up n))
    have later := (c.startJob k .patrol true).patrolReads_placing ps
    have reads : c.patrolReads (k :: ps) = (c.startJob k .patrol true).patrolReads ps := rfl
    rw [reads]
    refine ⟨fun y mem => ?_, fun p mem => ?_⟩
    · rcases only y mem with old | new
      · rw [jobs] at old
        rcases KV.mem_put old with rfl | old
        · exact .inr ⟨k, rfl⟩
        · exact .inl old
      · exact .inr new
    · rcases List.mem_cons.mp mem with rfl | mem
      · have low : c.halls.nextId < (c.startJob p .patrol true).halls.nextId := by rw [ids]; exact Nat.lt_succ_self _
        refine ⟨c.halls.nextId, low.trans_le later.ids, (later.jobs _ low).trans ?_⟩
        rw [jobs, KV.find_put_same]
      · exact each p mem

/-- With patrol reads alone, none of them ended, there is nothing to collect. -/
theorem Card.collectJobs_patrol {c : Card} (jobs : ∀ y ∈ c.halls.jobs, ∃ k, y.2 = patrolJob k) : c.collectJobs = c := by
  have kids : c.collectKids = c := by
    refine foldl_still _ (fun y mem d => ?_) c
    obtain ⟨k, is⟩ := jobs y mem
    rw [is]
    rfl
  unfold Card.collectJobs
  dsimp only
  rw [kids]
  refine foldl_still _ (fun y mem d => ?_) c
  obtain ⟨k, is⟩ := jobs y mem
  rw [is]
  rfl

/-! Images that get a position while no WRITE is under way. -/

/-- No WRITE comes up. -/
def Calm (c d : Card) : Prop := c.writeWorks = [] → d.writeWorks = []

theorem Calm.refl (c : Card) : Calm c c := id

theorem Calm.trans {c d e : Card} (h : Calm c d) (k : Calm d e) : Calm c e := k ∘ h

theorem Calm.foldl {α : Type} {f : Card → α → Card} (h : ∀ c x, Calm c (f c x)) (l : List α) (c : Card) :
    Calm c (l.foldl f c) := by
  induction l generalizing c with
  | nil => exact .refl c
  | cons x l ih => exact (h c x).trans (ih _)

theorem Calm.of_near {c d : Card} (h : d.near = c.near) : Calm c d := by
  intro none
  rw [← none, Card.writeWorks, Near.ports_eq h]
  rfl

theorem Card.rekey_calm (c : Card) (old new : Nat) : Calm c (c.rekey old new) := by
  intro none
  rw [Card.writeWorks, List.filterMap_eq_nil_iff] at none ⊢
  intro y mem
  obtain ⟨x, listed, rfl⟩ := List.mem_map.mp mem
  have was := none x listed
  revert was
  dsimp only
  cases x.2.state with
  | outstanding cmd => cases cmd <;> simp [TagState.rekey, Cmd.rekey]
  | _ => exact id

theorem Card.awaitHome_calm (c : Card) (x : Homeless) : Calm c (c.awaitHome x) := id

theorem Card.redrive_calm (c : Card) (k cause : Nat) : Calm c (c.redrive k cause) := by
  unfold Card.redrive
  split
  · exact .refl c
  · next b _ =>
    have placed := (c.release [k]).place_near (c.isUser k b) false { b with reloc := false }
    split
    · next d n e =>
      rw [e] at placed
      refine (Calm.of_near (placed.trans (c.release_near [k]))).trans ((d.rekey_calm k n).trans (.of_near ?_))
      calc (((((d.rekey k n).supersede k).pump (keyDie n)).noteActs).traceRedrive cause k n).near
          = ((((d.rekey k n).supersede k).pump (keyDie n)).noteActs).near := Near.of_rest (Card.traceRedrive_rest _ _ _ _)
        _ = (((d.rekey k n).supersede k).pump (keyDie n)).near := Card.noteActs_near _
        _ = ((d.rekey k n).supersede k).near := Near.of_rest (Card.pump_rest _ _)
        _ = (d.rekey k n).near := Near.of_rest (Card.supersede_rest _ _)
    · exact c.awaitHome_calm _

theorem Card.recopy_calm (c : Card) (cause k : Nat) : Calm c (c.recopy cause k) := by
  unfold Card.recopy
  split
  · exact .refl c
  · next b _ =>
    have placed := c.place_near (c.isUser k b) false { b with reloc := false }
    split
    · split
      · next d n e =>
        rw [e] at placed
        refine .trans (.of_near placed) (.of_near ?_)
        refine (Near.of_rest (Card.traceRedrive_rest _ _ _ _)).trans ((Near.of_rest (Card.pump_rest _ _)).trans ?_)
        exact Near.of_rest rfl
      · exact c.awaitHome_calm _
    · exact .refl c

theorem Card.rehome_calm (c : Card) : Calm c c.rehome := by
  have bare (d : Card) (k : Nat) : Calm d (d.releaseBare k) := by
    unfold Card.releaseBare
    split
    · exact .refl d
    · exact .of_near (d.release_near _)
  unfold Card.rehome
  refine .trans (c := c) (d := { c with media := { c.media with homeless := [] } }) id
    (.trans (.foldl (fun c x => ?_) _ _) (.foldl (fun c x => bare _ _) _ _))
  split
  · exact c.recopy_calm _ _
  · exact c.redrive_calm _ _

/-- A patrol visit's reads begin while no WRITE is under way: images without a place move, and actions go on. -/
theorem Card.settle_patrol {c : Card} (jobs : ∀ y ∈ c.halls.jobs, ∃ k, y.2 = patrolJob k) (works : c.writeWorks = []) :
    Placing c c.settle := by
  have none := c.rehome_calm works
  unfold Card.settle
  dsimp only
  rw [Card.collectJobs_patrol jobs, none, List.map_nil, List.foldl_nil, none, List.map_nil, List.foldl_nil]
  exact c.rehome_placing.trans c.rehome.stepActs_placing

/-- A patrol visit of a wing with positions: each of them is read at stricter thresholds. -/
theorem Card.patrolVisit_reads {c : Card} (ps : List Nat) (jobs : c.halls.jobs = []) (works : c.writeWorks = [])
    (up : ∀ n, c.dieShut n = false) :
    Placing (c.patrolReads ps) (c.patrolReads ps).settle ∧
      ∀ p ∈ ps, ∃ x < (c.patrolReads ps).halls.nextId,
        KV.find (c.patrolReads ps).halls.jobs x = some (patrolJob p) := by
  obtain ⟨only, each⟩ := Card.startPatrol_jobs ps up
  have rest := c.patrolReads_rest ps
  refine ⟨Card.settle_patrol (fun y mem => ?_) ?_, each⟩
  · refine (only y mem).resolve_left fun old => ?_
    rw [jobs] at old
    cases old
  · rw [Card.writeWorks, Rest.ports_eq rest]
    exact works

/-- The visit of wing `w` is under way. -/
def Card.visiting (c : Card) (w : Nat) : Card :=
  { c with maint := { c.maint with visit := some (w, (c.positionsOf w).length, false) } }

theorem patrolRow {s : State} {w : Nat} {r : List Nat} (allows : s.card.windowAllows 3 Config.marginTreads = true)
    (free : s.card.maint.visit = none) (left : s.card.passLeft = w :: r) (jobs : s.card.halls.jobs = [])
    (works : s.card.writeWorks = []) (up : ∀ n, s.card.dieShut n = false) :
    ∃ t, exec .patrolVisit s = .next t ∧
      (s.card.positionsOf w = [] → (∃ v, v ∈ r ∧ v ≠ w) → (t.card.wing w).visited = true) ∧
      (s.card.positionsOf w ≠ [] → t.card.maint.visit = some (w, (s.card.positionsOf w).length, false) ∧
        ∀ p, p ∈ s.card.positionsOf w → ∃ x j, (x, j) ∈ t.card.halls.jobs ∧ j.key = p ∧ j.purpose = .patrol ∧
          j.stage = .strict) := by
  have going : s.card.renewPass = s.card := Card.renewPass_goes (w := w) (by rw [left]; exact List.mem_cons_self)
  obtain ⟨t, runs, only⟩ := run_balconyOnly Card.patrolOne s
  obtain ⟨halls, media, maint⟩ := only.work
  refine ⟨t, runs, fun empty other => ?_, fun some => ?_⟩
  · obtain ⟨v, mem, other⟩ := other
    have unfolded : s.card.patrolOne = s.card.visited w := by
      unfold Card.patrolOne
      simp only [allows, free, going, left, empty, Option.isNone_none, Bool.and_self, ↓reduceIte, List.isEmpty_nil]
    rw [Card.wing, media, unfolded]
    exact Card.visited_wing (v := v) (by rw [left]; exact List.mem_cons_of_mem _ mem) other
  · have filled : (s.card.positionsOf w).isEmpty = false := by simpa using some
    have unfolded : s.card.patrolOne = ((s.card.visiting w).patrolReads (s.card.positionsOf w)).settle := by
      unfold Card.patrolOne Card.visiting Card.patrolReads
      simp only [allows, free, going, left, filled, Option.isNone_none, Bool.and_self, ↓reduceIte, Bool.false_eq_true]
    obtain ⟨settles, each⟩ := Card.patrolVisit_reads (c := s.card.visiting w) (s.card.positionsOf w) jobs works up
    have begun := (s.card.visiting w).patrolReads_placing (s.card.positionsOf w)
    rw [halls, maint, unfolded]
    refine ⟨settles.visit.trans begun.visit, fun p mem => ?_⟩
    obtain ⟨x, low, job⟩ := each p mem
    exact ⟨x, patrolJob p, KV.mem_of_find ((settles.jobs x low).trans job), rfl, rfl, rfl⟩

/-- Settles O55: each kind of a window's work, on the wing and the bay that its chooser names. -/
theorem windowWork : Obligations.WindowWork := by
  unfold Obligations.WindowWork
  intro s w k r
  refine ⟨fun allows _ runs order => windowEraseRow allows runs order, ?_, ?_, fun c allows yields level movable vest reach =>
    ⟨fun fresh => ?_, levelRow allows yields level movable vest reach⟩, ?_⟩
  · exact fun allows low yields emptying victim movable vest reach =>
      reclaimRow allows low yields emptying victim movable vest reach
  · exact fun allows first next movable vest reach => refreshRow allows first next movable vest reach
  · exact Card.levelWing_young level fresh
  · exact fun allows free left jobs works _ up => patrolRow allows free left jobs works up

end Sys2Proof.Machine

/-! What the card notes of HCLK's absence is left alone by everything that follows its return (R34, R38). -/

namespace Sys2Proof.Machine

open Sys2Proof

theorem Tripped.foldl {α : Type} (f : Card → α → Card) (h : ∀ c x, (f c x).far.power.hclkTripped = c.far.power.hclkTripped)
    (l : List α) (c : Card) : (l.foldl f c).far.power.hclkTripped = c.far.power.hclkTripped :=
  foldl_same (fun c : Card => c.far.power.hclkTripped) f h l c

theorem Heralds.tripped {c d : Card} (h : Heralds c d) : d.far.power.hclkTripped = c.far.power.hclkTripped := by
  obtain ⟨⟨_, _, _, _, is⟩, -⟩ := h
  rw [is]
  rfl

@[simp] theorem Card.send_tripped (c : Card) (o : Out) : (c.send o).far.power.hclkTripped = c.far.power.hclkTripped := rfl

@[simp] theorem Card.respond_tripped (c : Card) (p : Port) (kind : BitVec 2) (code : BitVec 6) (st : Status) (info : BitVec 24)
    (z : Bool) :
    (c.respond p kind code st info z).far.power.hclkTripped = c.far.power.hclkTripped := by
  exact (c.respond_heralds p kind code st info z).tripped

@[simp] theorem Card.sendFinal_tripped (c : Card) (p : Port) (t : Tag) (st : Status) (info : BitVec 24) (z : Bool) :
    (c.sendFinal p t st info z).far.power.hclkTripped = c.far.power.hclkTripped := by
  unfold Card.sendFinal
  simp

@[simp] theorem Card.notice_tripped (c : Card) (code : BitVec 6) (info : BitVec 24) :
    (c.notice code info).far.power.hclkTripped = c.far.power.hclkTripped := by
  exact (c.notice_heralds code info).tripped

@[simp] theorem Card.finish_tripped (c : Card) (t : Tag) (st : Status) (info : BitVec 24) (z : Bool) :
    (c.finish t st info z).far.power.hclkTripped = c.far.power.hclkTripped := by
  have power : (c.finish t st info z).power = c.power := by simp
  exact congrArg Power.hclkTripped power

@[simp] theorem Card.enter_tripped (c : Card) (p : Phase) :
    (c.enter p).far.power.hclkTripped = c.far.power.hclkTripped :=
  congrArg Power.hclkTripped (c.enter_frame p).1

@[simp] theorem Card.sendC2h_tripped (c : Card) (t : Tag) (bytes : List Byte) :
    (c.sendC2h t bytes).far.power.hclkTripped = c.far.power.hclkTripped := rfl

@[simp] theorem Card.driveLnd_tripped (c : Card) : (c.driveLnd).far.power.hclkTripped = c.far.power.hclkTripped := by
  unfold Card.driveLnd
  split <;> rfl

@[simp] theorem Card.needLanes_tripped (c : Card) (t : Tag) (body : Card → Card)
    (h : ∀ d : Card, (body d).far.power.hclkTripped = d.far.power.hclkTripped) :
    (c.needLanes t body).far.power.hclkTripped = c.far.power.hclkTripped := by
  unfold Card.needLanes
  split <;> simp [h]

/-! Positions, images without a place, blocks that fail. -/

@[simp] theorem Card.rekey_tripped (c : Card) (old new : Nat) :
    (c.rekey old new).far.power.hclkTripped = c.far.power.hclkTripped := rfl

@[simp] theorem Card.redrive_tripped (c : Card) (k cause : Nat) :
    (c.redrive k cause).far.power.hclkTripped = c.far.power.hclkTripped := by
  unfold Card.redrive
  split
  · rfl
  · next b _ =>
    have placed := congrArg (fun x : Far => x.power.hclkTripped)
      (Card.place_far (c.release [k]) (c.isUser k b) false { b with reloc := false })
    split
    · next d n e =>
      rw [e] at placed
      simpa using placed
    · rfl

@[simp] theorem Card.recopy_tripped (c : Card) (cause k : Nat) :
    (c.recopy cause k).far.power.hclkTripped = c.far.power.hclkTripped := by
  unfold Card.recopy
  split
  · rfl
  · next b _ =>
    have placed := congrArg (fun x : Far => x.power.hclkTripped)
      (Card.place_far c (c.isUser k b) false { b with reloc := false })
    split
    · split
      · next d n e =>
        rw [e] at placed
        simpa [Far.parts] using placed
      · rfl
    · rfl

@[simp] theorem Card.rehome_tripped (c : Card) : (c.rehome).far.power.hclkTripped = c.far.power.hclkTripped := by
  unfold Card.rehome
  dsimp only
  rw [Tripped.foldl _ (fun c x => by simp), Tripped.foldl _ (fun c x => by split <;> simp)]
  rfl

@[simp] theorem Card.closeShort_tripped (c : Card) (w cause : Nat) :
    (c.closeShort w cause).far.power.hclkTripped = c.far.power.hclkTripped := by
  unfold Card.closeShort
  dsimp only
  split
  · simp
  · rw [Card.fillWing_far, Tripped.foldl _ (fun c x => by (repeat' split) <;> simp)]
    simp

@[simp] theorem Card.appendLedger_tripped (c : Card) (e : LedgerEntry) :
    (c.appendLedger e).far.power.hclkTripped = c.far.power.hclkTripped := by
  unfold Card.appendLedger
  dsimp only
  split <;> rfl

@[simp] theorem Card.retire_tripped (c : Card) (h d b : Nat) (cause : LedgerCause) (epoch : Nat) :
    (c.retire h d b cause epoch).far.power.hclkTripped = c.far.power.hclkTripped := by
  unfold Card.retire
  dsimp only
  repeat' split
  all_goals simp [Far.parts]

@[simp] theorem Card.programLost_tripped (c : Card) (k cause : Nat) (bad : Bool) :
    (c.programLost k cause bad).far.power.hclkTripped = c.far.power.hclkTripped := by
  unfold Card.programLost
  dsimp only
  repeat' split
  all_goals simp

/-! Landings, rollbacks, the twin link. -/

@[simp] theorem Card.twinEnd_tripped (c : Card) (f : Flight) (failed : Bool) :
    (c.twinEnd f failed).far.power.hclkTripped = c.far.power.hclkTripped := (c.twinEnd_heralds f failed).tripped

@[simp] theorem Card.removeAct_tripped (c : Card) (a : Action) :
    (c.removeAct a).far.power.hclkTripped = c.far.power.hclkTripped := by
  unfold Card.removeAct
  simp [Far.parts]

@[simp] theorem Card.dropActions_tripped (c : Card) : (c.dropActions).far.power.hclkTripped = c.far.power.hclkTripped := by
  unfold Card.dropActions
  dsimp only
  rw [Tripped.foldl _ (fun c x => by split <;> simp)]
  simp [Far.parts]

@[simp] theorem Card.enterClosed_tripped (c : Card) (t : Tag) (how : Nat) :
    (c.enterClosed t how).far.power.hclkTripped = c.far.power.hclkTripped := by
  unfold Card.enterClosed
  simp [Far.parts]

@[simp] theorem Card.landedResponse_tripped (c : Card) (t : Tag) (info : Nat) :
    (c.landedResponse t info).far.power.hclkTripped = c.far.power.hclkTripped := by
  unfold Card.landedResponse
  split
  · split <;> simp
  · rfl

@[simp] theorem Card.landingResponse_tripped (c : Card) (a : Action) (ok : Bool) :
    (c.landingResponse a ok).far.power.hclkTripped = c.far.power.hclkTripped := by
  unfold Card.landingResponse
  split
  · rfl
  · simp
  · simp
  · split <;> simp

@[simp] theorem Card.landed_tripped (c : Card) (a : Action) (b : Bay) :
    (c.landed a b).far.power.hclkTripped = c.far.power.hclkTripped := by
  unfold Card.landed
  dsimp only
  repeat' split
  all_goals simp [Far.parts]

@[simp] theorem Card.failAct_tripped (c : Card) (a : Action) :
    (c.failAct a).far.power.hclkTripped = c.far.power.hclkTripped := by
  unfold Card.failAct
  simp [Far.parts]

@[simp] theorem Card.failLanding_tripped (c : Card) (a : Action) :
    (c.failLanding a).far.power.hclkTripped = c.far.power.hclkTripped := by
  unfold Card.failLanding
  simp

@[simp] theorem Card.failRollback_tripped (c : Card) (a : Action) :
    (c.failRollback a).far.power.hclkTripped = c.far.power.hclkTripped := by
  unfold Card.failRollback
  dsimp only
  split <;> simp

@[simp] theorem Card.rolledBack_tripped (c : Card) (a : Action) (b : Bay) :
    (c.rolledBack a b).far.power.hclkTripped = c.far.power.hclkTripped := by
  unfold Card.rolledBack
  dsimp only
  repeat' split
  all_goals simp [Far.parts]

@[simp] theorem Card.executeLanding_tripped (c : Card) (f : Flight) (late : Nat) (src : ActSrc) :
    (c.executeLanding f late src).far.power.hclkTripped = c.far.power.hclkTripped := by
  have closed : (c.closeFlight).far.power.hclkTripped = c.far.power.hclkTripped := by simp
  unfold Card.executeLanding
  dsimp only
  rw [Card.stepActs_far, Card.pumpAll_far, Card.driveLnd_tripped, Card.ev_far, ← closed]
  split <;> rfl

/-! WRITEs and the jobs of other commands. -/

@[simp] theorem Card.applyAll_tripped (c : Card) (xs : List Change) :
    (c.applyAll xs).far.power.hclkTripped = c.far.power.hclkTripped := rfl

@[simp] theorem Card.applyWrite_tripped (c : Card) (t : Tag) (w : WriteWork) :
    (c.applyWrite t w).far.power.hclkTripped = c.far.power.hclkTripped := by
  unfold Card.applyWrite
  simp [Far.parts]

theorem Card.placeWrite_tripped {c d : Card} {t : Tag} {w : WriteWork} {bs : List Bay} {ks : List Nat}
    (placed : c.placeWrite t w bs = some (d, ks)) : d.far.power.hclkTripped = c.far.power.hclkTripped := by
  unfold Card.placeWrite at placed
  split at placed
  · rw [Card.placeAll_far _ _ _ _ _ placed]
    simp
  · rw [Card.placeAll_far _ _ _ _ _ placed]

@[simp] theorem Card.assignWrite_tripped (c : Card) (t : Tag) (w : WriteWork) :
    (c.assignWrite t w).far.power.hclkTripped = c.far.power.hclkTripped := by
  unfold Card.assignWrite
  dsimp only
  split
  · split <;> simp
  · split
    · next d ks placed => simp [Card.placeWrite_tripped placed]
    · rfl

@[simp] theorem Card.completeWrite_tripped (c : Card) (t : Tag) (w : WriteWork) :
    (c.completeWrite t w).far.power.hclkTripped = c.far.power.hclkTripped := by
  unfold Card.completeWrite
  split
  · split <;> simp
  · split
    · simp
    · split <;> simp

@[simp] theorem Card.advanceWrite_tripped (c : Card) (t : Tag) :
    (c.advanceWrite t).far.power.hclkTripped = c.far.power.hclkTripped := by
  unfold Card.advanceWrite
  repeat' split
  all_goals simp

@[simp] theorem Card.finishRead_tripped (c : Card) (t : Tag) (w : ReadWork) :
    (c.finishRead t w).far.power.hclkTripped = c.far.power.hclkTripped := by
  unfold Card.finishRead
  dsimp only
  repeat' split
  all_goals simp

@[simp] theorem Card.finishVerify_tripped (c : Card) (t : Tag) (w : ReadWork) :
    (c.finishVerify t w).far.power.hclkTripped = c.far.power.hclkTripped := by
  unfold Card.finishVerify
  split <;> simp

@[simp] theorem Card.deliver_tripped (c : Card) (j : ReadJob) :
    (c.deliver j).far.power.hclkTripped = c.far.power.hclkTripped := by
  unfold Card.deliver
  dsimp only
  repeat' split
  all_goals simp

@[simp] theorem Card.collectJobs_tripped (c : Card) : (c.collectJobs).far.power.hclkTripped = c.far.power.hclkTripped := by
  unfold Card.collectJobs
  dsimp only
  rw [Tripped.foldl _ (fun c x => by (repeat' split) <;> simp)]
  simp

@[simp] theorem Card.settle_tripped (c : Card) : (c.settle).far.power.hclkTripped = c.far.power.hclkTripped := by
  unfold Card.settle
  dsimp only
  rw [Card.stepActs_far, Tripped.foldl _ Card.advanceWrite_tripped, Tripped.foldl _ (fun c t => by simp)]
  simp

/-! What dies report. -/

@[simp] theorem Card.nextOn_tripped (c : Card) (n : Nat) :
    (c.nextOn n).far.power.hclkTripped = c.far.power.hclkTripped := by
  unfold Card.nextOn
  simp

@[simp] theorem Card.actBayLost_tripped (c : Card) (a : Action) (k : Nat) (b : Bay) (bad : Bool) :
    (c.actBayLost a k b bad).far.power.hclkTripped = c.far.power.hclkTripped := by
  unfold Card.actBayLost
  dsimp only
  repeat' split
  all_goals simp

@[simp] theorem Card.lostAt_tripped (c : Card) (k cause : Nat) (bad : Bool) :
    (c.lostAt k cause bad).far.power.hclkTripped = c.far.power.hclkTripped := by
  unfold Card.lostAt
  dsimp only
  repeat' split
  all_goals simp

@[simp] theorem Card.moveDone_tripped (c : Card) (id : Nat) (m : Move) (dst : Nat) :
    (c.moveDone id m dst).far.power.hclkTripped = c.far.power.hclkTripped := by
  unfold Card.moveDone
  dsimp only
  repeat' split
  all_goals simp

@[simp] theorem Card.programmed_tripped (c : Card) (k : Nat) (b : Bay) :
    (c.programmed k b).far.power.hclkTripped = c.far.power.hclkTripped := by
  unfold Card.programmed
  dsimp only
  repeat' split
  all_goals simp

@[simp] theorem Card.programEnd_tripped (c : Card) (k : Nat) (b : Bay) (r : ProgReport) :
    (c.programEnd k b r).far.power.hclkTripped = c.far.power.hclkTripped := by
  unfold Card.programEnd
  dsimp only
  repeat' split
  all_goals simp

@[simp] theorem Card.programTaken_tripped (c : Card) (h d : Nat) (r : ProgReport) :
    (c.programTaken h d r).far.power.hclkTripped = c.far.power.hclkTripped := by
  unfold Card.programTaken
  dsimp only
  repeat' split
  all_goals simp

@[simp] theorem Card.eraseEnd_tripped (c : Card) (h d : Nat) (e : DieErase) (ok : Bool) :
    (c.eraseEnd h d e ok).far.power.hclkTripped = c.far.power.hclkTripped := by
  unfold Card.eraseEnd
  dsimp only
  repeat' split
  all_goals simp [Far.parts]

@[simp] theorem Card.eraseTaken_tripped (c : Card) (h d : Nat) (ok : Bool) :
    (c.eraseTaken h d ok).far.power.hclkTripped = c.far.power.hclkTripped := by
  unfold Card.eraseTaken
  split
  · split <;> simp
  · rfl

@[simp] theorem Card.readTaken_tripped (c : Card) (h d : Nat) (r : ReadReport) :
    (c.readTaken h d r).far.power.hclkTripped = c.far.power.hclkTripped := by
  unfold Card.readTaken
  dsimp only
  repeat' split
  all_goals simp

@[simp] theorem Card.takeLate_tripped (c : Card) (n : Nat) :
    (c.takeLate n).far.power.hclkTripped = c.far.power.hclkTripped := by
  unfold Card.takeLate
  dsimp only
  repeat' split
  all_goals simp

@[simp] theorem Card.takeAllLate_tripped (c : Card) : (c.takeAllLate).far.power.hclkTripped = c.far.power.hclkTripped := by
  unfold Card.takeAllLate
  rw [Card.pumpAll_far, Tripped.foldl _ Card.takeLate_tripped]

/-! The link's return. -/

@[simp] theorem Card.startHold_tripped (c : Card) (hostTrains : Bool) :
    (c.startHold hostTrains).far.power.hclkTripped = c.far.power.hclkTripped :=
  congrArg Power.hclkTripped (c.startHold_frame hostTrains).2.1

@[simp] theorem Card.enterTraining_tripped (c : Card) (request : Bool) :
    (c.enterTraining request).far.power.hclkTripped = c.far.power.hclkTripped := rfl

@[simp] theorem Card.endHold_tripped (c : Card) : (c.endHold).far.power.hclkTripped = c.far.power.hclkTripped :=
  congrArg Power.hclkTripped (c.endHold_frame).2.1

@[simp] theorem Card.withdraw_tripped (c : Card) (w : WriteWork) :
    (c.withdraw w).far.power.hclkTripped = c.far.power.hclkTripped := rfl

@[simp] theorem Card.cutLanding_tripped (c : Card) (t : Tag) :
    (c.cutLanding t).far.power.hclkTripped = c.far.power.hclkTripped := by
  unfold Card.cutLanding
  split <;> simp

@[simp] theorem Card.cutWrite_tripped (c : Card) (t : Tag) (k : Option Cmd) :
    (c.cutWrite t k).far.power.hclkTripped = c.far.power.hclkTripped := by
  unfold Card.cutWrite
  split
  · dsimp only
    split <;> simp
  · rfl

@[simp] theorem Card.cutLater_tripped (c : Card) (x : OwedCheck) :
    (c.cutLater x).far.power.hclkTripped = c.far.power.hclkTripped := by
  unfold Card.cutLater
  simp [Far.parts]

@[simp] theorem Card.holdUnclocked_tripped (c : Card) :
    (c.holdUnclocked).far.power.hclkTripped = c.far.power.hclkTripped := by
  unfold Card.holdUnclocked
  split <;> simp

end Sys2Proof.Machine

/-! HCLK absent for more than 33 ms, and its return (R34, R35, R38, R97, R139, R220). -/

namespace Sys2Proof.Machine

open Sys2Proof

/-! The trip of the absence detector. -/

/-- Losing the map: nothing scheduled, no command and no map stays, and nothing is sent. -/
theorem Card.loseMap_gone (c : Card) : c.loseMap.phase = .readyUnmounted ∧ c.loseMap.power = c.power ∧
    c.loseMap.out = c.out ∧ c.loseMap.views.valid = false ∧ c.loseMap.views.map = [] ∧ c.loseMap.ports.tags = [] ∧
    c.loseMap.flights.records = [] ∧ c.loseMap.flights.held = none ∧ c.loseMap.flights.acts = [] := by
  obtain ⟨-, power, out, valid, map⟩ := c.dropMap_frame
  obtain ⟨held, acts, -⟩ := c.dropMap_scheduled
  have records : c.dropMap.flights.records = [] := rfl
  unfold Card.loseMap
  simp [power, out, valid, map, held, acts, records]

/-- The card as it knows HCLK to be absent: LND released, no die annealed. -/
def Card.withoutClock (c : Card) : Card := (c.setPower { c.power with hclkTripped := true, lnd := false }).cutAnneals

theorem Card.withoutClock_rest (c : Card) :
    c.withoutClock.rest = (c.setPower { c.power with hclkTripped := true, lnd := false }).rest := Card.cutAnneals_rest _

theorem Card.absenceTrip_eq {c : Card} (powered : c.phase ≠ .absent) (stopped : c.power.hclk = false)
    (fresh : c.power.hclkTripped = false) : c.absenceTrip =
      if c.phase = .mounted ∨ c.phase = .mounting then c.withoutClock.loseMap else c.withoutClock := by
  have phase : c.withoutClock.phase = c.phase := congrArg Rest.phase c.withoutClock_rest
  unfold Card.absenceTrip
  rw [if_neg (by simp [powered, stopped, fresh])]
  change (if c.withoutClock.phase = .mounted ∨ c.withoutClock.phase = .mounting then _ else _) = _
  rw [phase]
  rfl

theorem Card.absenceTrip_does {c : Card} (powered : c.phase ≠ .absent) (stopped : c.power.hclk = false)
    (fresh : c.power.hclkTripped = false) :
    c.absenceTrip.power.hclkTripped = true ∧ c.absenceTrip.power.lnd = false ∧ c.absenceTrip.out = c.out ∧
      (c.phase = .mounted ∨ c.phase = .mounting →
        c.absenceTrip.phase = .readyUnmounted ∧ c.absenceTrip.views.valid = false ∧ c.absenceTrip.views.map = [] ∧
          c.absenceTrip.ports.tags = [] ∧ c.absenceTrip.flights.records = [] ∧ c.absenceTrip.flights.held = none ∧
          c.absenceTrip.flights.acts = []) ∧
      (c.phase ≠ .mounted → c.phase ≠ .mounting →
        c.absenceTrip.phase = c.phase ∧ c.absenceTrip.ports = c.ports ∧ c.absenceTrip.views = c.views) := by
  have rest := c.withoutClock_rest
  have power := Rest.power_eq rest
  have out := Rest.out_eq rest
  rw [Card.absenceTrip_eq powered stopped fresh]
  by_cases live : c.phase = .mounted ∨ c.phase = .mounting
  · rw [if_pos live]
    obtain ⟨phase, power', out', gone⟩ := c.withoutClock.loseMap_gone
    rw [power', power, out', out]
    exact ⟨rfl, rfl, rfl, fun _ => ⟨phase, gone⟩, fun open' mounting => absurd live (not_or.mpr ⟨open', mounting⟩)⟩
  · rw [if_neg live, power, out]
    exact ⟨rfl, rfl, rfl, fun h => absurd h live, fun _ _ =>
      ⟨congrArg Rest.phase rest, (Rest.ports_eq rest).trans rfl, (Rest.views_eq rest).trans rfl⟩⟩

theorem absenceRow {s : State} (powered : s.card.phase ≠ .absent) (stopped : s.card.power.hclk = false)
    (fresh : s.card.power.hclkTripped = false) :
    ∃ t, exec .hclkAbsenceDetectorTrip s = .next t ∧ t.card.power.hclkTripped = true ∧ t.card.power.lnd = false ∧
      t.card.out = s.card.out ∧ t.card.media.cells = s.card.media.cells ∧
      (s.card.phase = .mounted ∨ s.card.phase = .mounting →
        t.card.phase = .readyUnmounted ∧ t.card.views.valid = false ∧ t.card.views.map = [] ∧ t.card.ports.tags = [] ∧
          t.card.flights.records = [] ∧ t.card.flights.held = none ∧ t.card.flights.acts = []) ∧
      (s.card.phase ≠ .mounted → s.card.phase ≠ .mounting →
        t.card.phase = s.card.phase ∧ t.card.ports = s.card.ports ∧ t.card.views = s.card.views) := by
  obtain ⟨t, runs, b, is⟩ := run_balconyOnly Card.absenceTrip s
  obtain ⟨tripped, lnd, out, rest⟩ := Card.absenceTrip_does powered stopped fresh
  have cells : s.card.absenceTrip.media.cells = s.card.media.cells := Card.cells_of_keep s.card.absenceTrip_keeps.2.1
  refine ⟨t, runs, ?_⟩
  rw [is]
  exact ⟨tripped, lnd, out, cells, rest⟩

/-! What no die reports stays while the link comes back (log entry 86). -/

/-- Of each die what no descriptor changes. -/
def Card.marks (c : Card) (n : Nat) : Option DieReport × Bool × HeatStage := (c.die n).mark

theorem Card.marks_of_dies {c d : Card} (h : d.halls.dies = c.halls.dies) : d.marks = c.marks := by
  funext n
  simp only [Card.marks, Card.die, h]

theorem Placing.marks {c d : Card} (h : Placing c d) : d.marks = c.marks := funext h.mark

theorem Card.setDie_erase_marks (c : Card) (n : Nat) (e : Option DieErase) :
    (c.setDie n { c.die n with erase := e }).marks = c.marks :=
  (c.setDie_work (v := { c.die n with erase := e }) rfl).placing.marks

theorem Card.cutErase_marks (c : Card) (w : Nat) (hs : List Nat) : (c.cutErase w hs).marks = c.marks := by
  have off (p : Desc → Bool) (l : List Nat) :=
    (foldl_same Card.marks (fun (d : Card) h =>
      (d.setDie (dieNo h (dieRow w)) { d.die (dieNo h (dieRow w)) with erase := none }).complete (.erase w h) .aborted)
      (fun d h => (Card.marks_of_dies (by simp)).trans (d.setDie_erase_marks (dieNo h (dieRow w)) none)) l
      (c.keepDescs p)).trans (Card.marks_of_dies (c.keepDescs_dies p))
  have handed (c : Card) (o : EraseOwner) : ((c.awaitErase w).inlineErased w o).marks = c.marks :=
    Card.marks_of_dies (by simp)
  unfold Card.cutErase
  split
  · rfl
  · dsimp only
    split
    · exact (handed _ _).trans (off _ _)
    · exact off _ _

theorem Card.endErases_marks (c : Card) (o : EraseOwner) : (c.endErases o).marks = c.marks := by
  have cut := foldl_same Card.marks (fun (c : Card) (x : Nat × WingErase) => c.cutErase x.1 (c.unbegun x.1 x.2))
    (fun d x => d.cutErase_marks _ _) (c.halls.erases.filter fun x => x.2.owner == o) c
  have entry (c : Card) (n : Nat) :
      c.marks n = ((KV.find c.halls.dies n).bind (fun d => some d.mark)).getD Die.idle.mark := by
    unfold Card.marks Card.die KV.getD
    cases KV.find c.halls.dies n <;> rfl
  rw [← cut]
  funext n
  rw [entry, entry]
  unfold Card.endErases
  dsimp only
  rw [KV.find_map_bind]
  all_goals
    intro x
    split
    · split <;> rfl
    · rfl

theorem Card.dropWork_marks (c : Card) (t : Tag) : (c.dropWork t).marks = c.marks :=
  (Card.marks_of_dies (Card.sweep_dies _)).trans <| (Card.endErases_marks _ _).trans <| Card.marks_of_dies (by simp)

theorem Card.twinEnd_marks (c : Card) (f : Flight) (failed : Bool) : (c.twinEnd f failed).marks = c.marks := by
  obtain ⟨⟨_, _, _, _, is⟩, -⟩ := c.twinEnd_heralds f failed
  rw [is]
  exact Card.marks_of_dies rfl

/-- A landing that fails for no command. -/
theorem Card.failLanding_marks (c : Card) (a : Action) {i : Nat} (sync : a.src = .sync i) : (c.failLanding a).marks = c.marks := by
  have failed : ((c.failAct a).notice ntLandingFailed (a.flight.setWidth 24)).marks = c.marks :=
    Card.marks_of_dies (by simp [Card.failAct])
  have told (d : Card) : d.landingResponse a false = d := by
    unfold Card.landingResponse
    rw [sync]
  unfold Card.failLanding
  dsimp only
  rw [(Card.stepActs_placing _).marks, Card.twinEnd_marks, told]
  exact (Card.marks_of_dies (by simp)).trans failed

theorem Card.cutLanding_marks (c : Card) (t : Tag) : (c.cutLanding t).marks = c.marks := by
  unfold Card.cutLanding
  split
  · exact c.failLanding_marks _ rfl
  · rfl

theorem Card.cutWrite_marks (c : Card) (t : Tag) (k : Option Cmd) : (c.cutWrite t k).marks = c.marks := by
  unfold Card.cutWrite
  split
  · dsimp only
    split
    · exact (Card.cutLanding_marks _ t).trans (Card.marks_of_dies rfl)
    · exact Card.marks_of_dies rfl
  · rfl

theorem Card.cutLater_marks (c : Card) (x : OwedCheck) : (c.cutLater x).marks = c.marks := by
  unfold Card.cutLater
  dsimp only
  refine (Card.marks_of_dies rfl).trans ((Card.cutWrite_marks _ _ _).trans ((Card.dropWork_marks _ _).trans ?_))
  exact Card.marks_of_dies (by simp)

/-! The parts of the link's return (R34, R38, R220). -/

/-- The retrain counted, where the link was not training. -/
def Card.retrainCounted (c : Card) : Card := if c.link.mode = .training then c else (c.bump 81 1).ev 10 [0x05, 0]

/-- Training frames, or their wait for the end of a hold. -/
def Card.trainNow (c : Card) : Card :=
  if c.link.hold then { c with link := { c.link with hostTrains := true, holdCause := none } } else c.enterTraining false

/-- A hold ends once nothing holds C2H lane 0 low. -/
def Card.holdOver (c : Card) : Card := if c.link.hold ∧ !c.holds then c.endHold else c

theorem Card.returnLink_eq {c : Card} (live : c.link.mode ≠ .down) (trained : c.phase ≠ .linkTraining) :
    c.returnLink = ((c.retrainCounted.cuts.foldl Card.cutLater c.retrainCounted.trainNow).stepActs).holdOver := by
  unfold Card.returnLink
  rw [if_neg live, if_neg trained]
  rfl

theorem Card.retrainCounted_only (c : Card) : BalconyOnly c c.retrainCounted := by
  unfold Card.retrainCounted
  split
  · exact .refl c
  · obtain ⟨b, is⟩ := Card.ev_balconyOnly (c.bump 81 1) 10 [0x05, 0]
    exact ⟨b, is⟩

@[simp] theorem Card.returnLink_tripped (c : Card) :
    c.returnLink.far.power.hclkTripped = c.far.power.hclkTripped := by
  by_cases down : c.link.mode = .down
  · unfold Card.returnLink
    rw [if_pos down]
  by_cases training : c.phase = .linkTraining
  · unfold Card.returnLink
    rw [if_neg down, if_pos training, Card.enterTraining_tripped]
  rw [Card.returnLink_eq down training]
  have ends (d : Card) : d.holdOver.far.power.hclkTripped = d.far.power.hclkTripped := by
    unfold Card.holdOver
    split
    · exact d.endHold_tripped
    · rfl
  have now (d : Card) : d.trainNow.far.power.hclkTripped = d.far.power.hclkTripped := by
    unfold Card.trainNow
    split <;> rfl
  rw [ends, Card.stepActs_far, Tripped.foldl _ Card.cutLater_tripped, now]
  exact congrArg Power.hclkTripped c.retrainCounted_only.frame.2.1

theorem Card.returnLink_marks (c : Card) : c.returnLink.marks = c.marks := by
  have train (d : Card) (b : Bool) : (d.enterTraining b).marks = d.marks := Card.marks_of_dies rfl
  by_cases down : c.link.mode = .down
  · unfold Card.returnLink
    rw [if_pos down]
  by_cases training : c.phase = .linkTraining
  · unfold Card.returnLink
    rw [if_neg down, if_pos training, train]
  rw [Card.returnLink_eq down training]
  have ends (d : Card) : d.holdOver.marks = d.marks := by
    unfold Card.holdOver
    split
    · exact Card.marks_of_dies (by simp)
    · rfl
  have now (d : Card) : d.trainNow.marks = d.marks := by
    unfold Card.trainNow
    split
    · exact Card.marks_of_dies rfl
    · exact train _ _
  rw [ends, (Card.stepActs_placing _).marks, foldl_same Card.marks Card.cutLater Card.cutLater_marks, now]
  exact Card.marks_of_dies (congrArg Halls.dies c.retrainCounted_only.work.1)

theorem Card.holdUnclocked_marks (c : Card) : c.holdUnclocked.marks = c.marks := by
  unfold Card.holdUnclocked
  split
  · exact Card.marks_of_dies (by simp)
  · rfl

/-- With no report left from before, HCLK's return takes none. -/
theorem Card.takeAllLate_none {c : Card} (none : ∀ n, (c.die n).late = none) : c.takeAllLate = c.pumpAll := by
  unfold Card.takeAllLate
  suffices h : ∀ l : List Nat, l.foldl Card.takeLate c = c by rw [h]
  intro l
  induction l with
  | nil => rfl
  | cons n l ih => rw [List.foldl_cons, Card.takeLate, none n, ih]

theorem Card.late_of_marks {c d : Card} (h : d.marks = c.marks) (n : Nat) : (d.die n).late = (c.die n).late :=
  congrArg Prod.fst (congrFun h n)

/-- A trained link that no transfer uses: training frames, on no lane trained, with the tags as they were. -/
theorem Card.returnLink_idle {c : Card} (up : c.link.mode = .up) (free : c.link.hold = false)
    (trained : c.phase ≠ .linkTraining) (uncut : c.cuts = []) :
    c.returnLink.link.mode = .training ∧ c.returnLink.link.trained = 0 ∧ c.returnLink.link.reqResult = .none ∧
      c.returnLink.ports.tags = c.ports.tags := by
  obtain ⟨b, only⟩ := c.retrainCounted_only
  have cuts : c.retrainCounted.cuts = [] := by
    rw [only]
    exact uncut
  have now : c.retrainCounted.trainNow = c.retrainCounted.enterTraining false := by
    rw [only]
    exact if_neg (by simp [free])
  have link := Far.link_eq (Card.stepActs_far (c.retrainCounted.enterTraining false))
  rw [Card.returnLink_eq (by simp [up]) trained, cuts, List.foldl_nil, now, Card.holdOver, if_neg]
  · rw [link, Card.stepActs_ports', only]
    exact ⟨rfl, rfl, rfl, rfl⟩
  · rw [link, only]
    simp [Card.enterTraining, Card.send, free]

/-! HCLK returns. -/

/-- The card as HCLK runs again. -/
def Card.clocked (c : Card) : Card :=
  { c with power := { c.power with hclk := true, hclkTripped := false },
           bal := { c.bal with slot := none, startDue := c.power.dock } }

/-- The card as the link has come back, before it takes what dies have finished. -/
def Card.resumed (c : Card) : Card := c.clocked.driveLnd.returnLink.holdUnclocked

theorem Card.hclkReturn_eq {c : Card} (powered : c.phase ≠ .absent) (stopped : c.power.hclk = false) :
    c.hclkReturn = c.resumed.takeAllLate := by
  unfold Card.hclkReturn
  rw [if_neg (by simp [stopped])]
  dsimp only
  rw [if_neg (by simpa using powered)]
  rfl

theorem Card.resumed_keep (c : Card) : c.resumed.keep = c.clocked.keep := by
  unfold Card.resumed
  rw [Card.holdUnclocked_keep, Card.returnLink_keep, Card.driveLnd_keep]

theorem Card.driveLnd_only (c : Card) : ∃ p, c.driveLnd = { c with power := p } := by
  unfold Card.driveLnd
  split
  · exact ⟨_, rfl⟩
  · exact ⟨_, rfl⟩

theorem Card.hclkReturn_counts {c : Card} (powered : c.phase ≠ .absent) (stopped : c.power.hclk = false) :
    c.hclkReturn.power.hclk = true ∧ c.hclkReturn.power.hclkTripped = false ∧ c.hclkReturn.treads.c = c.treads.c ∧
      c.hclkReturn.link.lanes = c.link.lanes := by
  obtain ⟨-, -, lanes, tread, hclk, -⟩ := c.resumed.takeAllLate_keeps
  rw [Card.hclkReturn_eq powered stopped]
  rw [Card.resumed_keep] at lanes tread hclk
  refine ⟨hclk, ?_, tread, lanes⟩
  have tripped : c.resumed.takeAllLate.far.power.hclkTripped = c.clocked.far.power.hclkTripped := by
    rw [Card.takeAllLate_tripped, Card.resumed, Card.holdUnclocked_tripped, Card.returnLink_tripped, Card.driveLnd_tripped]
  exact tripped

theorem Card.resumed_late {c : Card} (none : ∀ n, (c.die n).late = none) : c.resumed.takeAllLate = c.resumed.pumpAll := by
  refine Card.takeAllLate_none fun n => (Card.late_of_marks ?_ n).trans (none n)
  unfold Card.resumed
  rw [Card.holdUnclocked_marks, Card.returnLink_marks]
  obtain ⟨p, is⟩ := c.clocked.driveLnd_only
  rw [is]
  exact Card.marks_of_dies rfl

theorem Card.holdUnclocked_link (c : Card) : c.holdUnclocked.link.mode = c.link.mode ∧
    c.holdUnclocked.link.trained = c.link.trained ∧ c.holdUnclocked.link.reqResult = c.link.reqResult ∧
    c.holdUnclocked.ports = c.ports := by
  unfold Card.holdUnclocked
  split
  · obtain ⟨b, is⟩ := c.startHold_eq false
    rw [is]
    exact ⟨rfl, rfl, rfl, rfl⟩
  · exact ⟨rfl, rfl, rfl, rfl⟩

theorem Card.resumed_idle {c : Card} (up : c.link.mode = .up) (free : c.link.hold = false)
    (trained : c.phase ≠ .linkTraining) (uncut : c.cuts = []) :
    c.resumed.link.mode = .training ∧ c.resumed.link.trained = 0 ∧ c.resumed.link.reqResult = .none ∧
      c.resumed.ports.tags = c.ports.tags := by
  obtain ⟨mode, lanes, result, ports⟩ := c.clocked.driveLnd.returnLink.holdUnclocked_link
  obtain ⟨p, is⟩ := c.clocked.driveLnd_only
  unfold Card.resumed
  rw [mode, lanes, result, ports, is]
  exact Card.returnLink_idle (c := { c.clocked with power := p }) up free trained uncut

theorem returnRow {s : State} (powered : s.card.phase ≠ .absent) (stopped : s.card.power.hclk = false) :
    ∃ t, exec .hclkReturn s = .next t ∧ t.card.power.hclk = true ∧ t.card.power.hclkTripped = false ∧
      t.card.treads.c = s.card.treads.c ∧ t.card.link.lanes = s.card.link.lanes ∧
      ((∀ n, (s.card.die n).late = none) → t.card.phase = s.card.phase ∧ t.card.media.cells = s.card.media.cells ∧
        (s.card.link.mode = .up → s.card.link.hold = false → s.card.phase ≠ .linkTraining → s.card.cuts = [] →
          s.card.flights.acts = [] → t.card.link.mode = .training ∧ t.card.link.trained = 0 ∧
            t.card.link.reqResult = .none ∧ t.card.ports.tags = s.card.ports.tags)) := by
  obtain ⟨t, runs, b, is⟩ := run_balconyOnly Card.hclkReturn s
  obtain ⟨hclk, tripped, treads, lanes⟩ := Card.hclkReturn_counts powered stopped
  refine ⟨t, runs, ?_⟩
  rw [is]
  refine ⟨hclk, tripped, treads, lanes, fun none => ?_⟩
  have taken : s.card.hclkReturn = s.card.resumed.pumpAll :=
    (Card.hclkReturn_eq powered stopped).trans (Card.resumed_late none)
  have keep : s.card.resumed.pumpAll.keep = s.card.clocked.keep := (Card.pumpAll_keep _).trans s.card.resumed_keep
  rw [taken]
  refine ⟨(Card.phase_of_keep keep).trans rfl, Card.cells_of_keep (c := s.card.clocked) (congrArg Keep.cells keep),
    fun up free trained uncut _ => ?_⟩
  have rest := Card.pumpAll_rest s.card.resumed
  have link : s.card.resumed.pumpAll.link = s.card.resumed.link := congrArg Rest.link rest
  have ports := Rest.ports_eq rest
  change s.card.resumed.pumpAll.link.mode = _ ∧ s.card.resumed.pumpAll.link.trained = _ ∧
    s.card.resumed.pumpAll.link.reqResult = _ ∧ s.card.resumed.pumpAll.ports.tags = _
  rw [link, ports]
  exact Card.resumed_idle up free trained uncut

/-- Settles O11: the trip drops the map and what is scheduled, HCLK's return the retrain alone. -/
theorem clockLossAndReturn : Obligations.ClockLossAndReturn := by
  unfold Obligations.ClockLossAndReturn
  exact ⟨fun s powered stopped fresh => absenceRow powered stopped fresh, fun s powered stopped => returnRow powered stopped⟩

end Sys2Proof.Machine
